-- ==== Sys2Proof/Word.lean ====
section
/-! DEFINITION. The word types of the message link, the strand numbers, and tables of a fixed length. -/

namespace Sys2Proof

/-- One byte of the message link (R184). -/
abbrev Byte := BitVec 8

/-- A two-byte field of the message link, little-endian on the line (R184). -/
abbrev Half := BitVec 16

/-- A time stamp: milliseconds since reset, 32 bits, wrapping (00_scope, Units). -/
abbrev Stamp := BitVec 32

/-- A table of `n` entries. -/
abbrev Tab (n : Nat) (α : Type) := Vector α n

/-- Entry `i` of a table. -/
def Tab.look {n : Nat} {α : Type} (t : Tab n α) (i : Fin n) : α := t[i]

/-- The table with entry `i` replaced. -/
def Tab.put {n : Nat} {α : Type} (t : Tab n α) (i : Fin n) (x : α) : Tab n α := t.set i x

/-- The table whose every entry is `x`. -/
def Tab.all {α : Type} (n : Nat) (x : α) : Tab n α := Vector.replicate n x

/-- Whether every entry of a table satisfies `p`. -/
def Tab.every {n : Nat} {α : Type} (t : Tab n α) (p : α → Bool) : Bool := Vector.all t p

/-- A strand of the caster. The index `k` stands for strand number `k + 1` (00_scope, Numbering: strands
are numbered 1 to 8). -/
abbrev Strand := Fin 8

/-- The strand's number, 1 to 8. -/
def Strand.number (k : Strand) : Nat := k.val + 1

/-- Every strand, in order of strand number. -/
def allStrands : List Strand := [0, 1, 2, 3, 4, 5, 6, 7]

/-- A set of strands. -/
abbrev StrandSet := Tab 8 Bool

/-- The empty set of strands. -/
def StrandSet.none : StrandSet := Tab.all 8 false

end Sys2Proof
end

