-- ==== Sys2Proof/Syntax/Settings.lean ====
section
/-! DEFINITION. The settings of the working copy and of the settings image, as plain data (R2, R28 to R30, R37,
R42, R80, R105, R125, R142, R160, R168, R177, R191, R198). -/

namespace Sys2Proof

/-- The three restart kinds, which are also the plan kinds (R28). -/
inductive RestartKind where
  | cold
  | flying
  | dip
  deriving DecidableEq, Repr

/-- Four cooling zone flows in whole per cent, zone 1 to zone 4. -/
structure Zones where
  z1 : Nat
  z2 : Nat
  z3 : Nat
  z4 : Nat
  deriving DecidableEq, Repr

/-- A strand's level parameter set (R105). -/
structure LevelParams where
  target : Nat
  lockBand : Nat
  unlockBand : Nat
  lockCount : Nat
  unlockCount : Nat
  deriving DecidableEq, Repr

/-- The permissive mask of a CHECK step (R30). -/
structure PermissiveMask where
  moldWater : Bool
  dummyAtMold : Bool
  hydOk : Bool
  driveReady : Bool
  deriving DecidableEq, Repr

/-- The source of a LEVEL step. With source STRAND the five level parameters of the step are zero (R30). -/
inductive LevelSource where
  | plan (params : LevelParams)
  | strand
  deriving DecidableEq, Repr

/-- The eight step actions with their parameters (R30). `opening` is OPEN; its dwell is in 0.1 s. -/
inductive Action where
  | check (mask : PermissiveMask)
  | cool (zones : Zones)
  | drive
  | opening (fill startDepth attempts dwell : Nat)
  | level (source : LevelSource)
  | wait
  | draw (start target rate : Nat)
  | handover
  deriving DecidableEq, Repr

/-- One step of a plan: an action with its parameters, and the time field in 0.1 s (R29). -/
structure Step where
  action : Action
  time : Nat
  deriving DecidableEq, Repr

/-- A restart plan: name, kind, and the ordered steps, step 1 first (R28). -/
structure Plan where
  name : List Byte
  kind : RestartKind
  steps : List Step
  deriving DecidableEq, Repr

/-- The class of a strand for a pool (R2). -/
inductive PoolClass where
  | low
  | high
  deriving DecidableEq, Repr

/-- A strand's settings of R2. Its level parameter set is kept beside them (R105). -/
structure StrandSettings where
  grade : Nat
  pourClass : PoolClass
  driveClass : PoolClass
  freezeLimit : Nat
  holdCooling : Zones
  breakoutCooling : Zones
  deriving DecidableEq, Repr

/-- The two protection settings of a bank (R37). -/
structure BankProtection where
  write : Bool
  read : Bool
  deriving DecidableEq, Repr

/-- A grade window (R42). A plan field `none` is NONE. -/
structure GradeWindow where
  enabled : Bool
  base : Nat
  sizeExp : Nat
  strands : StrandSet
  cold : Option (Fin 32)
  flying : Option (Fin 32)
  dip : Option (Fin 32)
  deriving DecidableEq, Repr

/-- The park policy of the POUR pool (R80, R90). -/
inductive ParkPolicy where
  | last
  | selected
  deriving DecidableEq, Repr

/-- The settings of the POUR pool (R80). Response time in s, pre-charge time in ms. -/
structure PourSettings where
  capacity : Nat
  monitor : Bool
  responseTime : Nat
  riseThreshold : Nat
  preCharge : Nat
  policy : ParkPolicy
  selected : Option Strand
  deriving DecidableEq, Repr

/-- The settings of the DRIVE pool (R80). Response time in s, inrush hold in ms. -/
structure DriveSettings where
  capacity : Nat
  monitor : Bool
  responseTime : Nat
  inrushHold : Nat
  deriving DecidableEq, Repr

/-- The caster settings (R191). -/
structure CasterSettings where
  strandCount : Nat
  openThreshold : Nat
  lowThreshold : Nat
  rideThrough : Nat
  settle : Nat
  periodA : Nat
  periodB : Nat
  measurement : Nat
  deriving DecidableEq, Repr

/-- Every setting: what the working copy, the capture and the settings image hold (R198). -/
structure Settings where
  caster : CasterSettings
  strands : Tab 8 StrandSettings
  levels : Tab 8 LevelParams
  plans : Tab 32 (Option Plan)
  banks : Tab 4 BankProtection
  windows : Tab 8 GradeWindow
  pour : PourSettings
  drive : DriveSettings
  noticeLevels : Tab 29 Nat
  deriving DecidableEq, Repr

/-- The nonvolatile settings image (R198): settings with a CRC that matches or does not, or contents that spell
no settings at all (a coded value outside its list). The spec gives the image no byte layout (log 3). -/
inductive Image where
  | holds (settings : Settings) (crcMatches : Bool)
  | unreadable
  deriving DecidableEq, Repr

end Sys2Proof
end

