-- ==== Sys2Proof/Syntax/Operand.lean ====
section
/-! DEFINITION. The operand types of the commands: the field port's presented levels and channel values, the bodies
of the requests as the link carries them, and the claims the Restart Sequencer sends the Strand Table. -/

namespace Sys2Proof

/-- The two pools of the Slot Arbiter (R79). -/
inductive PoolId where
  | pour
  | drive
  deriving DecidableEq, Repr

/-- What the field port presents for a filtered line at a sampling instant (R162). -/
inductive Presented where
  | level (l : Bool)
  | noData
  deriving DecidableEq, Repr

/-- The nine class A lines as presented at one instant (R159). -/
structure ClassALevels where
  breakoutAlarm : Tab 8 Presented
  supplyOk : Presented
  deriving DecidableEq, Repr

/-- The four class B lines of one strand as presented at one instant (R159). -/
structure StrandClassB where
  driveReady : Presented
  dummyAtMold : Presented
  steelPresent : Presented
  moldWaterOk : Presented
  deriving DecidableEq, Repr

/-- The 36 class B lines as presented at one instant (R159). -/
structure ClassBLevels where
  strands : Tab 8 StrandClassB
  tcRequest : Presented
  tundishInPlace : Presented
  hydOk : Presented
  maint : Presented
  deriving DecidableEq, Repr

/-- A class sampling instant with the levels its lines present (R160). -/
inductive FilterInstant where
  | classA (levels : ClassALevels)
  | classB (levels : ClassBLevels)
  deriving DecidableEq, Repr

/-- What the field port presents for a measurement channel: no answer from the station, or a value with the
station's own mark (R167). -/
inductive Channel where
  | noAnswer
  | present (value : Int) (markedValid : Bool)
  deriving DecidableEq, Repr

/-- The 17 measurement channels as presented at one instant (R167). -/
structure MeasurementLevels where
  depth : Tab 8 Channel
  speed : Tab 8 Channel
  weight : Channel
  deriving DecidableEq, Repr

/-- A measurement sample as its consumers receive it (R167). An INVALID sample carries no value. -/
inductive Sample where
  | valid (value : Nat)
  | invalid
  deriving DecidableEq, Repr

/-- A permissive line whose accepted level changed (R58, R164). -/
inductive PermissiveLine where
  | driveReady (strand : Strand)
  | dummyAtMold (strand : Strand)
  | moldWaterOk (strand : Strand)
  | hydOk
  deriving DecidableEq, Repr

/-- A step failure with its detail (R56). -/
inductive StepFailure where
  | permissive (missing : PermissiveMask)
  | stepTimeout (action : Action)
  | excluded (pool : PoolId)
  | driveTimeout
  | noFlow (attempts : Nat)
  | lockDisabled
  | interlock
  deriving DecidableEq, Repr

/-- A step failure claim. `restart` names the restart record that produced it (R17); the plan and the step the
claim carries are those of that record, which holds them when the claim is taken. -/
structure FailureClaim where
  restart : Nat
  failure : StepFailure
  deriving DecidableEq, Repr

/-- A step record as the link carries it: action, time field, nine parameter bytes (R195). -/
structure RawStep where
  action : Byte
  time : Half
  params : Tab 9 Byte
  deriving DecidableEq, Repr

/-- The plan record of PLAN WRITE after its plan number: the name length and the step count of the record are
the lengths of the two lists (R195). -/
structure RawPlan where
  name : List Byte
  kind : Byte
  steps : List RawStep
  deriving DecidableEq, Repr

/-- The body of SETTINGS WRITE (R191). -/
structure CasterBody where
  strandCount : Byte
  openThreshold : Half
  lowThreshold : Half
  rideThrough : Half
  settle : Byte
  periodA : Byte
  periodB : Byte
  measurement : Byte
  deriving DecidableEq, Repr

/-- The body of STRAND SETTINGS after the strand number (R193). -/
structure StrandBody where
  grade : Half
  pourClass : Byte
  driveClass : Byte
  freezeLimit : Half
  holdCooling : Tab 4 Byte
  breakoutCooling : Tab 4 Byte
  target : Half
  lockBand : Byte
  unlockBand : Byte
  lockCount : Byte
  unlockCount : Byte
  deriving DecidableEq, Repr

/-- The body of MAP WRITE: the window record of R196. -/
structure WindowBody where
  window : Byte
  mark : Byte
  base : Half
  sizeExp : Byte
  strands : Byte
  cold : Byte
  flying : Byte
  dip : Byte
  deriving DecidableEq, Repr

/-- The body of ARBITER WRITE (R101): the settings of the pool it names, or a pool byte that names neither. -/
inductive ArbiterBody where
  | pour (capacity monitor responseTime riseThreshold : Byte) (preCharge : Half) (policy selected : Byte)
  | drive (capacity monitor responseTime : Byte) (inrushHold : Half)
  | other (pool : Byte)
  deriving DecidableEq, Repr

end Sys2Proof
end

