-- ==== Sys2Proof/Syntax.lean ====
section
/-! DEFINITION. The commands of the part, one constructor for each row of spec/opcode_table.json. A command is one
step of the part, whole and indivisible (95_what_each_step_holds): a request the link has received, an event of the
field port, of the line or of a timer, or a claim. Every request carries its frame's tag. -/

namespace Sys2Proof

/-- The commands, in the table's order. A strand byte of a request is the wire's number, 1 for strand 1; a `Strand` of an
event is an index, 0 for strand 1. -/
inductive Instr where
  /-- RESET (R4): power-on or external reset. -/
  | reset
  /-- RECEIVED_BYTE (R185): the receiver takes one byte. -/
  | receivedByte (b : Byte)
  /-- GAP_TIMER_EXPIRY (R185). -/
  | gapTimerExpiry
  /-- TRANSMISSION_END (R183): the frame in transmission ends. -/
  | transmissionEnd
  /-- STATUS (R189). -/
  | status (tag : Byte)
  /-- SETTINGS READ (R190). -/
  | settingsRead (tag : Byte)
  /-- SETTINGS WRITE (R191). -/
  | settingsWrite (tag : Byte) (body : CasterBody)
  /-- STORE (R199). -/
  | store (tag : Byte)
  /-- The image write ends with the image holding `written` (R199). -/
  | storeWriteEnd (written : Image)
  /-- STRAND READ (R192). -/
  | strandRead (tag strand : Byte)
  /-- STRAND SETTINGS (R193). -/
  | strandSettings (tag strand : Byte) (body : StrandBody)
  /-- START (R22). -/
  | start (tag strand : Byte)
  /-- ABORT (R23). -/
  | abort (tag strand : Byte)
  /-- STRAND CONTROL (R122). -/
  | strandControl (tag strand level draw mode choice : Byte)
  /-- RESUME (R24). -/
  | resume (tag strand : Byte)
  /-- CLEAR STRAND (R25). -/
  | clearStrand (tag strand : Byte)
  /-- SERVICE (R26). -/
  | service (tag strand requested : Byte)
  /-- FAULT READ (R175). -/
  | faultRead (tag strand : Byte)
  /-- FAULT CLEAR (R176). -/
  | faultClear (tag strand : Byte)
  /-- PLAN WRITE (R31). -/
  | planWrite (tag number : Byte) (plan : RawPlan)
  /-- PLAN READ (R36). -/
  | planRead (tag number : Byte)
  /-- PLAN ERASE (R35). -/
  | planErase (tag number : Byte)
  /-- PROTECT (R40). -/
  | protect (tag writeMask readMask : Byte)
  /-- UNPROTECT (R41). -/
  | unprotect (tag writeMask readMask : Byte)
  /-- MAP READ (R46). -/
  | mapRead (tag window : Byte)
  /-- MAP WRITE (R44). -/
  | mapWrite (tag : Byte) (body : WindowBody)
  /-- MAP DISABLE (R45). -/
  | mapDisable (tag window : Byte)
  /-- ARBITER READ (R100). -/
  | arbiterRead (tag pool : Byte)
  /-- ARBITER WRITE (R101). -/
  | arbiterWrite (tag : Byte) (body : ArbiterBody)
  /-- INCLUDE (R99). -/
  | includeStrand (tag strand pools : Byte)
  /-- TUNDISH CHANGE (R128). -/
  | tundishChange (tag : Byte)
  /-- TUNDISH IN PLACE, the request (R131). -/
  | tundishInPlace (tag : Byte)
  /-- TUNDISH ABORT (R137). -/
  | tundishAbort (tag : Byte)
  /-- TRIP ARM (R156). -/
  | tripArm (tag : Byte)
  /-- TRIP RESET (R157). -/
  | tripReset (tag : Byte)
  /-- NOTICE LEVELS (R180). -/
  | noticeLevels (tag : Byte) (levels : Tab 29 Byte)
  /-- NOTICE POLL (R181). -/
  | noticePoll (tag : Byte)
  /-- NOTICE CLEAR (R182). -/
  | noticeClear (tag : Byte) (mask : BitVec 32)
  /-- A class sampling instant (R161). -/
  | filterSample (samples : FilterInstant)
  /-- The first accepted level of STEEL_PRESENT (R4). -/
  | steelPresentFirstLevel (strand : Strand) (level : Bool)
  /-- The first accepted level of SUPPLY_OK (R143). -/
  | supplyOkFirstLevel (level : Bool) (stamp : Stamp)
  /-- An accepted rising BREAKOUT_ALARM (R18). -/
  | breakoutAlarmRise (strand : Strand)
  /-- An accepted falling DRIVE_READY at the Strand Table (R19). -/
  | driveReadyFall (strand : Strand)
  /-- An accepted rising DRIVE_READY at the Strand Table (R19, R62). -/
  | driveReadyRise (strand : Strand)
  /-- A change of a permissive line's accepted level at the Restart Sequencer (R58). -/
  | permissiveLevelChange (line : PermissiveLine)
  /-- An accepted falling SUPPLY_OK (R144). -/
  | supplyOkFall (stamp : Stamp)
  /-- An accepted rising SUPPLY_OK (R147). -/
  | supplyOkRise (stamp : Stamp)
  /-- An accepted rising TC_REQUEST (R127). -/
  | tcRequestRise
  /-- An accepted rising TUNDISH_IN_PLACE (R130). -/
  | tundishInPlaceRise
  /-- A measurement instant (R169). -/
  | measurementInstant (channels : MeasurementLevels)
  /-- The Level and Draw Unit's copy of a mold depth sample (R110). -/
  | depthSampleUnit (strand : Strand) (sample : Sample)
  /-- The OPEN step's copy of a mold depth sample (R66). -/
  | depthSampleOpenStep (strand : Strand) (sample : Sample)
  /-- A speed reference sample (R120). -/
  | speedReferenceSample (strand : Strand) (sample : Sample)
  /-- A tundish weight sample (R132). -/
  | weightSample (sample : Sample)
  /-- A TRIP sample; `true` is ASSERTED (R154). -/
  | tripSample (asserted : Bool)
  /-- The hold timer expires (R10). -/
  | holdTimerExpiry (strand : Strand)
  /-- The step timer expires (R55). -/
  | stepTimerExpiry (strand : Strand)
  /-- The pre-charge time runs out (R65). -/
  | preChargeEnd (strand : Strand)
  /-- The retry dwell runs out (R68). -/
  | retryDwellEnd (strand : Strand)
  /-- The inrush hold ends (R62). -/
  | inrushHoldEnd (strand : Strand)
  /-- The POUR response timer runs out (R94). -/
  | pourResponseExpiry (strand : Strand)
  /-- The DRIVE response timer runs out (R96). -/
  | driveResponseExpiry (strand : Strand)
  /-- The speed ramp reaches its target (R119). -/
  | rampTargetReached (strand : Strand)
  /-- The ride-through timer expires (R146). -/
  | rideThroughExpiry
  /-- The settle timer expires (R149). -/
  | settleExpiry
  /-- The Strand Table takes a step failure claim (R17). -/
  | stepFailureClaim (strand : Strand) (claim : FailureClaim)
  /-- The Strand Table takes a restart-complete claim of the restart record `restart` (R17). -/
  | restartCompleteClaim (strand : Strand) (restart : Nat)
  deriving DecidableEq, Repr

end Sys2Proof
end

