-- ==== Sys2Proof/Decode.lean ====
section
/-! DEFINITION. The command a word spells by the table's bits. No row of spec/opcode_table.json gives bits (its
commands are requests of a byte link, plant events and timers), so no word spells one. -/

namespace Sys2Proof

/-- The command spelled by the low `nbits` bits of `w`: none, for the table gives no row any bits. -/
def decodeTableWord (_nbits _w : Nat) : Option Instr := none

end Sys2Proof
end

