-- ==== Sys2Proof/Config.lean ====
section
/-! DEFINITION. What the part fixes: the defaults of every setting (R198), the frame's constants (R184), the limits
of the link (R185, R186); what the spec leaves open and the log names: the image and the field port at power-on
(log 1, 2), and the free choice between simultaneous events (log 4). -/

namespace Sys2Proof.Config

/-- The SYNC byte (R184). -/
def sync : Byte := 0xA7

/-- The largest body of a frame (R184). -/
def maxBody : Nat := 400

/-- The gap timer of the receiver, in ms (R185). -/
def gapTime : Nat := 5

/-- The places of the reply queue (R186). -/
def replyPlaces : Nat := 4

/-- The fitted strand count (R3). -/
def fitted : Nat := 8

/-- The kind byte of a notice frame (R179). -/
def noticeKind : Byte := 0xF0

/-- A cooling table with the same flow in each zone. -/
def Zones.each (n : Nat) : Zones := ⟨n, n, n, n⟩

/-- R2. -/
def defaultStrand : StrandSettings where
  grade := 0
  pourClass := .low
  driveClass := .low
  freezeLimit := 240
  holdCooling := Zones.each 15
  breakoutCooling := Zones.each 100

/-- R105. -/
def defaultLevel : LevelParams := ⟨80, 5, 10, 10, 20⟩

/-- R42. -/
def defaultWindow : GradeWindow where
  enabled := false
  base := 0
  sizeExp := 0
  strands := StrandSet.none
  cold := none
  flying := none
  dip := none

/-- R198, the caster defaults. -/
def defaultCaster : CasterSettings where
  strandCount := 8
  openThreshold := 200
  lowThreshold := 80
  rideThrough := 200
  settle := 5
  periodA := 1
  periodB := 8
  measurement := 50

/-- R80. -/
def defaultPour : PourSettings where
  capacity := 1
  monitor := true
  responseTime := 8
  riseThreshold := 20
  preCharge := 3000
  policy := .last
  selected := none

/-- R80. -/
def defaultDrive : DriveSettings where
  capacity := 2
  monitor := true
  responseTime := 5
  inrushHold := 1500

/-- Every setting at its default (R198). -/
def defaultSettings : Settings where
  caster := defaultCaster
  strands := Tab.all 8 defaultStrand
  levels := Tab.all 8 defaultLevel
  plans := Tab.all 32 none
  banks := Tab.all 4 ⟨false, false⟩
  windows := Tab.all 8 defaultWindow
  pour := defaultPour
  drive := defaultDrive
  noticeLevels := Tab.all 29 0

/-- DESIGN CHOICE (log 1), unsafe: a part that has never stored holds no readable image. -/
def firstImage : Image := .unreadable

/-- DESIGN CHOICE (log 2), unsafe: at power-on no I/O station has answered for a class A line. -/
def firstClassA : ClassALevels := ⟨Tab.all 8 .noData, .noData⟩

/-- DESIGN CHOICE (log 2), unsafe: at power-on no I/O station has answered for a class B line. -/
def firstClassB : ClassBLevels :=
  ⟨Tab.all 8 ⟨.noData, .noData, .noData, .noData⟩, .noData, .noData, .noData, .noData⟩

/-- DESIGN CHOICE (log 2), unsafe: at power-on no I/O station has answered for a channel. -/
def firstChannels : MeasurementLevels := ⟨Tab.all 8 .noAnswer, Tab.all 8 .noAnswer, .noAnswer⟩

/-- A free value (log 4): the choice among simultaneous events, which the spec leaves open (R57, R69, R164, R169).
Applied to a counter in State, it gives a fresh choice each time. -/
opaque freeChoice : Nat → Nat

end Sys2Proof.Config
end

