-- ==== Sys2Proof/Machine/State.lean ====
section
/-! DEFINITION. The state of the part: everything the spec gives its fourteen blocks, the field port's presented
inputs, the commands waiting and the events under way inside the part; and the state after reset. -/

namespace Sys2Proof.Machine

/-- The faults of the part. There is none: the spec gives the part no stop, and every command of the table ends in a
next state. -/
inductive Fault where
  deriving DecidableEq, Repr

/-- The refusals of the model. -/
inductive Refusal where
  /-- Raised by `exec` for a command that has no meaning yet. No arm raises it now. Safe. -/
  | notModelled (mnemonic : String)
  deriving DecidableEq, Repr

/-! ### The Strand Table and the Restart Sequencer -/

/-- The halt causes (R1). -/
inductive HaltCause where
  | breakout
  | frozen
  | fault
  | driveLost
  | trip
  | abort
  | reset
  | noPlan
  deriving DecidableEq, Repr

/-- The offline reasons (R1). -/
inductive OfflineReason where
  | service
  | unconfigured
  deriving DecidableEq, Repr

/-- The phases of a step (R194; section 3.12). `noPhase` is the code 0. -/
inductive Phase where
  | noPhase
  | waiting
  | slotWait
  | starting
  | inrush
  | preCharge
  | pouring
  | retryDwell
  | filling
  | locking
  | dwell
  | ramping
  | referenceWait
  deriving DecidableEq, Repr

/-- The plan snapshot of a restart record (R49). -/
structure Snapshot where
  plan : Plan
  readProtected : Bool
  deriving DecidableEq, Repr

/-- The restart record of R1 with the plan execution of R51, which live and end together. Timers hold the
milliseconds remaining. `serial` is the model's own: it tells this record from every other, so that a claim can be
matched with the record that produced it (R17, log 6). -/
structure RestartRecord where
  serial : Nat
  kind : RestartKind
  planNumber : Fin 32
  snapshot : Snapshot
  stepIndex : Nat
  attempt : Option Nat
  phase : Phase
  stepTimer : Option Nat
  phaseTimer : Option Nat
  riseReference : Option Nat
  deriving DecidableEq, Repr

/-- The six conditions, each with the fields R1 gives it and no other: the halt cause in HALTED, the offline reason in
OFFLINE, the restart record in RESTARTING. -/
inductive Condition where
  | dry
  | restarting (record : RestartRecord)
  | casting
  | held
  | halted (cause : HaltCause)
  | offline (reason : OfflineReason)
  deriving DecidableEq, Repr

/-- The condition without its fields, as a fault record keeps it (R171). -/
inductive ConditionName where
  | dry
  | restarting
  | casting
  | held
  | halted
  | offline
  deriving DecidableEq, Repr

/-- The hold timer: elapsed milliseconds, and running or stopped (R1). -/
structure HoldTimer where
  elapsed : Nat
  running : Bool
  deriving DecidableEq, Repr

/-- A start-up check (R1, R141). -/
inductive StartUpCheck where
  | pending
  | done
  deriving DecidableEq, Repr

/-- A Strand Context (R1). Its settings stand in the working copy (R2). -/
structure StrandContext where
  condition : Condition
  heldForTundish : Bool
  heldForDip : Bool
  heldByOperator : Bool
  driveLost : Bool
  steel : Bool
  holdTimer : HoldTimer
  check : StartUpCheck
  deriving DecidableEq, Repr

/-! ### The Level and Draw Unit -/

/-- R104. -/
inductive ControlMode where
  | auto
  | manual
  deriving DecidableEq, Repr

/-- The manual choice, and the supervisor mode (R104). -/
inductive Supervision where
  | acquire
  | track
  deriving DecidableEq, Repr

/-- R104, R116. -/
inductive StopperSource where
  | closed
  | fill (opening : Nat)
  | regulator
  deriving DecidableEq, Repr

/-- R104. -/
inductive SpeedSource where
  | ramp
  | reference
  deriving DecidableEq, Repr

/-- A ramp: its target and rate (R104), the setpoint it began from and the milliseconds it has run (R119). -/
structure Ramp where
  start : Nat
  target : Nat
  rate : Nat
  elapsed : Nat
  deriving DecidableEq, Repr

/-- The unit's run-time fields for one strand (R104). The supervisor mode is computed from the control mode, the manual
choice and LOCK (R115); the level parameter set stands in the working copy (R105). -/
structure UnitState where
  levelOn : Bool
  draw : Bool
  lock : Bool
  inCount : Nat
  outCount : Nat
  lastDepth : Option Nat
  controlMode : ControlMode
  manualChoice : Supervision
  stopper : StopperSource
  driveRun : Bool
  speedSource : SpeedSource
  setpoint : Nat
  ramp : Option Ramp
  lastReference : Option Nat
  cooling : Zones
  deriving DecidableEq, Repr

/-! ### The Slot Arbiter -/

/-- The response state of a grant record, with the milliseconds remaining while RUNNING (R79, R92). -/
inductive Response where
  | off
  | idle
  | running (remaining : Nat)
  | answered
  deriving DecidableEq, Repr

/-- A grant record (R79). The strand it belongs to is its place in the holder set. -/
structure Grant where
  time : Stamp
  parkMark : Bool
  response : Response
  deriving DecidableEq, Repr

/-- A wait entry (R81). -/
structure WaitEntry where
  strand : Strand
  cls : PoolClass
  arrival : Nat
  deriving DecidableEq, Repr

/-- A pool's run-time state (R79). The wait list stands in grant order; `arrivals` counts the entries that have
joined, which gives each its arrival (R81). -/
structure Pool where
  isOpen : Bool
  holders : Tab 8 (Option Grant)
  waits : List WaitEntry
  excluded : StrandSet
  arrivals : Nat
  deriving DecidableEq, Repr

/-! ### The Tundish Coordinator, the Supply Monitor and the Trip Latch -/

/-- R125. -/
inductive CoordinatorState where
  | steady
  | holding
  | filling
  | releasing
  deriving DecidableEq, Repr

/-- The Tundish Coordinator's run-time fields (R125). `entering` is the model's own: set only inside the entry into
RELEASING and inside TUNDISH ABORT, where a removal does not end RELEASING (R134, R137). -/
structure Coordinator where
  state : CoordinatorState
  releaseSet : StrandSet
  lowWeight : Bool
  lastWeight : Option Nat
  entering : Bool
  deriving DecidableEq, Repr

/-- R141. -/
inductive SupplyState where
  | supplied
  | riding
  | down
  | settling
  deriving DecidableEq, Repr

/-- The Supply Monitor's run-time fields (R141). Timers hold the milliseconds remaining. -/
structure SupplyMonitor where
  state : SupplyState
  check : StartUpCheck
  rideTimer : Option Nat
  settleTimer : Option Nat
  outageStart : Option Stamp
  settleStart : Option Stamp
  lastOutage : Option Stamp
  deriving DecidableEq, Repr

/-- The Trip Latch (R153). `line` is true for ASSERTED. -/
structure TripLatch where
  armed : Bool
  latched : Bool
  line : Bool
  deriving DecidableEq, Repr

/-! ### The Input Filter -/

/-- The data mark of a filtered line (R159). -/
inductive DataMark where
  | ok
  | noData
  deriving DecidableEq, Repr

/-- A filtered line (R159). -/
structure Line where
  accepted : Option Bool
  runLevel : Option Bool
  runLength : Nat
  mark : DataMark
  deriving DecidableEq, Repr

/-- The five filtered lines of a strand (R159). -/
structure StrandLines where
  breakoutAlarm : Line
  driveReady : Line
  dummyAtMold : Line
  steelPresent : Line
  moldWaterOk : Line
  deriving DecidableEq, Repr

/-- The five caster-wide filtered lines (R159). -/
structure CasterLines where
  supplyOk : Line
  tcRequest : Line
  tundishInPlace : Line
  hydOk : Line
  maint : Line
  deriving DecidableEq, Repr

/-- The milliseconds to the next sampling instant of each class (R160, R166) and of the measurement channels (R168). -/
structure Instants where
  classA : Nat
  classB : Nat
  measurement : Nat
  deriving DecidableEq, Repr

/-- The field port's inputs as last presented: the lines, the TRIP line (true for ASSERTED) and the channels (log 5). -/
structure PortInputs where
  classA : ClassALevels
  classB : ClassBLevels
  trip : Bool
  channels : MeasurementLevels
  deriving DecidableEq, Repr

/-! ### The Fault Log -/

/-- The fourteen fault codes (R173). -/
inductive FaultCode where
  | breakout
  | frozen
  | noFlow
  | driveTimeout
  | excluded
  | stepTimeout
  | permissive
  | interlock
  | lockDisabled
  | driveLost
  | trip
  | abort
  | resetWithSteel
  | noPlan
  deriving DecidableEq, Repr

/-- A valid fault record (R171); an invalid record is `none` in the log. -/
structure FaultRecord where
  code : FaultCode
  condition : ConditionName
  plan : Option (Fin 32)
  step : Option Nat
  stamp : Stamp
  detail : Nat
  multiple : Bool
  deriving DecidableEq, Repr

/-! ### The Link Port and the Settings Store -/

/-- A frame the part sends: tag, kind and body; SYNC, length and CRC follow from them (R184). -/
structure Frame where
  tag : Byte
  kind : Byte
  body : List Byte
  deriving DecidableEq, Repr

/-- The receiver: HUNTING, or ASSEMBLING with the bytes taken after SYNC and the milliseconds left on the gap timer
(R185). -/
inductive Receiver where
  | hunting
  | assembling (bytes : List Byte) (gap : Nat)
  deriving DecidableEq, Repr

/-- The store state, with the capture while WRITING (R199). -/
inductive StoreState where
  | idle
  | writing (capture : Settings)
  | failed
  deriving DecidableEq, Repr

/-! ### The whole part -/

/-- The state of the part. -/
structure State where
  /-- The commands that are waiting, first in, first out. -/
  pending : List Instr
  /-- The events under way inside the part: sent or delivered, and not yet taken (log 6). -/
  inFlight : List Instr
  /-- The time stamp (00_scope, Units). -/
  now : Stamp
  /-- The configured strand count in effect since start-up (R3). -/
  configuredCount : Nat
  /-- The Strand Contexts (R1). -/
  strands : Tab 8 StrandContext
  /-- The Level and Draw Unit (R104). -/
  units : Tab 8 UnitState
  /-- The POUR pool (R79). -/
  pour : Pool
  /-- The DRIVE pool (R79). -/
  drive : Pool
  /-- Last granted of the POUR pool (R79, R90). -/
  lastGranted : Option Strand
  /-- The Tundish Coordinator (R125). -/
  coordinator : Coordinator
  /-- The Supply Monitor (R141). -/
  supply : SupplyMonitor
  /-- The Trip Latch (R153). -/
  trip : TripLatch
  /-- The strands' filtered lines (R159). -/
  strandLines : Tab 8 StrandLines
  /-- The caster-wide filtered lines (R159). -/
  casterLines : CasterLines
  /-- The next sampling instants (R160, R166, R168). -/
  instants : Instants
  /-- The field port's inputs (log 5). -/
  port : PortInputs
  /-- The Fault Log (R171). -/
  faults : Tab 8 (Option FaultRecord)
  /-- The pending flags of the 29 notice sources (R177). -/
  noticePending : Tab 29 Bool
  /-- The receiver (R185). -/
  receiver : Receiver
  /-- The reply queue, oldest first (R186). -/
  replies : List Frame
  /-- The frame in transmission; `none` while the transmitter is free (R178). -/
  sending : Option Frame
  /-- The working copy of the settings (R198). -/
  working : Settings
  /-- The nonvolatile settings image (R198). -/
  image : Image
  /-- The defaulted flag (R198). -/
  defaulted : Bool
  /-- The store state and the capture (R199). -/
  storeState : StoreState
  /-- The model's own: the serial of the next restart record (log 6). -/
  nextSerial : Nat
  /-- The model's own: the number of free choices made so far (log 4). -/
  choices : Nat
  deriving DecidableEq, Repr

/-! ### Reset -/

/-- A strand after reset (R1, R3, R4). -/
def StrandContext.initial (configured : Bool) : StrandContext where
  condition := if configured then .dry else .offline .unconfigured
  heldForTundish := false
  heldForDip := false
  heldByOperator := false
  driveLost := false
  steel := false
  holdTimer := ⟨0, false⟩
  check := if configured then .pending else .done

/-- The unit's fields after reset (R104). -/
def UnitState.initial : UnitState where
  levelOn := false
  draw := false
  lock := false
  inCount := 0
  outCount := 0
  lastDepth := none
  controlMode := .auto
  manualChoice := .acquire
  stopper := .closed
  driveRun := false
  speedSource := .ramp
  setpoint := 0
  ramp := none
  lastReference := none
  cooling := ⟨0, 0, 0, 0⟩

/-- A pool after reset (R79). -/
def Pool.initial (isOpen : Bool) : Pool where
  isOpen := isOpen
  holders := Tab.all 8 none
  waits := []
  excluded := StrandSet.none
  arrivals := 0

/-- The Coordinator after reset (R125). -/
def Coordinator.initial : Coordinator where
  state := .steady
  releaseSet := StrandSet.none
  lowWeight := false
  lastWeight := none
  entering := false

/-- The Supply Monitor after reset (R141). -/
def SupplyMonitor.initial : SupplyMonitor where
  state := .down
  check := .pending
  rideTimer := none
  settleTimer := none
  outageStart := none
  settleStart := none
  lastOutage := none

/-- A filtered line after reset (R159). -/
def Line.initial : Line := ⟨none, none, 0, .ok⟩

/-- The five lines of a strand after reset (R159). -/
def StrandLines.initial : StrandLines :=
  ⟨Line.initial, Line.initial, Line.initial, Line.initial, Line.initial⟩

/-- The caster-wide lines after reset (R159). -/
def CasterLines.initial : CasterLines :=
  ⟨Line.initial, Line.initial, Line.initial, Line.initial, Line.initial⟩

/-- The field port at power-on (log 2). -/
def PortInputs.initial : PortInputs :=
  ⟨Config.firstClassA, Config.firstClassB, false, Config.firstChannels⟩

/-- The part right after start-up with the working copy `working` loaded from the image `image`, or from the defaults
where `defaulted`; `port` is what the plant presents. The first sampling instants fall one period after start-up
(log 7). -/
def State.started (working : Settings) (defaulted : Bool) (image : Image) (port : PortInputs) : State where
  pending := []
  inFlight := []
  now := 0
  configuredCount := working.caster.strandCount
  strands := Vector.ofFn fun k => StrandContext.initial (k.val < working.caster.strandCount)
  units := Tab.all 8 UnitState.initial
  pour := Pool.initial true
  drive := Pool.initial false
  lastGranted := none
  coordinator := Coordinator.initial
  supply := SupplyMonitor.initial
  trip := ⟨false, false, false⟩
  strandLines := Tab.all 8 StrandLines.initial
  casterLines := CasterLines.initial
  instants := ⟨working.caster.periodA, working.caster.periodB, working.caster.measurement⟩
  port := port
  faults := Tab.all 8 none
  noticePending := Tab.all 29 false
  receiver := .hunting
  replies := []
  sending := none
  working := working
  image := image
  defaulted := defaulted
  storeState := .idle
  nextSerial := 0
  choices := 0

/-- The part right after reset, with the image and the field port of the log's entries 1 and 2: the image is bad, so every
setting takes its default and the defaulted flag is set (R198). -/
def State.reset : State :=
  State.started Config.defaultSettings true Config.firstImage PortInputs.initial

end Sys2Proof.Machine
end

