-- ==== Sys2Proof/Machine/Flags.lean ====
section
/-! DEFINITION. The flags: strand sets, the pending flags of the notice sources (R177), the supervisor mode and
what the lock detector derives (R106, R110, R115), and the levels the rest of the part reads from the lines (R159). -/

namespace Sys2Proof

/-! ### Strand sets -/

/-- The set with strand `k` added. -/
def StrandSet.insert (m : StrandSet) (k : Strand) : StrandSet := m.put k true

/-- The set with strand `k` removed. -/
def StrandSet.erase (m : StrandSet) (k : Strand) : StrandSet := m.put k false

/-- Whether the set is empty. -/
def StrandSet.isEmpty (m : StrandSet) : Bool := allStrands.all fun k => !m.look k

/-- A set of strands as one byte, bit s-1 for strand s (R194). -/
def StrandSet.toByte (m : StrandSet) : Byte :=
  BitVec.ofNat 8 (allStrands.foldl (fun n k => n + if m.look k then 2 ^ k.val else 0) 0)

/-- The set a byte spells, bit s-1 for strand s (R194). -/
def StrandSet.ofByte (b : Byte) : StrandSet := Vector.ofFn fun k => b.getLsbD k.val

namespace Machine

/-! ### Strands and their records -/

/-- Whether strand `k` is a configured strand (R3). -/
def State.isConfigured (s : State) (k : Strand) : Bool := k.val < s.configuredCount

/-- The context of strand `k`. -/
def State.strand (s : State) (k : Strand) : StrandContext := s.strands.look k

/-- The Level and Draw Unit's fields of strand `k`. -/
def State.unit (s : State) (k : Strand) : UnitState := s.units.look k

/-- The level parameter set of strand `k`, as stored (R105). -/
def State.levelSet (s : State) (k : Strand) : LevelParams := s.working.levels.look k

/-- The settings of strand `k` (R2). -/
def State.settingsOf (s : State) (k : Strand) : StrandSettings := s.working.strands.look k

/-- The condition without its fields. -/
def Condition.name : Condition → ConditionName
  | .dry => .dry
  | .restarting _ => .restarting
  | .casting => .casting
  | .held => .held
  | .halted _ => .halted
  | .offline _ => .offline

/-- The restart record, present in RESTARTING (R1). -/
def Condition.record? : Condition → Option RestartRecord
  | .restarting r => some r
  | .dry | .casting | .held | .halted _ | .offline _ => none

/-- Whether the condition is OFFLINE. -/
def Condition.isOffline : Condition → Bool
  | .offline _ => true
  | .dry | .restarting _ | .casting | .held | .halted _ => false

/-- The restart record of strand `k`, if it is RESTARTING. -/
def State.record? (s : State) (k : Strand) : Option RestartRecord := (s.strand k).condition.record?

/-- Whether strand `k` takes plant events: configured, and not OFFLINE (R3, R14). -/
def State.inService (s : State) (k : Strand) : Bool :=
  s.isConfigured k && !(s.strand k).condition.isOffline

/-- Whether a hold flag of the context is set (R7). -/
def StrandContext.anyHold (c : StrandContext) : Bool :=
  c.heldForTundish || c.heldForDip || c.heldByOperator

/-! ### Notice sources -/

/-- The 29 notice sources (R177). -/
inductive Source where
  | tundish
  | power
  | trip
  | store
  | arbiter
  | state (strand : Strand)
  | lock (strand : Strand)
  | fault (strand : Strand)
  deriving DecidableEq, Repr

/-- The number of a source (R177). -/
def Source.number : Source → Fin 29
  | .tundish => 0
  | .power => 1
  | .trip => 2
  | .store => 3
  | .arbiter => 4
  | .state k => ⟨5 + 3 * k.val, by omega⟩
  | .lock k => ⟨6 + 3 * k.val, by omega⟩
  | .fault k => ⟨7 + 3 * k.val, by omega⟩

/-- The source of a number (R177). -/
def Source.ofNumber (n : Fin 29) : Source :=
  if n.val = 0 then .tundish
  else if n.val = 1 then .power
  else if n.val = 2 then .trip
  else if n.val = 3 then .store
  else if n.val = 4 then .arbiter
  else
    let k : Strand := ⟨(n.val - 5) / 3, by omega⟩
    if (n.val - 5) % 3 = 0 then .state k
    else if (n.val - 5) % 3 = 1 then .lock k
    else .fault k

/-- Whether the source is set pending at all: a strand's three sources are not while the strand is above the configured
count (R3, R177). -/
def Source.mayPend (s : State) : Source → Bool
  | .state k | .lock k | .fault k => s.isConfigured k
  | .tundish | .power | .trip | .store | .arbiter => true

/-- The source's notice becomes pending (R177). -/
def pend (src : Source) (s : State) : State :=
  if src.mayPend s then { s with noticePending := s.noticePending.put src.number true } else s

/-! ### The supervisor mode and the lock detector's values in effect -/

/-- The supervisor mode (R115). -/
def UnitState.supervisor (u : UnitState) : Supervision :=
  match u.controlMode with
  | .auto => if u.lock then .track else .acquire
  | .manual => u.manualChoice

/-- Whether the regulator bandwidth output is WIDE (R115). -/
def UnitState.wide (u : UnitState) : Bool := u.supervisor == .acquire

/-- What the LOCK notice is made pending by: a change of LOCK, of the control mode or of the supervisor mode (R113 to
R115). -/
def UnitState.lockView (u : UnitState) : Bool × ControlMode × Supervision :=
  (u.lock, u.controlMode, u.supervisor)

/-- The unlock band in effect (R106). -/
def effectiveUnlockBand (p : LevelParams) : Nat := if p.unlockBand < p.lockBand then p.lockBand else p.unlockBand

/-- The lock count in effect (R106). -/
def effectiveLockCount (p : LevelParams) : Nat := if p.lockCount = 0 then 1 else p.lockCount

/-- The unlock count in effect (R106). -/
def effectiveUnlockCount (p : LevelParams) : Nat := if p.unlockCount = 0 then 1 else p.unlockCount

/-- The magnitude of a sample's error against the target in effect (R111). -/
def errorMagnitude (p : LevelParams) (depth : Nat) : Nat :=
  if depth ≤ p.target then p.target - depth else depth - p.target

/-- Whether the lock detector is active (R110). -/
def detectorActive (p : LevelParams) (u : UnitState) : Bool :=
  u.levelOn && u.controlMode == .auto && p.lockBand != 0

/-- Whether DRAW may be engaged (R107). -/
def drawAllowed (p : LevelParams) (u : UnitState) : Bool := u.levelOn && p.lockBand != 0

/-! ### Accepted levels -/

/-- Whether the line is accepted true; an absent level is not (R159). -/
def Line.isTrue (l : Line) : Bool := l.accepted == some true

/-- Whether the line is accepted false; an absent level is not (R159). -/
def Line.isFalse (l : Line) : Bool := l.accepted == some false

/-- Whether strand `k`'s DRIVE_READY is accepted true. -/
def State.driveReady (s : State) (k : Strand) : Bool := (s.strandLines.look k).driveReady.isTrue

/-- Whether strand `k`'s STEEL_PRESENT is accepted true. -/
def State.steelPresent (s : State) (k : Strand) : Bool := (s.strandLines.look k).steelPresent.isTrue

/-- The lines of a CHECK step's mask that are not accepted true (R58). -/
def missingLines (s : State) (k : Strand) (m : PermissiveMask) : PermissiveMask where
  moldWater := m.moldWater && !(s.strandLines.look k).moldWaterOk.isTrue
  dummyAtMold := m.dummyAtMold && !(s.strandLines.look k).dummyAtMold.isTrue
  hydOk := m.hydOk && !s.casterLines.hydOk.isTrue
  driveReady := m.driveReady && !s.driveReady k

/-- Whether a mask names no line. -/
def maskEmpty (m : PermissiveMask) : Bool :=
  !m.moldWater && !m.dummyAtMold && !m.hydOk && !m.driveReady

/-- Whether the Supply Monitor is SUPPLIED (R19). -/
def State.isSupplied (s : State) : Bool := s.supply.state == .supplied

end Machine
end Sys2Proof
end

