-- ==== Sys2Proof/Machine/Operands.lean ====
section
/-! DEFINITION. The wire's forms of every field: little-endian numbers (R184), the codes of R194, the record layouts of
R195 and R196, the CRC of R184, and the reading of a request's operands. -/

namespace Sys2Proof.Machine

/-! ### Numbers -/

/-- One byte. -/
def u8 (n : Nat) : List Byte := [BitVec.ofNat 8 n]

/-- Two bytes, little-endian (R184). -/
def u16 (n : Nat) : List Byte := [BitVec.ofNat 8 n, BitVec.ofNat 8 (n / 256)]

/-- Four bytes, little-endian (R184). -/
def u32 (n : Nat) : List Byte :=
  [BitVec.ofNat 8 n, BitVec.ofNat 8 (n / 256), BitVec.ofNat 8 (n / 65536), BitVec.ofNat 8 (n / 16777216)]

/-- A two-byte value, 0xFFFF where absent (R194, R197). -/
def optU16 (n : Option Nat) : List Byte := u16 (n.getD 0xFFFF)

/-- A flag: one byte, 1 or 0 (R194). -/
def flag (b : Bool) : List Byte := u8 (if b then 1 else 0)

/-- The half word of two bytes, the first the low one (R184). -/
def half (lo hi : Byte) : Half := hi ++ lo

/-! ### Codes (R194) -/

def conditionCode : ConditionName → Nat
  | .dry => 1
  | .restarting => 2
  | .casting => 3
  | .held => 4
  | .halted => 5
  | .offline => 6

def offlineCode : OfflineReason → Nat
  | .service => 1
  | .unconfigured => 2

def haltCode : HaltCause → Nat
  | .breakout => 1
  | .frozen => 2
  | .fault => 3
  | .driveLost => 4
  | .trip => 5
  | .abort => 6
  | .reset => 7
  | .noPlan => 8

/-- Bit 0 held_for_tundish, bit 1 held_for_dip, bit 2 held_by_operator. -/
def holdFlagsCode (c : StrandContext) : Nat :=
  (if c.heldForTundish then 1 else 0) + (if c.heldForDip then 2 else 0) + (if c.heldByOperator then 4 else 0)

def kindCode : RestartKind → Nat
  | .cold => 1
  | .flying => 2
  | .dip => 3

def actionCode : Action → Nat
  | .check _ => 1
  | .cool _ => 2
  | .drive => 3
  | .opening _ _ _ _ => 4
  | .level _ => 5
  | .wait => 6
  | .draw _ _ _ => 7
  | .handover => 8

/-- Bit 0 MOLD_WATER, bit 1 DUMMY_AT_MOLD, bit 2 HYD_OK, bit 3 DRIVE_READY. -/
def maskCode (m : PermissiveMask) : Nat :=
  (if m.moldWater then 1 else 0) + (if m.dummyAtMold then 2 else 0) + (if m.hydOk then 4 else 0)
    + (if m.driveReady then 8 else 0)

def faultCodeNumber : FaultCode → Nat
  | .breakout => 1
  | .frozen => 2
  | .noFlow => 3
  | .driveTimeout => 4
  | .excluded => 5
  | .stepTimeout => 6
  | .permissive => 7
  | .interlock => 8
  | .lockDisabled => 9
  | .driveLost => 10
  | .trip => 11
  | .abort => 12
  | .resetWithSteel => 13
  | .noPlan => 14

def poolCode : PoolId → Nat
  | .pour => 1
  | .drive => 2

def classCode : PoolClass → Nat
  | .low => 0
  | .high => 1

def policyCode : ParkPolicy → Nat
  | .last => 0
  | .selected => 1

def coordinatorCode : CoordinatorState → Nat
  | .steady => 0
  | .holding => 1
  | .filling => 2
  | .releasing => 3

def supplyCode : SupplyState → Nat
  | .supplied => 0
  | .riding => 1
  | .down => 2
  | .settling => 3

def storeCode : StoreState → Nat
  | .idle => 0
  | .writing _ => 1
  | .failed => 2

def acceptedCode : Option Bool → Nat
  | some false => 0
  | some true => 1
  | none => 0xFF

def markCode : DataMark → Nat
  | .ok => 0
  | .noData => 1

def checkCode : StartUpCheck → Nat
  | .pending => 0
  | .done => 1

def phaseCode : Phase → Nat
  | .noPhase => 0
  | .waiting => 1
  | .slotWait => 2
  | .starting => 3
  | .inrush => 4
  | .preCharge => 5
  | .pouring => 6
  | .retryDwell => 7
  | .filling => 8
  | .locking => 9
  | .dwell => 10
  | .ramping => 11
  | .referenceWait => 12

def responseCode : Response → Nat
  | .off => 0
  | .idle => 1
  | .running _ => 2
  | .answered => 3

def stopperCode : StopperSource → Nat
  | .closed => 0
  | .fill _ => 1
  | .regulator => 2

def speedSourceCode : SpeedSource → Nat
  | .ramp => 0
  | .reference => 1

def controlModeCode : ControlMode → Nat
  | .auto => 1
  | .manual => 2

def supervisionCode : Supervision → Nat
  | .acquire => 1
  | .track => 2

/-- The reply codes (R188). -/
inductive ReplyCode where
  | ok
  | busy
  | unknownKind
  | badField
  | wrongState
  | interlock
  | locked
  | protected_
  | faultPending
  | noPlan
  | notFitted
  | tripped
  | noMaint
  | excluded
  | badPlan
  deriving DecidableEq, Repr

/-- R188. -/
def ReplyCode.byte : ReplyCode → Byte
  | .ok => 0x00
  | .busy => 0x01
  | .unknownKind => 0x02
  | .badField => 0x03
  | .wrongState => 0x04
  | .interlock => 0x05
  | .locked => 0x06
  | .protected_ => 0x07
  | .faultPending => 0x08
  | .noPlan => 0x09
  | .notFitted => 0x0A
  | .tripped => 0x0B
  | .noMaint => 0x0C
  | .excluded => 0x0D
  | .badPlan => 0x0E

/-- The reasons of a BAD_PLAN reply (R32, R33). -/
inductive PlanFault where
  | name
  | kind
  | stepCount
  | action
  | time
  | param
  | openCount
  | levelAfterOpen
  | noDraw
  | handover
  | dipDrive
  | coldCheck
  deriving DecidableEq, Repr

/-- R194. -/
def PlanFault.code : PlanFault → Nat
  | .name => 1
  | .kind => 2
  | .stepCount => 3
  | .action => 4
  | .time => 5
  | .param => 6
  | .openCount => 7
  | .levelAfterOpen => 8
  | .noDraw => 9
  | .handover => 10
  | .dipDrive => 11
  | .coldCheck => 12

/-- The code of a step failure (R56). -/
def failureCode : StepFailure → FaultCode
  | .permissive _ => .permissive
  | .stepTimeout _ => .stepTimeout
  | .excluded _ => .excluded
  | .driveTimeout => .driveTimeout
  | .noFlow _ => .noFlow
  | .lockDisabled => .lockDisabled
  | .interlock => .interlock

/-- The detail of a step failure (R56, R173, R196). -/
def failureDetail : StepFailure → Nat
  | .permissive m => maskCode m
  | .stepTimeout a => actionCode a
  | .excluded p => poolCode p
  | .driveTimeout | .lockDisabled | .interlock => 0
  | .noFlow n => n

/-! ### Record layouts -/

/-- Four zone flows, zones 1 to 4. -/
def zoneBytes (z : Zones) : List Byte := u8 z.z1 ++ u8 z.z2 ++ u8 z.z3 ++ u8 z.z4

/-- The parameter bytes an action uses, in order (R195). -/
def paramBytes : Action → List Byte
  | .check m => u8 (maskCode m)
  | .cool z => zoneBytes z
  | .opening fill startDepth attempts dwell => u8 fill ++ u16 startDepth ++ u8 attempts ++ u8 dwell
  | .level (.plan p) =>
    u8 0 ++ u16 p.target ++ u8 p.lockBand ++ u8 p.unlockBand ++ u8 p.lockCount ++ u8 p.unlockCount
  | .level .strand => u8 1
  | .draw start target rate => u16 start ++ u16 target ++ u8 rate
  | .drive | .wait | .handover => []

/-- Nine parameter bytes, those the action does not use zero (R29, R195). -/
def padTo (n : Nat) (l : List Byte) : List Byte := l ++ List.replicate (n - l.length) 0

/-- A step record of 12 bytes (R195). -/
def stepBytes (p : Step) : List Byte := u8 (actionCode p.action) ++ u16 p.time ++ padTo 9 (paramBytes p.action)

/-- The step records of a step list. -/
def stepsBytes (l : List Step) : List Byte := l.flatMap stepBytes

/-- The fault record of R196; an invalid record is its valid byte alone. -/
def faultBytes : Option FaultRecord → List Byte
  | none => u8 0
  | some f =>
    u8 1 ++ u8 (faultCodeNumber f.code) ++ u8 (conditionCode f.condition)
      ++ u8 (match f.plan with | some p => p.val | none => 0xFF)
      ++ u8 (f.step.getD 0) ++ u32 f.stamp.toNat ++ u16 f.detail ++ flag f.multiple

/-- A plan field of a window, 0xFF for NONE (R194). -/
def planFieldByte (p : Option (Fin 32)) : List Byte := u8 (match p with | some n => n.val | none => 0xFF)

/-- The accepted level and the data mark of a line (R197). -/
def lineBytes (l : Line) : List Byte := u8 (acceptedCode l.accepted) ++ u8 (markCode l.mark)

/-! ### The CRC -/

/-- One bit of the CRC's division by 0x1021. -/
def crcBit (c : Half) : Half := if c.msb then (c <<< 1) ^^^ 0x1021 else c <<< 1

/-- One byte into the CRC, most significant bit first (R184). -/
def crcByte (c : Half) (b : Byte) : Half :=
  crcBit (crcBit (crcBit (crcBit (crcBit (crcBit (crcBit (crcBit (c ^^^ (b ++ (0 : Byte))))))))))

/-- The CRC of R184: polynomial 0x1021, initial value 0xFFFF, no final inversion. -/
def crc (l : List Byte) : Half := l.foldl crcByte 0xFFFF

/-- The bytes of a frame that the CRC covers: length, tag, kind and body (R184). -/
def Frame.covered (f : Frame) : List Byte := u16 f.body.length ++ [f.tag, f.kind] ++ f.body

/-- A frame on the line (R184). -/
def Frame.wire (f : Frame) : List Byte := [Config.sync] ++ f.covered ++ u16 (crc f.covered).toNat

/-! ### Reading a request's operands -/

/-- The class a byte spells (R194). -/
def readClass (b : Byte) : Option PoolClass :=
  if b = 0 then some .low else if b = 1 then some .high else none

/-- The pool a byte spells (R194). -/
def readPool (b : Byte) : Option PoolId :=
  if b = 1 then some .pour else if b = 2 then some .drive else none

/-- The restart kind a byte spells (R194). -/
def readKind (b : Byte) : Option RestartKind :=
  if b = 1 then some .cold else if b = 2 then some .flying else if b = 3 then some .dip else none

/-- The plan field a byte spells: 0 to 31, or 0xFF for NONE (R44, R194). -/
def readPlanField (b : Byte) : Option (Option (Fin 32)) :=
  if h : b.toNat < 32 then some (some ⟨b.toNat, h⟩) else if b = 0xFF then some none else none

/-- Four zone flows from four bytes. -/
def readZones (b : Tab 4 Byte) : Zones :=
  ⟨(b.look 0).toNat, (b.look 1).toNat, (b.look 2).toNat, (b.look 3).toNat⟩

/-- The level parameter set of STRAND SETTINGS (R193). -/
def bodyLevels (b : StrandBody) : LevelParams :=
  ⟨b.target.toNat, b.lockBand.toNat, b.unlockBand.toNat, b.lockCount.toNat, b.unlockCount.toNat⟩

end Sys2Proof.Machine
end

