-- ==== Sys2Proof/Machine/Settings.lean ====
section
/-! DEFINITION. The ranges of every setting (R2, R28 to R30, R42, R80, R105, R125, R142, R160, R168, R177, R191), the
validation of a plan (R32, R33), the lookup (R47), the snapshot (R49), and the loading of the settings image (R198). -/

namespace Sys2Proof.Machine

/-! ### Ranges -/

/-- Four zone flows of 0 to 100 %. -/
def zonesInRange (z : Zones) : Bool := z.z1 ≤ 100 && z.z2 ≤ 100 && z.z3 ≤ 100 && z.z4 ≤ 100

/-- R105. -/
def levelInRange (p : LevelParams) : Bool :=
  p.target ≤ 300 && p.lockBand ≤ 50 && p.unlockBand ≤ 50 && p.lockCount ≤ 255 && p.unlockCount ≤ 255

/-- R30. -/
def actionInRange : Action → Bool
  | .check m => !maskEmpty m
  | .cool z => zonesInRange z
  | .opening fill startDepth attempts dwell =>
    5 ≤ fill && fill ≤ 100 && startDepth ≤ 300 && 1 ≤ attempts && attempts ≤ 4 && 1 ≤ dwell && dwell ≤ 255
  | .level (.plan p) => levelInRange p
  | .level .strand => true
  | .draw start target rate => start ≤ 600 && target ≤ 600 && 1 ≤ rate && rate ≤ 100
  | .drive | .wait | .handover => true

/-- A step's time field is 1 to 36000 (R29). -/
def timeInRange (t : Nat) : Bool := 1 ≤ t && t ≤ 36000

/-- A step's fields lie in their ranges (R29, R30). -/
def stepInRange (p : Step) : Bool := timeInRange p.time && actionInRange p.action

/-- A name of 1 to 12 printable ASCII characters (R28). -/
def nameInRange (n : List Byte) : Bool :=
  1 ≤ n.length && n.length ≤ 12 && n.all fun c => 0x20 ≤ c.toNat && c.toNat ≤ 0x7E

/-- A plan's fields lie in their ranges (R28 to R30). -/
def planInRange (p : Plan) : Bool :=
  nameInRange p.name && 1 ≤ p.steps.length && p.steps.length ≤ 24 && p.steps.all stepInRange

/-- R2. -/
def strandInRange (p : StrandSettings) : Bool :=
  p.grade ≤ 65535 && 30 ≤ p.freezeLimit && p.freezeLimit ≤ 1200 && zonesInRange p.holdCooling
    && zonesInRange p.breakoutCooling

/-- A window's base is a whole multiple of 2 to the power of its size exponent (R43). -/
def aligned (base sizeExp : Nat) : Bool := base % 2 ^ sizeExp == 0

/-- R42. -/
def windowInRange (w : GradeWindow) : Bool := w.base ≤ 65535 && w.sizeExp ≤ 12 && aligned w.base w.sizeExp

/-- R80, POUR. -/
def pourInRange (p : PourSettings) : Bool :=
  1 ≤ p.capacity && p.capacity ≤ 3 && 1 ≤ p.responseTime && p.responseTime ≤ 60 && 5 ≤ p.riseThreshold
    && p.riseThreshold ≤ 100 && p.preCharge ≤ 10000

/-- R80, DRIVE. -/
def driveInRange (p : DriveSettings) : Bool :=
  1 ≤ p.capacity && p.capacity ≤ 4 && 1 ≤ p.responseTime && p.responseTime ≤ 30 && p.inrushHold ≤ 5000

/-- A class sample period (R160). -/
def periodInRange (n : Nat) : Bool := n == 1 || n == 2 || n == 4 || n == 8 || n == 16

/-- R191. -/
def casterInRange (p : CasterSettings) : Bool :=
  1 ≤ p.strandCount && p.strandCount ≤ 8 && 1 ≤ p.openThreshold && p.openThreshold ≤ 800 && p.lowThreshold ≤ 800
    && 20 ≤ p.rideThrough && p.rideThrough ≤ 1000 && p.settle ≤ 30 && periodInRange p.periodA
    && periodInRange p.periodB && 10 ≤ p.measurement && p.measurement ≤ 200

/-- A plan slot's contents lie in their ranges; an EMPTY slot has none. -/
def slotInRange : Option Plan → Bool
  | none => true
  | some p => planInRange p

/-- Every setting lies in its range (R198). -/
def settingsInRange (w : Settings) : Bool :=
  casterInRange w.caster && w.strands.every strandInRange && w.levels.every levelInRange && w.plans.every slotInRange
    && w.windows.every windowInRange && pourInRange w.pour && driveInRange w.drive && w.noticeLevels.every (· ≤ 7)

/-! ### The settings image -/

/-- What start-up takes from the image: the working copy and the defaulted flag (R198). -/
def loadImage : Image → Settings × Bool
  | .holds w true => if settingsInRange w then (w, false) else (Config.defaultSettings, true)
  | .holds _ false => (Config.defaultSettings, true)
  | .unreadable => (Config.defaultSettings, true)

/-- The image a reset leaves that cuts a write off: its CRC was not yet written (R199). -/
def unfinishedImage : Image → Image
  | .holds w _ => .holds w false
  | .unreadable => .unreadable

/-- Whether the image read back agrees with the capture (R199): the same settings, and a CRC that matches (log 31). -/
def imageAgrees (i : Image) (capture : Settings) : Bool := i == .holds capture true

/-! ### Plan validation -/

/-- The action a step record spells, or the reason it does not: ACTION for an action byte outside the eight, PARAM for a
parameter outside its range (R30, R32). An unused parameter byte is ignored (R29). -/
def readAction (r : RawStep) : Except PlanFault Action :=
  let b (i : Fin 9) : Nat := (r.params.look i).toNat
  let h (i j : Fin 9) : Nat := b i + 256 * b j
  let ranged (a : Action) : Except PlanFault Action := if actionInRange a then .ok a else .error .param
  match r.action.toNat with
  | 1 =>
    if b 0 < 16 then
      ranged (.check ⟨(r.params.look 0).getLsbD 0, (r.params.look 0).getLsbD 1, (r.params.look 0).getLsbD 2,
        (r.params.look 0).getLsbD 3⟩)
    else .error .param
  | 2 => ranged (.cool ⟨b 0, b 1, b 2, b 3⟩)
  | 3 => .ok .drive
  | 4 => ranged (.opening (b 0) (h 1 2) (b 3) (b 4))
  | 5 =>
    if b 0 = 0 then ranged (.level (.plan ⟨h 1 2, b 3, b 4, b 5, b 6⟩))
    else if b 0 = 1 then
      if h 1 2 = 0 ∧ b 3 = 0 ∧ b 4 = 0 ∧ b 5 = 0 ∧ b 6 = 0 then .ok (.level .strand) else .error .param
    else .error .param
  | 6 => .ok .wait
  | 7 => ranged (.draw (h 0 1) (h 2 3) (b 4))
  | 8 => .ok .handover
  | _ => .error .action

/-- A step's checks in the order ACTION, TIME, PARAM (R32). -/
def readStep (r : RawStep) : Except PlanFault Step :=
  match readAction r with
  | .error .action => .error .action
  | .error f => if timeInRange r.time.toNat then .error f else .error .time
  | .ok a => if timeInRange r.time.toNat then .ok ⟨a, r.time.toNat⟩ else .error .time

/-- The steps, each checked in step order, with the index of the first that fails; `at_` is the first one's index. -/
def readSteps (at_ : Nat) : List RawStep → Except (Nat × PlanFault) (List Step)
  | [] => .ok []
  | r :: rest =>
    match readStep r with
    | .error f => .error (at_, f)
    | .ok p =>
      match readSteps (at_ + 1) rest with
      | .error e => .error e
      | .ok l => .ok (p :: l)

/-- Which of the eight actions an action is. -/
def isOpenAction : Action → Bool
  | .opening _ _ _ _ => true
  | _ => false
def isLevelAction : Action → Bool
  | .level _ => true
  | _ => false
def isDrawAction : Action → Bool
  | .draw _ _ _ => true
  | _ => false
def isHandoverAction : Action → Bool
  | .handover => true
  | _ => false
def isDriveAction : Action → Bool
  | .drive => true
  | _ => false

/-- A CHECK whose mask includes DUMMY_AT_MOLD. -/
def checksDummy : Action → Bool
  | .check m => m.dummyAtMold
  | _ => false

/-- The indices, from 1, of the steps whose action satisfies `q`. -/
def indicesOf (q : Action → Bool) (steps : List Step) : List Nat :=
  (List.range steps.length).filterMap fun i =>
    match steps[i]? with
    | some p => if q p.action then some (i + 1) else none
    | none => none

/-- Whether some step with an index in the list is before index `o`. -/
def anyBefore (o : Nat) (l : List Nat) : Bool := l.any (· < o)

/-- The structural checks, in the order of R33; `none` when all pass. -/
def structureFault (kind : RestartKind) (steps : List Step) : Option (Nat × PlanFault) :=
  let n := steps.length
  match indicesOf isOpenAction steps with
  | [] => some (0, .openCount)
  | _ :: second :: _ => some (second, .openCount)
  | [o] =>
    if o = n then some (o, .levelAfterOpen)
    else if o + 1 ∉ indicesOf isLevelAction steps then some (o + 1, .levelAfterOpen)
    else if (indicesOf isDrawAction steps).all (· ≤ o + 1) then some (o + 1, .noDraw)
    else
      match indicesOf isHandoverAction steps with
      | [] => some (n, .handover)
      | hs =>
        match hs.find? (· ≠ n) with
        | some h => some (h, .handover)
        | none =>
          if kind = .dip ∧ anyBefore o (indicesOf isDriveAction steps) = false then some (o, .dipDrive)
          else if kind = .cold ∧ anyBefore o (indicesOf checksDummy steps) = false then some (o, .coldCheck)
          else none

/-- Validation of a plan record (R32, R33): the plan it spells, or the step index and the reason of the first failure. -/
def readPlan (p : RawPlan) : Except (Nat × PlanFault) Plan :=
  if nameInRange p.name = false then .error (0, .name)
  else
    match readKind p.kind with
    | none => .error (0, .kind)
    | some kind =>
      if p.steps.length = 0 ∨ 24 < p.steps.length then .error (0, .stepCount)
      else
        match readSteps 1 p.steps with
        | .error e => .error e
        | .ok steps =>
          match structureFault kind steps with
          | some e => .error e
          | none => .ok ⟨p.name, kind, steps⟩

/-! ### Banks, lookup and snapshot -/

/-- The bank of a slot: bank b holds slots 8b to 8b+7 (R27). -/
def bankOf (n : Fin 32) : Fin 4 := ⟨n.val / 8, by omega⟩

/-- Whether an enabled window covers the grade code and names the strand (R42, R47). -/
def windowCovers (w : GradeWindow) (grade : Nat) (k : Strand) : Bool :=
  w.enabled && w.base ≤ grade && grade < w.base + 2 ^ w.sizeExp && w.strands.look k

/-- The window's plan field for a restart kind (R47). -/
def windowPlan (w : GradeWindow) : RestartKind → Option (Fin 32)
  | .cold => w.cold
  | .flying => w.flying
  | .dip => w.dip

/-- The plan lookup of R47: the plan's number and the plan, or `none` for NO_PLAN. -/
def lookupPlan (w : Settings) (k : Strand) (kind : RestartKind) : Option (Fin 32 × Plan) :=
  match w.windows.toList.find? (windowCovers · (w.strands.look k).grade k) with
  | none => none
  | some win =>
    match windowPlan win kind with
    | none => none
    | some n =>
      match w.plans.look n with
      | none => none
      | some p => if p.kind = kind then some (n, p) else none

/-- The snapshot of plan `n` (R49). -/
def takeSnapshot (w : Settings) (n : Fin 32) (p : Plan) : Snapshot := ⟨p, (w.banks.look (bankOf n)).read⟩

end Sys2Proof.Machine
end

