-- ==== Sys2Proof/Machine/Ops.lean ====
section
/-! DEFINITION. The named operations over State: a strand's context, its unit, its restart record, its fault record, a
pool; sending an event (log 6); and choosing where the spec leaves an order open (log 4). -/

namespace Sys2Proof.Machine

/-! ### Strands -/

/-- The context of strand `k` changed by `f`. -/
def modStrand (k : Strand) (f : StrandContext → StrandContext) (s : State) : State :=
  { s with strands := s.strands.put k (f (s.strand k)) }

/-- A change of what the STATE notice reports: the notice becomes pending where the field changed (R5). -/
def modReported (k : Strand) (f : StrandContext → StrandContext) (s : State) : State :=
  if f (s.strand k) = s.strand k then s else pend (.state k) (modStrand k f s)

/-- The condition of strand `k` replaced, its other fields kept. -/
def setCondition (k : Strand) (c : Condition) (s : State) : State :=
  modStrand k (fun x => { x with condition := c }) s

/-- The restart record of strand `k`, where it is RESTARTING, changed by `f`. -/
def modRecord (k : Strand) (f : RestartRecord → RestartRecord) (s : State) : State :=
  match s.record? k with
  | some r => setCondition k (.restarting (f r)) s
  | none => s

/-- The current step of a restart record, from its snapshot (R51, R52). -/
def RestartRecord.step? (r : RestartRecord) : Option Step := r.snapshot.plan.steps[r.stepIndex - 1]?

/-- The action of strand `k`'s current step, if it is RESTARTING. -/
def State.action? (s : State) (k : Strand) : Option Action :=
  (s.record? k).bind fun r => r.step?.map (·.action)

/-- Whether a DRIVE step is current on strand `k` (R19), by the current step of the record alone: a DRIVE step that has stopped
counts while its claim is under way (log 32). -/
def State.inDriveStep (s : State) (k : Strand) : Bool := s.action? k == some .drive

/-- The phase of strand `k`'s current step; `noPhase` where it has none. -/
def State.phase (s : State) (k : Strand) : Phase :=
  match s.record? k with
  | some r => r.phase
  | none => .noPhase

/-! ### The Level and Draw Unit's fields -/

/-- The unit's fields of strand `k` changed by `f`. -/
def modUnit (k : Strand) (f : UnitState → UnitState) (s : State) : State :=
  { s with units := s.units.put k (f (s.unit k)) }

/-- One action of the unit on strand `k`: a change of LOCK, of the control mode or of the supervisor mode makes the LOCK
notice pending (R113 to R115). -/
def updUnit (k : Strand) (f : UnitState → UnitState) (s : State) : State :=
  if (f (s.unit k)).lockView = (s.unit k).lockView then modUnit k f s else pend (.lock k) (modUnit k f s)

/-! ### The Fault Log -/

/-- The fault record strand `k` holds after a fault (R172): the first is kept, a later one sets multiple. -/
def faultAfter (k : Strand) (code : FaultCode) (detail : Nat) (s : State) : FaultRecord :=
  match s.faults.look k with
  | some f => { f with multiple := true }
  | none =>
    { code := code
      condition := (s.strand k).condition.name
      plan := (s.record? k).map (·.planNumber)
      step := (s.record? k).map (·.stepIndex)
      stamp := s.now
      detail := detail
      multiple := false }

/-- A fault is written on strand `k`, before the change of condition it causes (R172). -/
def writeFault (k : Strand) (code : FaultCode) (detail : Nat) (s : State) : State :=
  pend (.fault k) { s with faults := s.faults.put k (some (faultAfter k code detail s)) }

/-! ### Pools -/

/-- The pool `p`. -/
def State.pool (s : State) : PoolId → Pool
  | .pour => s.pour
  | .drive => s.drive

/-- The pool `p` replaced. -/
def setPool (p : PoolId) (x : Pool) (s : State) : State :=
  match p with
  | .pour => { s with pour := x }
  | .drive => { s with drive := x }

/-- The pool `p` changed by `f`. -/
def modPool (p : PoolId) (f : Pool → Pool) (s : State) : State := setPool p (f (s.pool p)) s

/-- The capacity of pool `p` (R80). -/
def capacity (s : State) : PoolId → Nat
  | .pour => s.working.pour.capacity
  | .drive => s.working.drive.capacity

/-- The response monitor of pool `p` (R80). -/
def monitorOn (s : State) : PoolId → Bool
  | .pour => s.working.pour.monitor
  | .drive => s.working.drive.monitor

/-- The response time of pool `p` in ms (R80). -/
def responseTime (s : State) : PoolId → Nat
  | .pour => s.working.pour.responseTime * 1000
  | .drive => s.working.drive.responseTime * 1000

/-- The class of strand `k` for pool `p` (R2). -/
def classFor (s : State) (k : Strand) : PoolId → PoolClass
  | .pour => (s.settingsOf k).pourClass
  | .drive => (s.settingsOf k).driveClass

/-- The grant record of strand `k` in a pool, if it holds a slot. -/
def Pool.grant? (p : Pool) (k : Strand) : Option Grant := p.holders.look k

/-- Whether strand `k` holds a slot. -/
def Pool.holds (p : Pool) (k : Strand) : Bool := (p.grant? k).isSome

/-- The number of strands in the holder set. -/
def Pool.holderCount (p : Pool) : Nat := (allStrands.filter p.holds).length

/-- The holder set as a set of strands. -/
def Pool.holderSet (p : Pool) : StrandSet := Vector.ofFn p.holds

/-- Whether the pool has any holder or any wait entry (R101, R102). -/
def Pool.inUse (p : Pool) : Bool := p.holderCount != 0 || !p.waits.isEmpty

/-- Whether strand `k` stands in the wait list. -/
def Pool.waiting (p : Pool) (k : Strand) : Bool := p.waits.any (·.strand == k)

/-- The grant record of strand `k` in pool `p`, where it has one, changed by `f`. -/
def modGrant (p : PoolId) (k : Strand) (f : Grant → Grant) (s : State) : State :=
  match (s.pool p).grant? k with
  | some g => modPool p (fun x => { x with holders := x.holders.put k (some (f g)) }) s
  | none => s

/-! ### Events under way -/

/-- The event `i` is sent: it is under way until the step that takes it (log 6). -/
def emit (i : Instr) (s : State) : State := { s with inFlight := s.inFlight ++ [i] }

/-- The events of `l` are sent, in that order. -/
def emitAll (l : List Instr) (s : State) : State := { s with inFlight := s.inFlight ++ l }

/-! ### Orders the spec leaves open -/

/-- A place in a list of `n` places, chosen freely (log 4). With one place there is nothing to choose. -/
def freeIndex (n : Nat) (s : State) : Nat × State :=
  if n ≤ 1 then (0, s) else (Config.freeChoice s.choices % n, { s with choices := s.choices + 1 })

/-- `f` taken for each strand of `l`, in an order chosen freely (log 4); the first argument bounds the takings. -/
def inOpenOrder (f : Strand → State → State) : Nat → List Strand → State → State
  | 0, _, s => s
  | _ + 1, [], s => s
  | n + 1, l, s =>
    let c := freeIndex l.length s
    match l[c.1]? with
    | some k => inOpenOrder f n (l.eraseIdx c.1) (f k c.2)
    | none => c.2

/-- `f` taken for every configured strand, in order of strand number (R15, R20). -/
def forConfigured (f : Strand → State → State) (s : State) : State :=
  allStrands.foldl (fun t k => if t.isConfigured k then f k t else t) s

end Sys2Proof.Machine
end

