-- ==== Sys2Proof/Machine/Unit.lean ====
section
/-! DEFINITION. The Level and Draw Unit (chapter 5): the engagements, the condition claims, the lock detector, the modes,
the stopper source, the ramp, the samples it takes, and the nine field outputs. -/

namespace Sys2Proof.Machine

/-! ### Engagements and condition claims -/

/-- LOCK cleared and both counts at 0 (R113). -/
def UnitState.clearLock (u : UnitState) : UnitState := { u with lock := false, inCount := 0, outCount := 0 }

/-- Disengaging DRAW (R108). -/
def UnitState.disengageDraw (u : UnitState) : UnitState :=
  { u with draw := false, ramp := none, speedSource := .ramp, setpoint := 0 }

/-- Turning LEVEL-ON off (R108). -/
def UnitState.levelOff (u : UnitState) : UnitState :=
  { u.clearLock with
    levelOn := false
    stopper := match u.stopper with
      | .regulator => .closed
      | .closed => .closed
      | .fill n => .fill n }

/-- Turning LEVEL-ON on, or leaving it on (R70, R108): the stopper passes to the regulator unless an OPEN step governs
it. -/
def UnitState.turnLevelOn (u : UnitState) : UnitState :=
  { (if u.levelOn then u else u.clearLock) with
    levelOn := true
    stopper := match u.stopper with
      | .fill n => .fill n
      | .closed => .regulator
      | .regulator => .regulator }

/-- A condition claim (R109): DRAW disengaged, LEVEL-ON off, drive run kept or off, stopper closed, cooling `z`. -/
def UnitState.rest (keepDrive : Bool) (z : Zones) (u : UnitState) : UnitState :=
  { u.disengageDraw.levelOff with
    driveRun := keepDrive && u.driveRun
    stopper := .closed
    cooling := z }

/-- Zero in each zone. -/
def zeroZones : Zones := ⟨0, 0, 0, 0⟩

/-! ### Modes -/

/-- The control mode becomes `m` (R114). A change clears LOCK and both counts (R113). -/
def UnitState.setMode (m : ControlMode) (u : UnitState) : UnitState :=
  if u.controlMode = m then u else { u.clearLock with controlMode := m }

/-- The manual choice becomes `c` (R114). -/
def UnitState.setChoice (c : Supervision) (u : UnitState) : UnitState := { u with manualChoice := c }

/-! ### The stopper -/

/-- The fill opening comes into force (R66, R116). -/
def UnitState.openStopper (n : Nat) (u : UnitState) : UnitState := { u with stopper := .fill n }

/-- The fill opening goes out of force, and the source is decided again (R116). -/
def UnitState.endFill (u : UnitState) : UnitState :=
  match u.stopper with
  | .fill _ => { u with stopper := if u.levelOn then .regulator else .closed }
  | .closed => u
  | .regulator => u

/-! ### Withdrawal -/

/-- Drive run turned on (R61, R117). -/
def UnitState.runDrive (u : UnitState) : UnitState := { u with driveRun := true }

/-- Drive run turned off (R109, dip claim on a HELD strand). -/
def UnitState.stopDrive (u : UnitState) : UnitState := { u with driveRun := false }

/-- A ramp from the setpoint as it stands (R118, R119); absent at once where the target is reached. -/
def UnitState.giveRamp (target rate : Nat) (u : UnitState) : UnitState :=
  { u with ramp := if u.setpoint = target then none else some ⟨u.setpoint, target, rate, 0⟩ }

/-- Engaging DRAW (R73, R118). -/
def UnitState.engageDraw (start target rate : Nat) (u : UnitState) : UnitState :=
  UnitState.giveRamp target rate
    { u with draw := true, driveRun := true, setpoint := start, speedSource := .ramp }

/-- The ramp stops where it stands (R76). -/
def UnitState.stopRamp (u : UnitState) : UnitState := { u with ramp := none }

/-- The ramp reaches its target (R119). -/
def UnitState.reachTarget (u : UnitState) : UnitState :=
  match u.ramp with
  | some r => { u with setpoint := r.target, ramp := none }
  | none => u

/-- The difference between two speeds. -/
def speedGap (a b : Nat) : Nat := if a ≤ b then b - a else a - b

/-- Whether a ramp has run the time it takes (R74, R119). -/
def Ramp.due (r : Ramp) : Bool := 1000 * speedGap r.start r.target ≤ r.rate * r.elapsed

/-- The setpoint of a ramp under way, rounded toward the value it started from (R119). -/
def Ramp.setpoint (r : Ramp) : Nat :=
  if r.start ≤ r.target then r.start + r.rate * r.elapsed / 1000 else r.start - r.rate * r.elapsed / 1000

/-- A millisecond of the ramp (R119, log 21). -/
def UnitState.tickRamp (u : UnitState) : UnitState :=
  match u.ramp with
  | none => u
  | some r =>
    let r' := { r with elapsed := r.elapsed + 1 }
    { u with ramp := some r', setpoint := if r'.due then u.setpoint else r'.setpoint }

/-- A speed reference sample at the unit (R120). -/
def UnitState.takeReference (v : Nat) (u : UnitState) : UnitState :=
  { u with
    lastReference := some v
    setpoint := match u.speedSource with
      | .reference => v
      | .ramp => u.setpoint }

/-- The speed source switched to the reference (R120). -/
def UnitState.followReference (v : Nat) (u : UnitState) : UnitState :=
  { u with speedSource := .reference, setpoint := v }

/-! ### The lock detector -/

/-- A valid sample sets last depth (R110). -/
def UnitState.noteDepth (sample : Sample) (u : UnitState) : UnitState :=
  match sample with
  | .valid d => { u with lastDepth := some d }
  | .invalid => u

/-- Whether a sample is valid with its error's magnitude at or below `band` (R111, R112). -/
def withinBand (p : LevelParams) (band : Nat) : Sample → Bool
  | .valid d => errorMagnitude p d ≤ band
  | .invalid => false

/-- The detector takes a sample with LOCK clear (R111). -/
def UnitState.seekLock (p : LevelParams) (sample : Sample) (u : UnitState) : UnitState :=
  if withinBand p p.lockBand sample then
    if effectiveLockCount p ≤ u.inCount + 1 then { u with lock := true, inCount := 0, outCount := 0 }
    else { u with inCount := u.inCount + 1 }
  else { u with inCount := 0 }

/-- The detector takes a sample with LOCK set (R112). -/
def UnitState.keepLock (p : LevelParams) (sample : Sample) (u : UnitState) : UnitState :=
  if withinBand p (effectiveUnlockBand p) sample then { u with outCount := 0 }
  else if effectiveUnlockCount p ≤ u.outCount + 1 then u.clearLock
  else { u with outCount := u.outCount + 1 }

/-- A mold depth sample at the unit (R110 to R112). -/
def UnitState.takeDepth (p : LevelParams) (sample : Sample) (u : UnitState) : UnitState :=
  let v := u.noteDepth sample
  if detectorActive p v then (if v.lock then v.keepLock p sample else v.seekLock p sample) else v

/-! ### The level parameter set -/

/-- A LEVEL step with source PLAN writes the strand's level parameter set (R70, R105). -/
def writeLevelSet (k : Strand) (p : LevelParams) (s : State) : State :=
  let s' := { s with working := { s.working with levels := s.working.levels.put k p } }
  if (s.unit k).levelOn then updUnit k UnitState.clearLock s' else s'

/-! ### Field outputs (section 5.11) -/

/-- The stopper command output (R116). -/
inductive StopperOutput where
  | opening (percent : Nat)
  | released
  deriving DecidableEq, Repr

/-- The nine outputs of a strand. -/
structure FieldOutputs where
  stopper : StopperOutput
  regulatorEnable : Bool
  wide : Bool
  driveRun : Bool
  setpoint : Nat
  cooling : Zones
  deriving DecidableEq, Repr

/-- The field outputs of strand `k` (section 5.11). -/
def State.outputs (s : State) (k : Strand) : FieldOutputs where
  stopper := match (s.unit k).stopper with
    | .closed => .opening 0
    | .fill n => .opening n
    | .regulator => .released
  regulatorEnable := (s.unit k).levelOn
  wide := (s.unit k).wide
  driveRun := (s.unit k).driveRun
  setpoint := (s.unit k).setpoint
  cooling := (s.unit k).cooling

end Sys2Proof.Machine
end

