-- ==== Sys2Proof/Machine/Clock.lean ====
section
/-! DEFINITION. The part's clock, one millisecond at a time (log 8), and the choice among the events under way (log 4, 6):
what the block does when no command waits. -/

namespace Sys2Proof.Machine

/-! ### One millisecond -/

/-- A millisecond of a timer that counts down. -/
def countDown (t : Option Nat) : Option Nat := t.map (· - 1)

/-- A millisecond of a restart record's timers (R51). -/
def RestartRecord.tick (r : RestartRecord) : RestartRecord :=
  { r with stepTimer := countDown r.stepTimer, phaseTimer := countDown r.phaseTimer }

/-- A millisecond of a condition. -/
def Condition.tick : Condition → Condition
  | .restarting r => .restarting r.tick
  | .dry => .dry
  | .casting => .casting
  | .held => .held
  | .halted c => .halted c
  | .offline r => .offline r

/-- A millisecond of a hold timer (R9). -/
def HoldTimer.tick (t : HoldTimer) : HoldTimer := if t.running then { t with elapsed := t.elapsed + 1 } else t

/-- A millisecond of a strand's context. -/
def StrandContext.tick (c : StrandContext) : StrandContext :=
  { c with condition := c.condition.tick, holdTimer := c.holdTimer.tick }

/-- A millisecond of a grant's response timer (R92). -/
def Grant.tick (g : Grant) : Grant :=
  { g with response := match g.response with
      | .running n => .running (n - 1)
      | .off => .off
      | .idle => .idle
      | .answered => .answered }

/-- A millisecond of a pool. -/
def Pool.tick (p : Pool) : Pool := { p with holders := p.holders.map fun g => g.map Grant.tick }

/-- A millisecond of the Supply Monitor's timers (R141). -/
def SupplyMonitor.tick (m : SupplyMonitor) : SupplyMonitor :=
  { m with rideTimer := countDown m.rideTimer, settleTimer := countDown m.settleTimer }

/-- A millisecond of the receiver's gap timer (R185). -/
def Receiver.tick : Receiver → Receiver
  | .hunting => .hunting
  | .assembling bytes gap => .assembling bytes (gap - 1)

/-- A millisecond of the sampling instants (R160, R168). -/
def Instants.tick (i : Instants) : Instants := ⟨i.classA - 1, i.classB - 1, i.measurement - 1⟩

/-- Everything that runs with time has run one millisecond. -/
def advanceClock (s : State) : State :=
  { s with
    now := s.now + 1
    strands := s.strands.map StrandContext.tick
    units := s.units.map UnitState.tickRamp
    pour := s.pour.tick
    drive := s.drive.tick
    supply := s.supply.tick
    receiver := s.receiver.tick
    instants := s.instants.tick }

/-! ### What has fallen due -/

/-- Whether the hold timer has reached the freeze limit (R10). -/
def holdDue (s : State) (k : Strand) : Bool :=
  (s.strand k).holdTimer.running && (s.settingsOf k).freezeLimit * 1000 ≤ (s.strand k).holdTimer.elapsed

/-- Whether the step timer has run out (R55). -/
def stepDue (s : State) (k : Strand) : Bool := (s.record? k).bind (·.stepTimer) == some 0

/-- Whether the phase timer of the phase `ph` has run out (R62, R65, R68). -/
def phaseDue (ph : Phase) (s : State) (k : Strand) : Bool :=
  s.phase k == ph && (s.record? k).bind (·.phaseTimer) == some 0

/-- Whether the response timer of a grant has run out (R94, R96). -/
def responseDue (p : PoolId) (s : State) (k : Strand) : Bool :=
  ((s.pool p).grant? k).map (·.response) == some (.running 0)

/-- Whether the ramp has run its time (R119). -/
def rampDue (s : State) (k : Strand) : Bool :=
  match (s.unit k).ramp with
  | some r => r.due
  | none => false

/-- Whether the gap timer has run out (R185). -/
def gapDue (s : State) : Bool :=
  match s.receiver with
  | .assembling _ 0 => true
  | .assembling _ (_ + 1) | .hunting => false

/-- The events of strand `k`'s timers that have fallen due. -/
def strandDue (s : State) (k : Strand) : List Instr :=
  (if holdDue s k then [.holdTimerExpiry k] else [])
    ++ (if stepDue s k then [.stepTimerExpiry k] else [])
    ++ (if phaseDue .preCharge s k then [.preChargeEnd k] else [])
    ++ (if phaseDue .retryDwell s k then [.retryDwellEnd k] else [])
    ++ (if phaseDue .inrush s k then [.inrushHoldEnd k] else [])
    ++ (if responseDue .pour s k then [.pourResponseExpiry k] else [])
    ++ (if responseDue .drive s k then [.driveResponseExpiry k] else [])
    ++ (if rampDue s k then [.rampTargetReached k] else [])

/-- The caster-wide events that have fallen due; the TRIP line is sampled every millisecond (R154), the first time one millisecond
after start-up (log 7). -/
def casterDue (s : State) : List Instr :=
  (if s.supply.rideTimer = some 0 then [.rideThroughExpiry] else [])
    ++ (if s.supply.settleTimer = some 0 then [.settleExpiry] else [])
    ++ (if gapDue s then [.gapTimerExpiry] else [])
    ++ (if s.instants.classA = 0 then [.filterSample (.classA s.port.classA)] else [])
    ++ (if s.instants.classB = 0 then [.filterSample (.classB s.port.classB)] else [])
    ++ (if s.instants.measurement = 0 then [.measurementInstant s.port.channels] else [])
    ++ [.tripSample s.port.trip]

/-- One millisecond passes, and what has fallen due is under way (log 8). -/
def tick (s : State) : State :=
  let t := advanceClock s
  emitAll (allStrands.flatMap (strandDue t) ++ casterDue t) t

/-! ### Taking an event under way -/

/-- Whether an event under way still stands: a timer's event does not occur once the timer was cancelled or started anew,
nor a sampling instant once it was moved (R10, R69, R152, R166, R168; log 28). The part's own TRIP sample stands whatever
came before it (log 30). -/
def stillDue (s : State) : Instr → Bool
  | .holdTimerExpiry k => holdDue s k
  | .stepTimerExpiry k => stepDue s k
  | .preChargeEnd k => phaseDue .preCharge s k
  | .retryDwellEnd k => phaseDue .retryDwell s k
  | .inrushHoldEnd k => phaseDue .inrush s k
  | .pourResponseExpiry k => responseDue .pour s k
  | .driveResponseExpiry k => responseDue .drive s k
  | .rampTargetReached k => rampDue s k
  | .rideThroughExpiry => s.supply.rideTimer == some 0
  | .settleExpiry => s.supply.settleTimer == some 0
  | .gapTimerExpiry => gapDue s
  | .filterSample (.classA _) => s.instants.classA == 0
  | .filterSample (.classB _) => s.instants.classB == 0
  | .measurementInstant _ => s.instants.measurement == 0
  | _ => true

/-- Events of one stream keep their order; those of different streams have none (R164, R169). A stream is a line, a channel's
consumer, a timer, a strand's claims. -/
def stream : Instr → Nat
  | .filterSample (.classA _) => 0
  | .filterSample (.classB _) => 1
  | .measurementInstant _ => 2
  | .tripSample _ => 3
  | .supplyOkFirstLevel _ _ | .supplyOkFall _ | .supplyOkRise _ => 4
  | .tcRequestRise => 5
  | .tundishInPlaceRise => 6
  | .weightSample _ => 7
  | .rideThroughExpiry => 8
  | .settleExpiry => 9
  | .gapTimerExpiry => 10
  | .permissiveLevelChange .hydOk => 11
  | .breakoutAlarmRise k => 32 + k.val
  | .steelPresentFirstLevel k _ => 40 + k.val
  | .driveReadyFall k | .driveReadyRise k => 48 + k.val
  | .permissiveLevelChange (.driveReady k) => 56 + k.val
  | .permissiveLevelChange (.dummyAtMold k) => 64 + k.val
  | .permissiveLevelChange (.moldWaterOk k) => 72 + k.val
  | .depthSampleUnit k _ => 80 + k.val
  | .depthSampleOpenStep k _ => 88 + k.val
  | .speedReferenceSample k _ => 96 + k.val
  | .holdTimerExpiry k => 104 + k.val
  | .stepTimerExpiry k => 112 + k.val
  | .preChargeEnd k | .retryDwellEnd k | .inrushHoldEnd k => 120 + k.val
  | .pourResponseExpiry k => 128 + k.val
  | .driveResponseExpiry k => 136 + k.val
  | .rampTargetReached k => 144 + k.val
  | .stepFailureClaim k _ | .restartCompleteClaim k _ => 152 + k.val
  | _ => 12

/-- The places in `l` of the first event of each stream, `seen` being the streams before it and `i` its first place. -/
def headPlaces (seen : List Nat) (i : Nat) : List Instr → List Nat
  | [] => []
  | e :: rest =>
    if stream e ∈ seen then headPlaces seen (i + 1) rest else i :: headPlaces (stream e :: seen) (i + 1) rest

/-- The event under way that is taken next, chosen freely among the first of each stream (log 4), and the state it is taken
in; `none` where no event is under way. -/
def nextEvent (s : State) : Option Instr × State :=
  let places := headPlaces [] 0 s.inFlight
  let c := freeIndex places.length s
  match places[c.1]? with
  | none => (none, s)
  | some i => (s.inFlight[i]?, { c.2 with inFlight := s.inFlight.eraseIdx i })

/-- What the block does with no command waiting (log 6, 8): the event to take and the state to take it in; or `none` and the
state after a millisecond, or after an event that no longer stands. -/
def idle (s : State) : Option Instr × State :=
  match nextEvent s with
  | (some e, t) => if stillDue t e then (some e, t) else (none, t)
  | (none, _) => (none, tick s)

end Sys2Proof.Machine
end

