-- ==== Sys2Proof/Machine/Filter.lean ====
section
/-! DEFINITION. The Input Filter (chapter 8): a line's sample and acceptance, the deliveries, a changed period, and the
marking and routing of measurement samples. -/

namespace Sys2Proof.Machine

/-! ### A line's sample -/

/-- A sample of a line (R161, R162). -/
def Line.sample (p : Presented) (l : Line) : Line :=
  match p with
  | .noData => { l with runLevel := none, runLength := 0, mark := .noData }
  | .level b =>
    let n := if l.runLevel = some b then min 3 (l.runLength + 1) else 1
    { accepted := if n = 3 then some b else l.accepted, runLevel := some b, runLength := n, mark := .ok }

/-- What a sample brought the rest of the part (R163, R164). -/
inductive News where
  | nothing
  | first (level : Bool)
  | edge (level : Bool)
  deriving DecidableEq, Repr

/-- What the passage from `old` to `new` brings (R163, R164). -/
def lineNews (old new : Line) : News :=
  match old.accepted, new.accepted with
  | none, some b => .first b
  | some a, some b => if a = b then .nothing else .edge b
  | _, none => .nothing

/-- The runs of a line lost at a change of its class's period (R166). -/
def Line.clearRun (l : Line) : Line := { l with runLevel := none, runLength := 0 }

/-! ### Deliveries (R163, R164) -/

def newsBreakout (k : Strand) : News → List Instr
  | .first true | .edge true => [.breakoutAlarmRise k]
  | .first false | .edge false | .nothing => []

def newsDriveReady (k : Strand) : News → List Instr
  | .first _ => [.permissiveLevelChange (.driveReady k)]
  | .edge true => [.driveReadyRise k, .permissiveLevelChange (.driveReady k)]
  | .edge false => [.driveReadyFall k, .permissiveLevelChange (.driveReady k)]
  | .nothing => []

def newsPermissive (line : PermissiveLine) : News → List Instr
  | .first _ | .edge _ => [.permissiveLevelChange line]
  | .nothing => []

def newsSteel (k : Strand) : News → List Instr
  | .first b => [.steelPresentFirstLevel k b]
  | .edge _ | .nothing => []

def newsSupply (now : Stamp) : News → List Instr
  | .first b => [.supplyOkFirstLevel b now]
  | .edge true => [.supplyOkRise now]
  | .edge false => [.supplyOkFall now]
  | .nothing => []

def newsTcRequest : News → List Instr
  | .edge true => [.tcRequestRise]
  | .edge false | .first _ | .nothing => []

def newsTundish : News → List Instr
  | .edge true => [.tundishInPlaceRise]
  | .edge false | .first _ | .nothing => []

/-! ### A class instant -/

/-- A strand's five lines after a class A instant. -/
def sampleStrandA (p : Presented) (l : StrandLines) : StrandLines :=
  { l with breakoutAlarm := l.breakoutAlarm.sample p }

/-- A strand's five lines after a class B instant. -/
def sampleStrandB (p : StrandClassB) (l : StrandLines) : StrandLines :=
  { l with
    driveReady := l.driveReady.sample p.driveReady
    dummyAtMold := l.dummyAtMold.sample p.dummyAtMold
    steelPresent := l.steelPresent.sample p.steelPresent
    moldWaterOk := l.moldWaterOk.sample p.moldWaterOk }

/-- The caster-wide lines after a class A instant. -/
def sampleCasterA (p : ClassALevels) (l : CasterLines) : CasterLines :=
  { l with supplyOk := l.supplyOk.sample p.supplyOk }

/-- The caster-wide lines after a class B instant. -/
def sampleCasterB (p : ClassBLevels) (l : CasterLines) : CasterLines :=
  { l with
    tcRequest := l.tcRequest.sample p.tcRequest
    tundishInPlace := l.tundishInPlace.sample p.tundishInPlace
    hydOk := l.hydOk.sample p.hydOk
    maint := l.maint.sample p.maint }

/-- What a strand's lines deliver. -/
def strandNews (k : Strand) (old new : StrandLines) : List Instr :=
  newsBreakout k (lineNews old.breakoutAlarm new.breakoutAlarm)
    ++ newsDriveReady k (lineNews old.driveReady new.driveReady)
    ++ newsPermissive (.dummyAtMold k) (lineNews old.dummyAtMold new.dummyAtMold)
    ++ newsSteel k (lineNews old.steelPresent new.steelPresent)
    ++ newsPermissive (.moldWaterOk k) (lineNews old.moldWaterOk new.moldWaterOk)

/-- What the caster-wide lines deliver; MAINT delivers nothing (R164). -/
def casterNews (now : Stamp) (old new : CasterLines) : List Instr :=
  newsSupply now (lineNews old.supplyOk new.supplyOk)
    ++ newsTcRequest (lineNews old.tcRequest new.tcRequest)
    ++ newsTundish (lineNews old.tundishInPlace new.tundishInPlace)
    ++ newsPermissive .hydOk (lineNews old.hydOk new.hydOk)

/-- Every delivery of one instant. -/
def allNews (now : Stamp) (oldS newS : Tab 8 StrandLines) (oldC newC : CasterLines) : List Instr :=
  allStrands.flatMap (fun k => strandNews k (oldS.look k) (newS.look k)) ++ casterNews now oldC newC

/-- The lines taken to `newS` and `newC`, what that brings being sent. -/
def setLines (newS : Tab 8 StrandLines) (newC : CasterLines) (s : State) : State :=
  emitAll (allNews s.now s.strandLines newS s.casterLines newC)
    { s with strandLines := newS, casterLines := newC }

/-- A class A instant (R160, R161). One commanded before the part's own instant counts as that instant (log 28). -/
def takeClassA (p : ClassALevels) (s : State) : State :=
  setLines (Vector.ofFn fun k => sampleStrandA (p.breakoutAlarm.look k) (s.strandLines.look k))
    (sampleCasterA p s.casterLines)
    { s with
      port := { s.port with classA := p }
      instants := { s.instants with classA := s.working.caster.periodA } }

/-- A class B instant (R160, R161). One commanded before the part's own instant counts as that instant (log 28). -/
def takeClassB (p : ClassBLevels) (s : State) : State :=
  setLines (Vector.ofFn fun k => sampleStrandB (p.strands.look k) (s.strandLines.look k))
    (sampleCasterB p s.casterLines)
    { s with
      port := { s.port with classB := p }
      instants := { s.instants with classB := s.working.caster.periodB } }

/-! ### A changed period (R166) -/

/-- Class A takes the period `n`. -/
def changePeriodA (n : Nat) (s : State) : State :=
  { s with
    strandLines := s.strandLines.map fun l => { l with breakoutAlarm := l.breakoutAlarm.clearRun }
    casterLines := { s.casterLines with supplyOk := s.casterLines.supplyOk.clearRun }
    instants := { s.instants with classA := n } }

/-- Class B takes the period `n`. -/
def changePeriodB (n : Nat) (s : State) : State :=
  { s with
    strandLines := s.strandLines.map fun l =>
      { l with
        driveReady := l.driveReady.clearRun
        dummyAtMold := l.dummyAtMold.clearRun
        steelPresent := l.steelPresent.clearRun
        moldWaterOk := l.moldWaterOk.clearRun }
    casterLines :=
      { s.casterLines with
        tcRequest := s.casterLines.tcRequest.clearRun
        tundishInPlace := s.casterLines.tundishInPlace.clearRun
        hydOk := s.casterLines.hydOk.clearRun
        maint := s.casterLines.maint.clearRun }
    instants := { s.instants with classB := n } }

/-! ### Measurement -/

/-- The largest mold depth (R167). -/
def depthLimit : Nat := 300

/-- The largest speed reference (R167). -/
def speedLimit : Nat := 600

/-- The largest tundish weight (R167). -/
def weightLimit : Nat := 800

/-- The sample of a channel: INVALID without an answer or outside the range, whatever mark was presented (R167). -/
def markSample (limit : Nat) : Channel → Sample
  | .noAnswer => .invalid
  | .present v m => if m = true ∧ 0 ≤ v ∧ v ≤ (limit : Int) then .valid v.toNat else .invalid

/-- Whether an OPEN step is current on strand `k` (R169). -/
def State.inOpenStep (s : State) (k : Strand) : Bool :=
  match s.action? k with
  | some (.opening _ _ _ _) => true
  | _ => false

/-- The samples routed for strand `k` (R169): dropped for a strand that is not in service. -/
def routeStrand (p : MeasurementLevels) (s : State) (k : Strand) : List Instr :=
  if s.inService k then
    let d := markSample depthLimit (p.depth.look k)
    .depthSampleUnit k d :: (if s.inOpenStep k then [.depthSampleOpenStep k d] else [])
      ++ [.speedReferenceSample k (markSample speedLimit (p.speed.look k))]
  else []

/-- A measurement instant (R168, R169). One commanded before the part's own instant counts as that instant (log 28). -/
def takeMeasurement (p : MeasurementLevels) (s : State) : State :=
  emitAll (allStrands.flatMap (routeStrand p s) ++ [.weightSample (markSample weightLimit p.weight)])
    { s with
      port := { s.port with channels := p }
      instants := { s.instants with measurement := s.working.caster.measurement } }

end Sys2Proof.Machine
end

