-- ==== Sys2Proof/Machine/Link.lean ====
section
/-! DEFINITION. The Notice Unit (chapter 9) and the Link Port's sending and receiving (chapter 10): composing a notice, the
choice of what is sent, the handling of a request against the reply queue, and the receiver. -/

namespace Sys2Proof.Machine

/-! ### Composing a notice (R179, R196) -/

/-- A strand byte of the wire. -/
def strandByte (k : Strand) : List Byte := u8 k.number

/-- An optional strand, 0 for none. -/
def optStrandByte (k : Option Strand) : List Byte := u8 (match k with | some j => j.number | none => 0)

/-- The qualifier of a STATE notice (R196). -/
def stateQualifier (c : StrandContext) : Nat :=
  match c.condition with
  | .offline r => offlineCode r
  | .halted h => haltCode h
  | .held => holdFlagsCode c
  | .dry | .restarting _ | .casting => 0

/-- The restart kind, plan and step of a STATE notice, absent outside RESTARTING (R196). -/
def restartBytes (c : Condition) : List Byte :=
  match c.record? with
  | some r => u8 (kindCode r.kind) ++ u8 r.planNumber.val ++ u8 r.stepIndex
  | none => u8 0 ++ u8 0xFF ++ u8 0

/-- The contents of a notice after its source number (R179, R196). -/
def noticeContents (s : State) : Source → List Byte
  | .tundish =>
    u8 (coordinatorCode s.coordinator.state) ++ optU16 s.coordinator.lastWeight ++ flag s.coordinator.lowWeight
      ++ [s.coordinator.releaseSet.toByte]
  | .power =>
    u8 (supplyCode s.supply.state) ++ flag s.supply.lastOutage.isSome ++ u32 (s.supply.lastOutage.getD 0).toNat
  | .trip => flag s.trip.armed ++ flag s.trip.latched ++ flag s.trip.line
  | .store => u8 (storeCode s.storeState) ++ flag s.defaulted
  | .arbiter => [s.pour.excluded.toByte, s.drive.excluded.toByte, s.pour.holderSet.toByte, s.drive.holderSet.toByte]
  | .state k =>
    strandByte k ++ u8 (conditionCode (s.strand k).condition.name) ++ u8 (stateQualifier (s.strand k))
      ++ flag (s.strand k).steel ++ restartBytes (s.strand k).condition
  | .lock k =>
    strandByte k ++ flag (s.unit k).lock ++ u8 (controlModeCode (s.unit k).controlMode)
      ++ u8 (supervisionCode (s.unit k).supervisor) ++ optU16 (s.unit k).lastDepth
  | .fault k => strandByte k ++ faultBytes (s.faults.look k)

/-- The notice of a source, composed from the state (R179). -/
def noticeFrame (s : State) (n : Fin 29) : Frame :=
  ⟨0, Config.noticeKind, u8 n.val ++ noticeContents s (Source.ofNumber n)⟩

/-! ### The choice (R178) -/

/-- Whether a source is pending with a level of 1 or more. -/
def eligible (s : State) (n : Fin 29) : Bool :=
  s.noticePending.look n && s.working.noticeLevels.look n != 0

/-- The better of the best source so far and the source `n`, which is numbered above it: the higher level, and the lower
number among equals. -/
def betterSource (s : State) (best : Option (Fin 29)) (n : Fin 29) : Option (Fin 29) :=
  if eligible s n then
    match best with
    | some b => if s.working.noticeLevels.look b < s.working.noticeLevels.look n then some n else some b
    | none => some n
  else best

/-- The source the choice takes. -/
def bestSource (s : State) : Option (Fin 29) := (List.finRange 29).foldl (betterSource s) none

/-- The Notice Unit's choice (R178). It is made once, at the end of a command (log 11). -/
def noticeChoice (s : State) : State :=
  match s.sending with
  | some _ => s
  | none =>
    match s.replies with
    | f :: rest => { s with replies := rest, sending := some f }
    | [] =>
      match bestSource s with
      | some n => { s with noticePending := s.noticePending.put n false, sending := some (noticeFrame s n) }
      | none => s

/-- A command that ends in a next state, with the choice made at its end. -/
def finish (s : State) : Host.Outcome State Fault Refusal := .next (noticeChoice s)

/-! ### Requests -/

/-- What a request does: the state after it, and the body of its reply (R186). -/
abbrev Handler := State → State × List Byte

/-- A reply that carries its code alone. -/
def reply (c : ReplyCode) : List Byte := [c.byte]

/-- A refused request: it changes nothing, and its reply carries the code alone (R186). -/
def refuse (c : ReplyCode) : Handler := fun s => (s, reply c)

/-- An accepted request whose reply carries OK alone. -/
def accept (f : State → State) : Handler := fun s => (f s, reply .ok)

/-- A read: the reply carries OK and the contents; nothing changes. -/
def report (f : State → List Byte) : Handler := fun s => (s, reply .ok ++ f s)

/-- The code of the first check that fails, in order; a check is a pair of its failing and its code. -/
def firstFailure : List (Bool × ReplyCode) → Option ReplyCode
  | [] => none
  | (true, c) :: _ => some c
  | (false, _) :: rest => firstFailure rest

/-- The checks in order, then the handler (R187). -/
def checked (checks : State → List (Bool × ReplyCode)) (h : Handler) : Handler := fun s =>
  match firstFailure (checks s) with
  | some c => refuse c s
  | none => h s

/-- A request that names a strand (R187): number 0 is BAD_FIELD, above the configured count NOT_FITTED. -/
def namingStrand (b : Byte) (h : Strand → Handler) : Handler := fun s =>
  if b = 0 then refuse .badField s
  else if s.configuredCount < b.toNat then refuse .notFitted s
  else if hb : b.toNat - 1 < 8 then h ⟨b.toNat - 1, hb⟩ s
  else refuse .notFitted s

/-- A request that names a strand in service (R187): an OFFLINE strand gives WRONG_STATE. -/
def namingInService (b : Byte) (h : Strand → Handler) : Handler :=
  namingStrand b fun k => checked (fun s => [((s.strand k).condition.isOffline, .wrongState)]) (h k)

/-- A valid request of kind `kind` (R186): discarded at a full reply queue; otherwise handled whole, its reply joining
the queue, and the choice made. -/
def handleRequest (tag kind : Byte) (h : Handler) (s : State) : State :=
  if Config.replyPlaces ≤ s.replies.length then s
  else
    let r := h s
    noticeChoice { r.1 with replies := r.1.replies ++ [⟨tag, kind + 0x80, r.2⟩] }

/-- A request command: the whole frame, received and valid (log 20). -/
def request (tag kind : Byte) (h : Handler) (s : State) : Host.Outcome State Fault Refusal :=
  .next (handleRequest tag kind h s)

/-! ### The receiver (R185) -/

/-- The body length a partial frame states, once both length bytes are in. -/
def statedLength : List Byte → Option Nat
  | lo :: hi :: _ => some (half lo hi).toNat
  | _ => none

/-- What the receiver makes of the bytes taken since SYNC. -/
inductive Assembly where
  | partialFrame
  | discarded
  | complete (tag kind : Byte) (body : List Byte)
  deriving DecidableEq, Repr

/-- The two bytes of the CRC at the end of a frame. -/
def statedCrc : List Byte → Half
  | lo :: hi :: _ => half lo hi
  | _ => 0

/-- The frame of `n` body bytes, once every byte is in: its CRC is checked (R185). -/
def checkFrame (n : Nat) (l : List Byte) : Assembly :=
  if crc (l.take (4 + n)) = statedCrc (l.drop (4 + n)) then
    .complete (l.getD 2 0) (l.getD 3 0) ((l.drop 4).take n)
  else .discarded

/-- The bytes taken since SYNC, judged (R185): length, tag, kind, body and CRC. -/
def assemble (l : List Byte) : Assembly :=
  match statedLength l with
  | none => .partialFrame
  | some n =>
    if Config.maxBody < n then .discarded
    else if l.length < n + 6 then .partialFrame
    else checkFrame n l

end Sys2Proof.Machine
end

