-- ==== Sys2Proof/Machine/Arbiter.lean ====
section
/-! DEFINITION. The Slot Arbiter's own parts (chapter 4): wait lists, grant records, responses, exclusion and parking. The
grant choice itself, which delivers grants to steps, stands in Sequencer.lean. -/

namespace Sys2Proof.Machine

/-- An entry joins the wait list in grant order (R81). -/
def insertEntry (e : WaitEntry) (l : List WaitEntry) : List WaitEntry :=
  match e.cls with
  | .low => l ++ [e]
  | .high => l.takeWhile (·.cls == .high) ++ e :: l.dropWhile (·.cls == .high)

/-- Strand `k`'s entry joins the wait list of pool `p` (R81, R82). -/
def joinWaits (p : PoolId) (k : Strand) (s : State) : State :=
  modPool p (fun x =>
    { x with waits := insertEntry ⟨k, classFor s k p, x.arrivals⟩ x.waits, arrivals := x.arrivals + 1 }) s

/-- The park target (R90). -/
def parkTarget (s : State) : Option Strand :=
  match s.working.pour.policy with
  | .last => s.lastGranted
  | .selected => s.working.pour.selected

/-- The response state at a grant (R92). -/
def responseAtGrant (s : State) : PoolId → Response
  | .pour => if monitorOn s .pour then .idle else .off
  | .drive => if monitorOn s .drive then .running (responseTime s .drive) else .off

/-- The grant record made at a grant (R84). -/
def newGrant (p : PoolId) (k : Strand) (s : State) : Grant where
  time := s.now
  parkMark := match p with
    | .pour => parkTarget s == some k
    | .drive => false
  response := responseAtGrant s p

/-- Strand `k` joins the holder set, the rest of the wait list being `rest`; at POUR last granted becomes it (R84). -/
def makeGrant (p : PoolId) (k : Strand) (rest : List WaitEntry) (s : State) : State :=
  let s' := modPool p (fun x => { x with waits := rest, holders := x.holders.put k (some (newGrant p k s)) }) s
  match p with
  | .pour => { s' with lastGranted := some k }
  | .drive => s'

/-- Strand `k` leaves the holder set of pool `p` with its grant record and response timer (R85, R86). -/
def dropGrant (p : PoolId) (k : Strand) (s : State) : State :=
  modPool p (fun x => { x with holders := x.holders.put k none }) s

/-- Strand `k`'s entry leaves the wait list of pool `p` (R86). -/
def dropEntry (p : PoolId) (k : Strand) (s : State) : State :=
  modPool p (fun x => { x with waits := x.waits.filter (·.strand != k) }) s

/-- The stopper has opened: the POUR response window opens (R93). -/
def openWindow (k : Strand) (s : State) : State :=
  modGrant .pour k (fun g =>
    { g with response := match g.response with
        | .idle => .running (responseTime s .pour)
        | .off => .off
        | .running n => .running n
        | .answered => .answered }) s

/-- The plant has responded: the response timer stops (R93, R95). -/
def answer (p : PoolId) (k : Strand) (s : State) : State :=
  modGrant p k (fun g =>
    { g with response := match g.response with
        | .running _ => .answered
        | .off => .off
        | .idle => .idle
        | .answered => .answered }) s

/-- Whether the response timer of strand `k`'s grant in pool `p` runs (R92). -/
def responseRunning (p : PoolId) (k : Strand) (s : State) : Bool :=
  match (s.pool p).grant? k with
  | some g =>
    match g.response with
    | .running _ => true
    | .off | .idle | .answered => false
  | none => false

/-- Strand `k` is placed in the exclusion set of pool `p`, and the ARBITER notice becomes pending (R98). -/
def exclude (p : PoolId) (k : Strand) (s : State) : State :=
  pend .arbiter (modPool p (fun x => { x with excluded := x.excluded.insert k }) s)

/-- The trip clear at one pool (R89). -/
def clearPool (p : PoolId) (s : State) : State :=
  modPool p (fun x => { x with holders := Tab.all 8 none, waits := [] }) s

/-- The pool's flag becomes closed (R87). -/
def closePool (p : PoolId) (s : State) : State := modPool p (fun x => { x with isOpen := false }) s

end Sys2Proof.Machine
end

