-- ==== Sys2Proof/Machine/Sequencer.lean ====
section
/-! DEFINITION. The Restart Sequencer (chapter 3): beginning, completing and failing a step, and the grant choice (R83),
which hands grants to steps. One event may complete several steps of several strands in one action (R53, R54, R62, R83):
such an action is a list of tasks, carried out first to last, each task's own tasks before those behind it. -/

namespace Sys2Proof.Machine

/-- What is left to do within one action. -/
inductive Task where
  /-- Strand `k` begins its current step (R53). -/
  | enterStep (k : Strand)
  /-- Strand `k`'s current step completes (R54). -/
  | completeStep (k : Strand)
  /-- The grant choice is made at pool `p` (R83). -/
  | grantChoice (p : PoolId)
  /-- Strand `k`'s inrush hold ends (R62). -/
  | inrushEnd (k : Strand)
  deriving DecidableEq, Repr

/-! ### A step's phases -/

/-- The step takes the phase `ph` with the phase timer `t`; the rise reference is absent (R66, R68). -/
def toPhase (k : Strand) (ph : Phase) (t : Option Nat) (s : State) : State :=
  modRecord k (fun r => { r with phase := ph, phaseTimer := t, riseReference := none }) s

/-- The step's timers are cancelled and it takes no further event (R54, R56, R76). -/
def stopStep (k : Strand) (s : State) : State :=
  modRecord k (fun r => { r with stepTimer := none, phase := .noPhase, phaseTimer := none, riseReference := none }) s

/-- A time of `n` ms for a phase timer: none where `n` is 0, for such a phase ends at once (R62, R65). -/
def phaseTime (n : Nat) : Option Nat := if n = 0 then none else some n

/-- The step timer is loaded, and for OPEN the attempt becomes 1 (R53). -/
def loadStep (k : Strand) (p : Step) (s : State) : State :=
  modRecord k (fun r =>
    { r with stepTimer := some (p.time * 100), attempt := if isOpenAction p.action then some 1 else none }) s

/-- A step fails: it is stopped, and a failure claim is sent (R56). -/
def failStep (k : Strand) (f : StepFailure) (s : State) : State :=
  match s.record? k with
  | some r => emit (.stepFailureClaim k ⟨r.serial, f⟩) (stopStep k s)
  | none => s

/-! ### OPEN and DRIVE -/

/-- A DRIVE or OPEN step asks for a slot (R82; R60, R64). -/
def requestSlot (p : PoolId) (k : Strand) (s : State) : State × List Task :=
  if (s.pool p).excluded.look k then (failStep k (.excluded p) s, [])
  else (joinWaits p k (toPhase k .slotWait none s), [.grantChoice p])

/-- The fill opening of the current OPEN step. -/
def fillOpening (k : Strand) (s : State) : Option Nat :=
  match s.action? k with
  | some (.opening fill _ _ _) => some fill
  | _ => none

/-- The stopper opens for an attempt (R66). -/
def openForAttempt (k : Strand) (s : State) : State :=
  match fillOpening k s with
  | some n => toPhase k .pouring none (openWindow k (updUnit k (UnitState.openStopper n) s))
  | none => s

/-- The drive reports ready (R62): the response window closes and the inrush hold begins. -/
def enterInrush (k : Strand) (s : State) : State × List Task :=
  let t := s.working.drive.inrushHold
  (toPhase k .inrush (phaseTime t) (answer .drive k s), if t = 0 then [.inrushEnd k] else [])

/-- A DRIVE grant taken in SLOT_WAIT (R61). -/
def takeDriveGrant (k : Strand) (s : State) : State × List Task :=
  let s' := updUnit k UnitState.runDrive s
  if s'.driveReady k then enterInrush k s' else (toPhase k .starting none s', [])

/-- Whether strand `k`'s POUR grant carries the park mark (R91). -/
def parkMarked (k : Strand) (s : State) : Bool :=
  match s.pour.grant? k with
  | some g => g.parkMark
  | none => false

/-- A POUR grant taken in SLOT_WAIT (R65). -/
def takePourGrant (k : Strand) (s : State) : State :=
  let t := s.working.pour.preCharge
  if parkMarked k s && s.casterLines.hydOk.isTrue then openForAttempt k s
  else if t = 0 then openForAttempt k (toPhase k .preCharge none s)
  else toPhase k .preCharge (some t) s

/-- A grant delivered to strand `k`'s step, which takes it in its SLOT_WAIT phase (R84). -/
def deliverGrant (p : PoolId) (k : Strand) (s : State) : State × List Task :=
  if s.phase k = .slotWait then
    match p with
    | .drive => takeDriveGrant k s
    | .pour => (takePourGrant k s, [])
  else (s, [])

/-- One pass of the grant choice (R83). -/
def grantPass (p : PoolId) (s : State) : State × List Task :=
  if (s.pool p).isOpen && (s.pool p).holderCount < capacity s p then
    match (s.pool p).waits with
    | [] => (s, [])
    | e :: rest =>
      let d := deliverGrant p e.strand (makeGrant p e.strand rest s)
      (d.1, d.2 ++ [.grantChoice p])
  else (s, [])

/-- The inrush hold ends (R62): the slot is released, drive_lost is cleared and the step completes. -/
def endInrush (k : Strand) (s : State) : State × List Task :=
  (modStrand k (fun c => { c with driveLost := false }) (dropGrant .drive k s),
    [.grantChoice .drive, .completeStep k])

/-! ### The other actions' beginnings -/

/-- CHECK (R58). -/
def beginCheck (k : Strand) (m : PermissiveMask) (s : State) : State × List Task :=
  (toPhase k .waiting none s, if maskEmpty (missingLines s k m) then [.completeStep k] else [])

/-- COOL (R59). -/
def beginCool (k : Strand) (z : Zones) (s : State) : State × List Task :=
  (updUnit k (fun u => { u with cooling := z }) s, [.completeStep k])

/-- The lock band that will be in force (R70). -/
def bandInForce (s : State) (k : Strand) : LevelSource → Nat
  | .plan p => p.lockBand
  | .strand => (s.levelSet k).lockBand

/-- LEVEL with source PLAN writes the set first (R70). -/
def writeSource (k : Strand) (src : LevelSource) (s : State) : State :=
  match src with
  | .plan p => writeLevelSet k p s
  | .strand => s

/-- LEVEL (R70). -/
def beginLevel (k : Strand) (src : LevelSource) (s : State) : State × List Task :=
  if bandInForce s k src = 0 then (failStep k .lockDisabled s, [])
  else
    let t := toPhase k .locking none
      (updUnit k (fun u => (u.setMode .auto).turnLevelOn) (writeSource k src s))
    (t, if (t.unit k).lock then [.completeStep k] else [])

/-- The step completes at its beginning where the setpoint stands at the target (R53, R118). -/
def rampTasks (k : Strand) (target : Nat) (s : State) : List Task :=
  if (s.unit k).setpoint = target then [.completeStep k] else []

/-- DRAW (R73, R118). -/
def beginDraw (k : Strand) (start target rate : Nat) (s : State) : State × List Task :=
  if (s.unit k).draw then
    let t := toPhase k .ramping none (updUnit k (UnitState.giveRamp target rate) s)
    (t, rampTasks k target t)
  else if drawAllowed (s.levelSet k) (s.unit k) then
    let t := toPhase k .ramping none (updUnit k (UnitState.engageDraw start target rate) s)
    (t, rampTasks k target t)
  else (failStep k .interlock s, [])

/-- An action's beginning (R53, item 3). -/
def beginAction (k : Strand) (a : Action) (s : State) : State × List Task :=
  match a with
  | .check m => beginCheck k m s
  | .cool z => beginCool k z s
  | .drive => requestSlot .drive k s
  | .opening _ _ _ _ => requestSlot .pour k s
  | .level src => beginLevel k src s
  | .wait => (toPhase k .dwell none s, [])
  | .draw start target rate => beginDraw k start target rate s
  | .handover => (toPhase k .referenceWait none s, [])

/-- Strand `k`'s current step is begun (R53). -/
def beginStep (k : Strand) (s : State) : State × List Task :=
  match (s.record? k).bind RestartRecord.step? with
  | some p => beginAction k p.action (loadStep k p s)
  | none => (s, [])

/-! ### Completion -/

/-- The current step advances by one; the STATE notice becomes pending (R5, R51, R54). -/
def advanceStep (k : Strand) (s : State) : State :=
  pend (.state k) (modRecord k (fun r => { r with stepIndex := r.stepIndex + 1, attempt := none }) (stopStep k s))

/-- The current step completes (R54). After the last step the restart-complete claim is sent. -/
def finishStep (k : Strand) (s : State) : State × List Task :=
  match s.record? k with
  | none => (s, [])
  | some r =>
    if r.stepIndex < r.snapshot.plan.steps.length then (advanceStep k s, [.enterStep k])
    else (emit (.restartCompleteClaim k r.serial) (stopStep k s), [])

/-! ### Carrying out an action's tasks -/

/-- One task, and the tasks it brings. -/
def runTask (t : Task) (s : State) : State × List Task :=
  match t with
  | .enterStep k => beginStep k s
  | .completeStep k => finishStep k s
  | .grantChoice p => grantPass p s
  | .inrushEnd k => endInrush k s

/-- Tasks carried out first to last, at most `n` of them. -/
def drainFuel : Nat → List Task → State → State
  | 0, _, s => s
  | _ + 1, [], s => s
  | n + 1, t :: rest, s => drainFuel n ((runTask t s).2 ++ rest) (runTask t s).1

/-- A bound on a task's share of what is left to do. -/
def Task.weight : Task → Nat
  | .grantChoice _ => 1
  | .completeStep _ => 1
  | .inrushEnd _ => 3
  | .enterStep _ => 6

/-- The steps a strand's restart has not yet begun. -/
def stepsAhead (s : State) (k : Strand) : Nat :=
  match s.record? k with
  | some r => r.snapshot.plan.steps.length - r.stepIndex
  | none => 0

/-- What is left to do at the pools and in the restarts. -/
def potential (s : State) : Nat :=
  6 * (allStrands.map (stepsAhead s)).sum + 4 * (s.pour.waits.length + s.drive.waits.length)

/-- A number of tasks that an action never exceeds: every task lowers it. -/
def cascadeBound (l : List Task) (s : State) : Nat := (l.map Task.weight).sum + potential s

/-- All the tasks of an action carried out. -/
def drain (l : List Task) (s : State) : State := drainFuel (cascadeBound l s) l s

/-- Tasks carried out from the state they belong to. -/
def drained (r : State × List Task) : State := drain r.2 r.1

/-- Strand `k` gives back its slot of pool `p`, and the choice passes it on (R85). -/
def releaseSlot (p : PoolId) (k : Strand) (s : State) : State := drain [.grantChoice p] (dropGrant p k s)

/-- The open of pool `p` (R87). -/
def openPool (p : PoolId) (s : State) : State :=
  if (s.pool p).isOpen then s
  else drain [.grantChoice p] (modPool p (fun x => { x with isOpen := true }) s)

/-- Strand `k` is withdrawn from pool `p` (R86). -/
def withdrawFrom (p : PoolId) (k : Strand) (s : State) : State :=
  if ((dropEntry p k s).pool p).holds k then releaseSlot p k (dropEntry p k s) else dropEntry p k s

/-! ### Abandonment -/

/-- Strand `k`'s step is abandoned, where it is RESTARTING (R76). The record itself is dropped by the change of condition
that follows. -/
def abandon (k : Strand) (s : State) : State :=
  match s.record? k with
  | none => s
  | some _ =>
    updUnit k (fun u => u.endFill.stopRamp) (withdrawFrom .drive k (withdrawFrom .pour k (stopStep k s)))

/-! ### Events of a step -/

/-- The detail lines of a PERMISSIVE failure are read at expiry; the other actions fail STEP_TIMEOUT (R55). -/
def stepExpiry (k : Strand) (a : Action) (s : State) : State :=
  match a with
  | .wait => drain [.completeStep k] s
  | .check m => failStep k (.permissive (missingLines s k m)) s
  | .cool _ | .drive | .opening _ _ _ _ | .level _ | .draw _ _ _ | .handover => failStep k (.stepTimeout a) s

/-- A permissive line's level changed at strand `k`'s CHECK step in WAITING (R58). -/
def examineCheck (k : Strand) (s : State) : State :=
  match s.action? k with
  | some (.check m) =>
    if s.phase k = .waiting ∧ maskEmpty (missingLines s k m) then drain [.completeStep k] s else s
  | _ => s

/-- The CHECK mask names the line (R58). -/
def maskNames (m : PermissiveMask) : PermissiveLine → Bool
  | .driveReady _ => m.driveReady
  | .dummyAtMold _ => m.dummyAtMold
  | .moldWaterOk _ => m.moldWater
  | .hydOk => m.hydOk

/-- Whether strand `k` waits in a CHECK step whose mask names the line. -/
def checksLine (line : PermissiveLine) (s : State) (k : Strand) : Bool :=
  match s.action? k with
  | some (.check m) => s.phase k == .waiting && maskNames m line
  | _ => false

/-- The strands whose CHECK step takes a change of the line's level (R58, R164). -/
def lineStrands (line : PermissiveLine) (s : State) : List Strand :=
  match line with
  | .driveReady k | .dummyAtMold k | .moldWaterOk k => [k].filter (checksLine line s)
  | .hydOk => allStrands.filter (checksLine line s)

/-- A rising DRIVE_READY passed to a DRIVE step (R62). -/
def stepReadyRise (k : Strand) (s : State) : State :=
  if s.inDriveStep k ∧ s.phase k = .starting then drained (enterInrush k s) else s

/-- A falling DRIVE_READY passed to a DRIVE step (R61, R63). -/
def stepReadyFall (k : Strand) (s : State) : State :=
  if s.inDriveStep k ∧ s.phase k = .inrush then toPhase k .starting none s else s

/-- The rise confirmed (R67): steel becomes true and the hold timer stops (R6, R9). -/
def confirmRise (k : Strand) (s : State) : State :=
  let s' := toPhase k .filling none (answer .pour k s)
  modStrand k (fun c => { c with holdTimer := { c.holdTimer with running := false } })
    (modReported k (fun c => { c with steel := true }) s')

/-- A valid depth in FILLING (R67): at or below the start depth the step completes. -/
def fillTo (k : Strand) (startDepth d : Nat) (s : State) : State :=
  if d ≤ startDepth then
    drain [.grantChoice .pour, .completeStep k]
      (dropGrant .pour k (updUnit k UnitState.endFill (stopStep k s)))
  else s

/-- A valid depth in POURING (R66). -/
def pourTo (k : Strand) (startDepth d : Nat) (s : State) : State :=
  match (s.record? k).bind (·.riseReference) with
  | none => modRecord k (fun r => { r with riseReference := some d }) s
  | some ref =>
    if ref < d then modRecord k (fun r => { r with riseReference := some d }) s
    else if s.working.pour.riseThreshold ≤ ref - d then fillTo k startDepth d (confirmRise k s)
    else s

/-- The OPEN step's copy of a valid depth sample (R66, R67). -/
def openStepDepth (k : Strand) (d : Nat) (s : State) : State :=
  match s.action? k with
  | some (.opening _ startDepth _ _) =>
    if s.phase k = .pouring then pourTo k startDepth d s
    else if s.phase k = .filling then fillTo k startDepth d s
    else s
  | _ => s

/-- The POUR response of strand `k` expires in POURING (R68, R94): `attempt` of `attempts` has failed. -/
def attemptFailed (k : Strand) (attempt attempts dwell : Nat) (s : State) : State :=
  let t := updUnit k UnitState.endFill s
  if attempt < attempts then
    modRecord k (fun r => { r with attempt := some (attempt + 1) }) (toPhase k .retryDwell (some (dwell * 100)) t)
  else
    failStep k (.noFlow attempts) (exclude .pour k (releaseSlot .pour k (stopStep k t)))

/-- The Arbiter's report of a POUR response expiry at the OPEN step (R68). -/
def pourExpiryAtStep (k : Strand) (s : State) : State :=
  match s.record? k, s.action? k with
  | some r, some (.opening _ _ attempts dwell) =>
    if r.phase = .pouring then attemptFailed k (r.attempt.getD 1) attempts dwell s else s
  | _, _ => s

/-- The DRIVE response of strand `k` expires (R96). -/
def driveExpiry (k : Strand) (s : State) : State :=
  if s.inDriveStep k ∧ s.phase k = .starting then
    failStep k .driveTimeout (exclude .drive k (releaseSlot .drive k (stopStep k s)))
  else exclude .drive k (releaseSlot .drive k s)

/-- LOCK set, reported to the Sequencer (R71, R113). -/
def lockReport (k : Strand) (s : State) : State :=
  if s.phase k = .locking then drain [.completeStep k] s else s

/-- The ramp's target reached, reported to the Sequencer (R74). -/
def targetReport (k : Strand) (s : State) : State :=
  if s.phase k = .ramping then drain [.completeStep k] s else s

/-- A valid speed reference reported to the Sequencer (R75). -/
def referenceReport (k : Strand) (v : Nat) (s : State) : State :=
  if s.phase k = .referenceWait then
    drain [.completeStep k] (updUnit k (UnitState.followReference v) s)
  else s

end Sys2Proof.Machine
end

