-- ==== Sys2Proof/Machine/Strands.lean ====
section
/-! DEFINITION. The Strand Table (chapter 1): the changes of condition (R5, R11 to R14), the claims and edges it takes
(R15 to R20), and the release set's upkeep, which hears of each change (R134, R135). -/

namespace Sys2Proof.Machine

/-! ### The report to the Tundish Coordinator -/

/-- The Coordinator's fields changed by `f`. -/
def modCoordinator (f : Coordinator → Coordinator) (s : State) : State :=
  { s with coordinator := f s.coordinator }

/-- Entry into STEADY from RELEASING (R135). -/
def enterSteady (s : State) : State :=
  pend .tundish (modCoordinator (fun c => { c with state := .steady }) s)

/-- The Coordinator hears that strand `k` has reached CASTING, HALTED, DRY or OFFLINE (R134). -/
def reportSettled (k : Strand) (s : State) : State :=
  if s.coordinator.state = .releasing ∧ s.coordinator.releaseSet.look k = true then
    let t := pend .tundish (modCoordinator (fun c => { c with releaseSet := c.releaseSet.erase k }) s)
    if t.coordinator.releaseSet.isEmpty ∧ t.coordinator.entering = false then enterSteady t else t
  else s

/-! ### Changes of condition -/

/-- The three hold flags (R7). -/
inductive HoldFlag where
  | tundish
  | dip
  | operator
  deriving DecidableEq, Repr

/-- The flag's value. -/
def StrandContext.flag (c : StrandContext) : HoldFlag → Bool
  | .tundish => c.heldForTundish
  | .dip => c.heldForDip
  | .operator => c.heldByOperator

/-- The flag set to `b`. -/
def StrandContext.setFlag (f : HoldFlag) (b : Bool) (c : StrandContext) : StrandContext :=
  match f with
  | .tundish => { c with heldForTundish := b }
  | .dip => { c with heldForDip := b }
  | .operator => { c with heldByOperator := b }

/-- Every hold flag cleared and the hold timer stopped (R9, R12, R13). -/
def StrandContext.settle (c : StrandContext) : StrandContext :=
  { c with
    heldForTundish := false
    heldForDip := false
    heldByOperator := false
    holdTimer := { c.holdTimer with running := false } }

/-- The hold timer at an entry into HELD (R9): a stopped timer starts from 0. -/
def HoldTimer.start (t : HoldTimer) : HoldTimer := if t.running then t else ⟨0, true⟩

/-- Entry into HELD with the hold flag `f` (R5, R11, R109). A dip claim also sets drive_lost and turns drive run off. -/
def enterHeld (k : Strand) (f : HoldFlag) (s : State) : State :=
  let t := abandon k s
  pend (.state k)
    (modStrand k (fun c =>
        { StrandContext.setFlag f true c with
          condition := .held
          driveLost := c.driveLost || f == .dip
          holdTimer := c.holdTimer.start })
      (updUnit k (UnitState.rest (f != .dip) (t.settingsOf k).holdCooling) t))

/-- The cooling command of a HALTED strand (R12, R109). -/
def haltCooling (s : State) (k : Strand) : HaltCause → Zones
  | .breakout => (s.settingsOf k).breakoutCooling
  | .frozen | .fault | .driveLost | .trip | .abort | .reset | .noPlan => zeroZones

/-- Entry into HALTED (R5, R12, R109). With cause RESET the strand has steel, and leaving OFFLINE clears drive_lost (R6,
R8). -/
def enterHalted (k : Strand) (cause : HaltCause) (s : State) : State :=
  let t := abandon k s
  pend (.state k)
    (reportSettled k
      (modStrand k (fun c =>
          { c.settle with
            condition := .halted cause
            steel := c.steel || cause == .reset
            driveLost := c.driveLost && !c.condition.isOffline })
        (updUnit k (UnitState.rest false (haltCooling t k cause)) t)))

/-- Entry into DRY (R5, R13, R109). -/
def enterDry (k : Strand) (s : State) : State :=
  pend (.state k)
    (reportSettled k
      (modStrand k (fun c => { c.settle with condition := .dry, steel := false, driveLost := false })
        (updUnit k (UnitState.rest false zeroZones) (abandon k s))))

/-- Last granted becomes none where it names the strand that goes OFFLINE (R14, R90). -/
def forgetGranted (k : Strand) (s : State) : State :=
  if s.lastGranted = some k then { s with lastGranted := none } else s

/-- Entry into OFFLINE with reason SERVICE (R5, R14, R109). -/
def enterOffline (k : Strand) (s : State) : State :=
  pend (.state k)
    (reportSettled k
      (forgetGranted k
        (modStrand k (fun c => { c.settle with condition := .offline .service })
          (updUnit k (UnitState.rest false zeroZones) (abandon k s)))))

/-- Entry into CASTING (R5, R17): the outputs are kept (R109). -/
def enterCasting (k : Strand) (s : State) : State :=
  pend (.state k)
    (reportSettled k
      (modStrand k (fun c =>
          { c with condition := .casting, holdTimer := { c.holdTimer with running := false } })
        (abandon k s)))

/-- The restart record a restart begins with (R1, R49, R51). -/
def newRecord (s : State) (kind : RestartKind) (n : Fin 32) (p : Plan) : RestartRecord where
  serial := s.nextSerial
  kind := kind
  planNumber := n
  snapshot := takeSnapshot s.working n p
  stepIndex := 1
  attempt := none
  phase := .noPhase
  stepTimer := none
  phaseTimer := none
  riseReference := none

/-- Entry into RESTARTING (R16, R22, R52): the first step is begun in the same action. -/
def enterRestarting (k : Strand) (kind : RestartKind) (n : Fin 32) (p : Plan) (s : State) : State :=
  drain [.enterStep k]
    (pend (.state k)
      { setCondition k (.restarting (newRecord s kind n p)) s with nextSerial := s.nextSerial + 1 })

/-- The last hold flag has cleared: a restart with a plan looked up afresh, or HALTED NO_PLAN (R16, R48). -/
def restartFromHeld (k : Strand) (s : State) : State :=
  let kind : RestartKind := if (s.strand k).driveLost then .dip else .flying
  match lookupPlan s.working k kind with
  | some (n, p) => enterRestarting k kind n p s
  | none => enterHalted k .noPlan (writeFault k .noPlan (kindCode kind) s)

/-! ### Claims -/

/-- A hold claim adds its flag to a strand already HELD (R15). A dip claim also sets drive_lost and turns drive run off. -/
def addHold (k : Strand) (f : HoldFlag) (s : State) : State :=
  let t := modReported k (StrandContext.setFlag f true) s
  match f with
  | .dip => updUnit k UnitState.stopDrive (modStrand k (fun c => { c with driveLost := true }) t)
  | .tundish | .operator => t

/-- A hold claim at strand `k`, by its condition (R15). -/
def holdClaim (f : HoldFlag) (k : Strand) (s : State) : State :=
  match (s.strand k).condition with
  | .casting => enterHeld k f s
  | .held => addHold k f s
  | .restarting _ => if (s.strand k).steel then enterHeld k f s else enterDry k s
  | .dry | .halted _ | .offline _ => s

/-- A release claim, or RESUME, clears its flag on strand `k` (R7, R16). -/
def releaseFlag (f : HoldFlag) (k : Strand) (s : State) : State :=
  if (s.strand k).flag f then
    let t := modReported k (StrandContext.setFlag f false) s
    match (s.strand k).condition with
    | .held => if (t.strand k).anyHold then t else restartFromHeld k t
    | .dry | .restarting _ | .casting | .halted _ | .offline _ => t
  else s

/-- The end of a restart with a fault: HALTED with steel, DRY without (R12, R13, R17 to R19, R23). -/
def stopStrand (k : Strand) (cause : HaltCause) (s : State) : State :=
  if (s.strand k).steel then enterHalted k cause s else enterDry k s

/-- The Strand Table takes a step failure claim of the restart `serial` (R17, R56). -/
def takeFailure (k : Strand) (c : FailureClaim) (s : State) : State :=
  match s.record? k with
  | some r =>
    if r.serial = c.restart then
      stopStrand k .fault (writeFault k (failureCode c.failure) (failureDetail c.failure) s)
    else s
  | none => s

/-- The Strand Table takes a restart-complete claim of the restart `serial` (R17). -/
def takeCompletion (k : Strand) (serial : Nat) (s : State) : State :=
  match s.record? k with
  | some r => if r.serial = serial then enterCasting k s else s
  | none => s

/-- An accepted rising BREAKOUT_ALARM at strand `k` (R18). -/
def takeBreakout (k : Strand) (s : State) : State :=
  let t := writeFault k .breakout 0 s
  match (s.strand k).condition with
  | .dry => t
  | .restarting _ => stopStrand k .breakout t
  | .casting | .held => enterHalted k .breakout t
  | .halted _ =>
    updUnit k (fun u => { u with cooling := (s.settingsOf k).breakoutCooling })
      (modReported k (fun c => { c with condition := .halted .breakout }) t)
  | .offline _ => s

/-- A fall of DRIVE_READY taken while the supply is SUPPLIED (R19, R151). -/
def lostDrive (k : Strand) (s : State) : State :=
  match (s.strand k).condition with
  | .casting => enterHalted k .driveLost (writeFault k .driveLost 0 s)
  | .restarting _ =>
    if s.inDriveStep k then stepReadyFall k s
    else if (s.unit k).driveRun then stopStrand k .driveLost (writeFault k .driveLost 0 s)
    else s
  | .held => if (s.unit k).driveRun then modStrand k (fun c => { c with driveLost := true }) s else s
  | .dry | .halted _ | .offline _ => s

/-- An accepted falling DRIVE_READY at strand `k` (R19): while not supplied, only a current DRIVE step takes it. -/
def takeReadyFall (k : Strand) (s : State) : State :=
  if s.isSupplied then lostDrive k s else if s.inDriveStep k then stepReadyFall k s else s

/-- The re-examination at an entry into SUPPLIED (R151). -/
def reexamine (k : Strand) (s : State) : State :=
  if (s.strandLines.look k).driveReady.isFalse then lostDrive k s else s

/-- The trip's halt claim at strand `k`, by its condition (R20). -/
def haltClaim (k : Strand) (s : State) : State :=
  match (s.strand k).condition with
  | .casting | .held => enterHalted k .trip (writeFault k .trip 0 s)
  | .restarting _ =>
    if (s.strand k).steel then enterHalted k .trip (writeFault k .trip 0 s) else enterDry k s
  | .dry | .halted _ | .offline _ => s

/-- ABORT, and TUNDISH ABORT, on a CASTING, HELD or RESTARTING strand (R23, R137). -/
def abortStrand (k : Strand) (detail : Nat) (s : State) : State :=
  let t := writeFault k .abort detail s
  match (s.strand k).condition with
  | .restarting _ => stopStrand k .abort t
  | .casting | .held => enterHalted k .abort t
  | .dry | .halted _ | .offline _ => s

/-- The hold timer of strand `k` runs out, or has run out at a lower limit (R10). -/
def freeze (k : Strand) (s : State) : State :=
  enterHalted k .frozen (writeFault k .frozen ((s.strand k).holdTimer.elapsed / 1000) s)

/-- The first accepted level of STEEL_PRESENT ends the start-up check (R4). -/
def endStartUp (k : Strand) (level : Bool) (s : State) : State :=
  let t := modStrand k (fun c => { c with check := .done }) s
  if level then enterHalted k .reset (writeFault k .resetWithSteel 0 t) else pend (.state k) t

/-- SERVICE ON at an OFFLINE strand (R26). -/
def returnToService (k : Strand) (s : State) : State :=
  if s.steelPresent k then enterHalted k .reset (writeFault k .resetWithSteel 0 s) else enterDry k s

/-! ### A restart's own claims, taken within another action -/

/-- Whether `i` is a failure claim of the restart `serial` of strand `k`. -/
def isFailureOf (k : Strand) (serial : Nat) : Instr → Bool
  | .stepFailureClaim j c => j == k && c.restart == serial
  | _ => false

/-- A failure of a released strand's first step, taken within the entry into RELEASING (R133, log 13). -/
def takeOwnFailure (k : Strand) (s : State) : State :=
  match s.record? k with
  | none => s
  | some r =>
    match s.inFlight.find? (isFailureOf k r.serial) with
    | some (.stepFailureClaim j c) =>
      takeFailure k c { s with inFlight := s.inFlight.erase (.stepFailureClaim j c) }
    | _ => s

/-- Whether strand `k`, with steel, stands at a HANDOVER step that has completed: its restart-complete claim is under way
(R75). -/
def handoverDone (s : State) (k : Strand) : Bool :=
  match s.record? k with
  | some r =>
    (s.strand k).steel && s.action? k == some .handover && s.inFlight.contains (.restartCompleteClaim k r.serial)
  | none => false

/-- The restart-complete claim of a HANDOVER that has completed, taken before a hold or halt claim (R124, log 29). -/
def takeOwnCompletion (k : Strand) (s : State) : State :=
  match s.record? k with
  | some r =>
    if handoverDone s k then
      takeCompletion k r.serial { s with inFlight := s.inFlight.erase (.restartCompleteClaim k r.serial) }
    else s
  | none => s

/-- A hold claim taken at strand `k` (R15, R124). -/
def holdStrand (f : HoldFlag) (k : Strand) (s : State) : State := holdClaim f k (takeOwnCompletion k s)

/-- The trip's halt claim taken at strand `k` (R20, R124). -/
def tripStrand (k : Strand) (s : State) : State := haltClaim k (takeOwnCompletion k s)

end Sys2Proof.Machine
end

