-- ==== Sys2Proof/Machine/Supply.lean ====
section
/-! DEFINITION. The Supply Monitor (chapter 7, first part): falls and returns of the supply, the dip, the entry into
SUPPLIED and the outage's length. -/

namespace Sys2Proof.Machine

/-- The Supply Monitor's fields changed by `f`. -/
def modSupply (f : SupplyMonitor → SupplyMonitor) (s : State) : State := { s with supply := f s.supply }

/-- What brings the Monitor to SUPPLIED (R149): the rise that ends a ride-through, the end of SETTLING, the first accepted
level. -/
inductive SuppliedFrom where
  | riding (rise : Stamp)
  | settling
  | startUp
  deriving DecidableEq, Repr

/-- The outage's end (R150). -/
def outageEnd (m : SupplyMonitor) : SuppliedFrom → Option Stamp
  | .riding rise => some rise
  | .settling => m.settleStart
  | .startUp => none

/-- The last outage duration after the entry (R150), modulo 2 to the power of 32. -/
def outageAfter (m : SupplyMonitor) (c : SuppliedFrom) : Option Stamp :=
  match m.outageStart, outageEnd m c with
  | some a, some b => some (b - a)
  | _, _ => m.lastOutage

/-- Items 1 and 2 of the entry into SUPPLIED (R149). -/
def SupplyMonitor.supplied (c : SuppliedFrom) (m : SupplyMonitor) : SupplyMonitor :=
  { m with
    state := .supplied
    rideTimer := none
    settleTimer := none
    lastOutage := outageAfter m c
    outageStart := none
    settleStart := none }

/-- Item 4 of the entry into SUPPLIED: the release claim for the dip, from SETTLING alone (R149). -/
def releaseDip (c : SuppliedFrom) (s : State) : State :=
  match c with
  | .settling => forConfigured (releaseFlag .dip) s
  | .riding _ | .startUp => s

/-- Entry into SUPPLIED (R149). -/
def enterSupplied (c : SuppliedFrom) (s : State) : State :=
  pend .power (openPool .drive (releaseDip c (forConfigured reexamine (modSupply (SupplyMonitor.supplied c) s))))

/-- The first accepted level of SUPPLY_OK (R143). -/
def takeFirstSupply (level : Bool) (stamp : Stamp) (s : State) : State :=
  match s.supply.check with
  | .done => s
  | .pending =>
    if level then enterSupplied .startUp (modSupply (fun m => { m with check := .done }) s)
    else pend .power (modSupply (fun m => { m with check := .done, outageStart := some stamp }) s)

/-- An accepted falling SUPPLY_OK (R144, R148). -/
def takeSupplyFall (stamp : Stamp) (s : State) : State :=
  match s.supply.state with
  | .supplied =>
    pend .power (closePool .drive (modSupply (fun m =>
      { m with
        state := .riding
        outageStart := some stamp
        rideTimer := some s.working.caster.rideThrough }) s))
  | .settling =>
    pend .power (modSupply (fun m => { m with state := .down, settleTimer := none, settleStart := none }) s)
  | .riding | .down => s

/-- The rise that begins SETTLING (R147). -/
def enterSettling (stamp : Stamp) (s : State) : State :=
  pend .power (modSupply (fun m =>
    { m with
      state := .settling
      settleStart := some stamp
      settleTimer := some (s.working.caster.settle * 1000) }) s)

/-- An accepted rising SUPPLY_OK (R145, R147). Before the first accepted level no edge can arise (log 14). -/
def takeSupplyRise (stamp : Stamp) (s : State) : State :=
  match s.supply.check, s.supply.state with
  | .pending, _ => s
  | .done, .riding => enterSupplied (.riding stamp) s
  | .done, .down =>
    if s.working.caster.settle = 0 then enterSupplied .settling (enterSettling stamp s)
    else enterSettling stamp s
  | .done, .supplied | .done, .settling => s

/-- The declaration of a dip (R146). -/
def declareDip (s : State) : State :=
  pend .power (forConfigured (holdStrand .dip)
    (modSupply (fun m => { m with state := .down, rideTimer := none }) s))

/-- The ride-through timer expires (R146). -/
def rideExpiry (s : State) : State :=
  match s.supply.state with
  | .riding => declareDip s
  | .supplied | .down | .settling => s

/-- The settle timer expires (R149). -/
def settleEnd (s : State) : State :=
  match s.supply.state with
  | .settling => enterSupplied .settling s
  | .supplied | .down | .riding => s

end Sys2Proof.Machine
end

