-- ==== Sys2Proof/Machine/Coordinator.lean ====
section
/-! DEFINITION. The Tundish Coordinator (chapter 6): calling a change, the new tundish, the release, TUNDISH ABORT, the low
weight, and its return to STEADY by the trip. -/

namespace Sys2Proof.Machine

/-- Entry into HOLDING (R129). -/
def enterHolding (s : State) : State :=
  let t := modCoordinator (fun c => { c with state := .holding, lowWeight := false }) s
  pend .tundish (closePool .pour (forConfigured (holdStrand .tundish) t))

/-- Entry into FILLING (R130). -/
def enterFilling (s : State) : State :=
  pend .tundish (modCoordinator (fun c => { c with state := .filling }) s)

/-- Whether strand `k` is HELD with held_for_tundish (R133, R137). -/
def heldForTundish (s : State) (k : Strand) : Bool :=
  s.isConfigured k && (s.strand k).condition == .held && (s.strand k).heldForTundish

/-- The release claim at strand `k` within the entry into RELEASING (R133, log 13). -/
def releaseTundish (k : Strand) (s : State) : State :=
  if s.coordinator.releaseSet.look k then takeOwnFailure k (releaseFlag .tundish k s) else releaseFlag .tundish k s

/-- The end of the entry into RELEASING (R133, item 6). -/
def endEntry (s : State) : State :=
  let t := modCoordinator (fun c => { c with entering := false }) s
  if t.coordinator.releaseSet.isEmpty then enterSteady t else t

/-- Entry into RELEASING (R133). -/
def enterReleasing (s : State) : State :=
  let t := modCoordinator (fun c =>
    { c with state := .releasing, releaseSet := Vector.ofFn (heldForTundish s), entering := true }) s
  endEntry (pend .tundish (openPool .pour (forConfigured releaseTundish t)))

/-- Whether TUNDISH ABORT halts strand `k` (R137, item 1). -/
def abortedByTundish (s : State) (k : Strand) : Bool :=
  heldForTundish s k ||
    (s.coordinator.releaseSet.look k &&
      match (s.strand k).condition with
      | .held | .restarting _ => true
      | .dry | .casting | .halted _ | .offline _ => false)

/-- Abandoning a change (R137). Each strand halted has steel. -/
def abandonChange (s : State) : State :=
  let t := modCoordinator (fun c => { c with entering := true }) s
  let h := forConfigured (fun k u =>
    if abortedByTundish u k then enterHalted k .abort (writeFault k .abort 1 u) else u) t
  pend .tundish
    (openPool .pour
      (modCoordinator (fun c =>
        { c with state := .steady, releaseSet := StrandSet.none, entering := false }) h))

/-- The low-weight flag judged in STEADY (R136). -/
def judgeWeight (w : Nat) (s : State) : State :=
  let low : Bool := w < s.working.caster.lowThreshold
  if s.coordinator.lowWeight = low then s
  else pend .tundish (modCoordinator (fun c => { c with lowWeight := low }) s)

/-- A valid tundish weight sample (R132). -/
def takeWeight (w : Nat) (s : State) : State :=
  let t := modCoordinator (fun c => { c with lastWeight := some w }) s
  match s.coordinator.state with
  | .steady => judgeWeight w t
  | .filling => if s.working.caster.openThreshold ≤ w then enterReleasing t else t
  | .holding | .releasing => t

/-- The trip returns the Coordinator to STEADY (R138). -/
def tripReturn (s : State) : State :=
  let t := modCoordinator (fun c => { c with releaseSet := StrandSet.none }) s
  let u := if t.coordinator.state = .steady then t
    else pend .tundish (modCoordinator (fun c => { c with state := .steady }) t)
  openPool .pour u

/-! ### The lines' edges -/

/-- An accepted rising TC_REQUEST (R127). -/
def takeTcRequest (s : State) : State := if s.coordinator.state = .steady then enterHolding s else s

/-- An accepted rising TUNDISH_IN_PLACE (R130). -/
def takeTundishInPlace (s : State) : State := if s.coordinator.state = .holding then enterFilling s else s

end Sys2Proof.Machine
end

