-- ==== Sys2Proof/Machine/Trip.lean ====
section
/-! DEFINITION. The Trip Latch (chapter 7, second part): the sample of the line, latching, and what it forces. -/

namespace Sys2Proof.Machine

/-- The Trip Latch's fields changed by `f`. -/
def modTrip (f : TripLatch → TripLatch) (s : State) : State := { s with trip := f s.trip }

/-- The forcing of a strand's outputs (R155, item 3). -/
def forceOutputs (k : Strand) (s : State) : State := updUnit k (UnitState.rest false zeroZones) s

/-- Latching (R155). -/
def latch (s : State) : State :=
  pend .trip
    (tripReturn
      (clearPool .drive (clearPool .pour
        (forConfigured forceOutputs
          (forConfigured tripStrand (modTrip (fun t => { t with latched := true }) s))))))

/-- A TRIP sample (R154). -/
def takeTrip (asserted : Bool) (s : State) : State :=
  let t := modTrip (fun x => { x with line := asserted }) s
  let u := if s.trip.line ≠ asserted ∧ s.trip.latched = true then pend .trip t else t
  if asserted = true ∧ s.trip.armed = true ∧ s.trip.latched = false then latch u else u

/-- TRIP ARM's effect (R156). -/
def arm (s : State) : State :=
  if s.trip.armed then s
  else
    let t := pend .trip (modTrip (fun x => { x with armed := true }) s)
    if s.trip.line then latch t else t

/-- TRIP RESET's effect with the line NOT_ASSERTED (R157). -/
def unlatch (s : State) : State :=
  if s.trip.latched then pend .trip (modTrip (fun x => { x with latched := false }) s) else s

end Sys2Proof.Machine
end

