-- ==== Sys2Proof/Machine/CasterRequests.lean ====
section
/-! DEFINITION. The requests that name no strand: STATUS, SETTINGS READ, SETTINGS WRITE, STORE (R189 to R191, R199), the
pools' settings (R100, R101), the tundish change (R128, R131, R137), the Trip Latch (R156, R157), the notice sources (R180
to R182). -/

namespace Sys2Proof.Machine

/-! ### STATUS and the caster settings -/

/-- STATUS's contents (R189, R197). -/
def statusBytes (s : State) : List Byte :=
  u8 Config.fitted ++ u8 s.configuredCount ++ u32 s.now.toNat
    ++ u8 (coordinatorCode s.coordinator.state) ++ optU16 s.coordinator.lastWeight ++ flag s.coordinator.lowWeight
    ++ [s.coordinator.releaseSet.toByte]
    ++ u8 (supplyCode s.supply.state) ++ u8 (checkCode s.supply.check) ++ optU16 s.supply.rideTimer
    ++ optU16 s.supply.settleTimer ++ flag s.supply.lastOutage.isSome ++ u32 (s.supply.lastOutage.getD 0).toNat
    ++ flag s.trip.armed ++ flag s.trip.latched ++ flag s.trip.line
    ++ lineBytes s.casterLines.supplyOk ++ lineBytes s.casterLines.tcRequest ++ lineBytes s.casterLines.tundishInPlace
    ++ lineBytes s.casterLines.hydOk ++ lineBytes s.casterLines.maint
    ++ flag s.pour.isOpen ++ flag s.drive.isOpen ++ u8 (storeCode s.storeState) ++ flag s.defaulted
    ++ allStrands.flatMap (fun k => u8 (conditionCode (s.strand k).condition.name))

/-- STATUS (R189). -/
def handleStatus : Handler := report statusBytes

/-- The caster settings in the order and encoding of SETTINGS WRITE's body (R190, R191). -/
def casterBytes (c : CasterSettings) : List Byte :=
  u8 c.strandCount ++ u16 c.openThreshold ++ u16 c.lowThreshold ++ u16 c.rideThrough ++ u8 c.settle ++ u8 c.periodA
    ++ u8 c.periodB ++ u8 c.measurement

/-- SETTINGS READ (R190). -/
def handleSettingsRead : Handler := report fun s => casterBytes s.working.caster

/-- The caster settings a body carries (R191). -/
def readCasterBody (b : CasterBody) : CasterSettings where
  strandCount := b.strandCount.toNat
  openThreshold := b.openThreshold.toNat
  lowThreshold := b.lowThreshold.toNat
  rideThrough := b.rideThrough.toNat
  settle := b.settle.toNat
  periodA := b.periodA.toNat
  periodB := b.periodB.toNat
  measurement := b.measurement.toNat

/-- A changed measurement period: the next instant falls one new period after the acceptance (R168). -/
def changeMeasurement (n : Nat) (s : State) : State := { s with instants := { s.instants with measurement := n } }

/-- The effects of changed periods (R166, R168). -/
def applyPeriods (old new : CasterSettings) (s : State) : State :=
  let a := if new.periodA = old.periodA then s else changePeriodA new.periodA s
  let b := if new.periodB = old.periodB then a else changePeriodB new.periodB a
  if new.measurement = old.measurement then b else changeMeasurement new.measurement b

/-- An accepted SETTINGS WRITE (R191). -/
def applyCaster (c : CasterSettings) (s : State) : State :=
  applyPeriods s.working.caster c { s with working := { s.working with caster := c } }

/-- SETTINGS WRITE (R191). -/
def handleSettingsWrite (b : CasterBody) : Handler :=
  checked (fun _ => [(!casterInRange (readCasterBody b), .badField)]) (accept (applyCaster (readCasterBody b)))

/-! ### STORE -/

/-- STORE (R199). -/
def handleStore : Handler := fun s =>
  match s.storeState with
  | .writing _ => refuse .busy s
  | .idle | .failed => accept (fun s => { s with storeState := .writing s.working }) s

/-- The end of the image write, the image then holding `written` (R199). -/
def endWrite (written : Image) (s : State) : State :=
  match s.storeState with
  | .writing capture =>
    if imageAgrees written capture then
      pend .store { s with image := written, storeState := .idle, defaulted := false }
    else pend .store { s with image := written, storeState := .failed }
  | .idle | .failed => s

/-! ### Pools -/

/-- A holder's record in ARBITER READ (R197). -/
def holderBytes (p : Pool) (k : Strand) : List Byte :=
  match p.grant? k with
  | none => []
  | some g =>
    strandByte k ++ u32 g.time.toNat ++ u8 (responseCode g.response)
      ++ (match g.response with
        | .running n => u16 n
        | .off | .idle | .answered => u16 0xFFFF)
      ++ flag g.parkMark

/-- The pool's settings in the order and sizes of ARBITER WRITE (R197). -/
def poolSettingsBytes (s : State) : PoolId → List Byte
  | .pour =>
    let p := s.working.pour
    u8 p.capacity ++ flag p.monitor ++ u8 p.responseTime ++ u8 p.riseThreshold ++ u16 p.preCharge
      ++ u8 (policyCode p.policy) ++ optStrandByte p.selected
  | .drive =>
    let p := s.working.drive
    u8 p.capacity ++ flag p.monitor ++ u8 p.responseTime ++ u16 p.inrushHold

/-- The run-time part of ARBITER READ (R197). -/
def poolBytes (p : Pool) : List Byte :=
  flag p.isOpen ++ u8 p.holderCount ++ allStrands.flatMap (holderBytes p) ++ u8 p.waits.length
    ++ p.waits.flatMap (fun e => strandByte e.strand ++ u8 (classCode e.cls)) ++ [p.excluded.toByte]

/-- ARBITER READ's contents (R100, R197). -/
def arbiterBytes (p : PoolId) (s : State) : List Byte :=
  u8 (poolCode p) ++ poolSettingsBytes s p ++ poolBytes (s.pool p)
    ++ (match p with
      | .pour => optStrandByte s.lastGranted ++ optStrandByte (parkTarget s)
      | .drive => [])

/-- ARBITER READ (R100). -/
def handleArbiterRead (pool : Byte) : Handler :=
  match readPool pool with
  | none => refuse .badField
  | some p => report (arbiterBytes p)

/-- The selected strand a byte spells: 0 for none, else 1 to 8 (R80). -/
def readSelected (b : Byte) : Option (Option Strand) :=
  if b = 0 then some none
  else if h : b.toNat - 1 < 8 then some (some ⟨b.toNat - 1, h⟩)
  else none

/-- A response monitor setting: OFF 0, ON 1 (R194). -/
def readMonitor (b : Byte) : Option Bool := if b = 0 then some false else if b = 1 then some true else none

/-- A park policy: LAST 0, SELECTED 1 (R194). -/
def readPolicy (b : Byte) : Option ParkPolicy :=
  if b = 0 then some .last else if b = 1 then some .selected else none

/-- The POUR settings a body carries, where they lie in their ranges (R80, R101). -/
def readPour (cap mon resp rise : Byte) (pre : Half) (pol sel : Byte) : Option PourSettings :=
  match readMonitor mon, readPolicy pol, readSelected sel with
  | some m, some q, some k =>
    let p : PourSettings := ⟨cap.toNat, m, resp.toNat, rise.toNat, pre.toNat, q, k⟩
    if pourInRange p then some p else none
  | _, _, _ => none

/-- The DRIVE settings a body carries, where they lie in their ranges (R80, R101). -/
def readDrive (cap mon resp : Byte) (inrush : Half) : Option DriveSettings :=
  match readMonitor mon with
  | some m =>
    let p : DriveSettings := ⟨cap.toNat, m, resp.toNat, inrush.toNat⟩
    if driveInRange p then some p else none
  | none => none

/-- The POUR settings replaced in the working copy (R101). -/
def storePour (p : PourSettings) (s : State) : State := { s with working := { s.working with pour := p } }

/-- The DRIVE settings replaced in the working copy (R101). -/
def storeDrive (p : DriveSettings) (s : State) : State := { s with working := { s.working with drive := p } }

/-- ARBITER WRITE (R101). -/
def handleArbiterWrite : ArbiterBody → Handler
  | .other _ => refuse .badField
  | .pour cap mon resp rise pre pol sel =>
    match readPour cap mon resp rise pre pol sel with
    | none => refuse .badField
    | some p => checked (fun s => [(s.pour.inUse, .busy)]) (accept (storePour p))
  | .drive cap mon resp inrush =>
    match readDrive cap mon resp inrush with
    | none => refuse .badField
    | some p => checked (fun s => [(s.drive.inUse, .busy)]) (accept (storeDrive p))

/-! ### The tundish change -/

/-- TUNDISH CHANGE (R128). -/
def handleTundishChange : Handler :=
  checked (fun s => [(s.coordinator.state != .steady, .busy)]) (accept enterHolding)

/-- TUNDISH IN PLACE (R131). -/
def handleTundishInPlace : Handler :=
  checked (fun s => [(s.coordinator.state != .holding, .wrongState)]) (accept enterFilling)

/-- TUNDISH ABORT (R137). -/
def handleTundishAbort : Handler :=
  checked (fun s => [(s.coordinator.state == .steady, .wrongState)]) (accept abandonChange)

/-! ### The Trip Latch -/

/-- TRIP ARM (R156). -/
def handleTripArm : Handler := accept arm

/-- TRIP RESET (R157). -/
def handleTripReset : Handler := checked (fun s => [(s.trip.line, .wrongState)]) (accept unlatch)

/-! ### The notice sources -/

/-- NOTICE LEVELS (R180). -/
def handleNoticeLevels (levels : Tab 29 Byte) : Handler :=
  checked (fun _ => [(levels.toList.any (7 < ·.toNat), .badField)])
    (accept fun s => { s with working := { s.working with noticeLevels := levels.map (·.toNat) } })

/-- The 29 pending flags as four bytes, bit n for source n (R197). -/
def pendingBytes (s : State) : List Byte :=
  u32 ((List.finRange 29).foldl (fun a n => a + if s.noticePending.look n then 2 ^ n.val else 0) 0)

/-- NOTICE POLL (R181). -/
def handleNoticePoll : Handler :=
  report fun s => pendingBytes s ++ s.working.noticeLevels.toList.flatMap u8

/-- NOTICE CLEAR (R182). -/
def handleNoticeClear (mask : BitVec 32) : Handler :=
  checked (fun _ => [(mask.getLsbD 29 || mask.getLsbD 30 || mask.getLsbD 31, .badField)])
    (accept fun s =>
      { s with noticePending := Vector.ofFn fun n => s.noticePending.look n && !mask.getLsbD n.val })

/-! ### The commands -/

/-- STATUS. -/
def execStatus (tag : Byte) (s : State) : Host.Outcome State Fault Refusal := request tag 0x01 handleStatus s

/-- SETTINGS READ. -/
def execSettingsRead (tag : Byte) (s : State) : Host.Outcome State Fault Refusal :=
  request tag 0x02 handleSettingsRead s

/-- SETTINGS WRITE. -/
def execSettingsWrite (tag : Byte) (body : CasterBody) (s : State) : Host.Outcome State Fault Refusal :=
  request tag 0x03 (handleSettingsWrite body) s

/-- STORE. -/
def execStore (tag : Byte) (s : State) : Host.Outcome State Fault Refusal := request tag 0x04 handleStore s

/-- STORE_WRITE_END. -/
def execStoreWriteEnd (written : Image) (s : State) : Host.Outcome State Fault Refusal := finish (endWrite written s)

/-- ARBITER READ. -/
def execArbiterRead (tag pool : Byte) (s : State) : Host.Outcome State Fault Refusal :=
  request tag 0x17 (handleArbiterRead pool) s

/-- ARBITER WRITE. -/
def execArbiterWrite (tag : Byte) (body : ArbiterBody) (s : State) : Host.Outcome State Fault Refusal :=
  request tag 0x18 (handleArbiterWrite body) s

/-- TUNDISH CHANGE. -/
def execTundishChange (tag : Byte) (s : State) : Host.Outcome State Fault Refusal :=
  request tag 0x1A handleTundishChange s

/-- TUNDISH IN PLACE, the request. -/
def execTundishInPlace (tag : Byte) (s : State) : Host.Outcome State Fault Refusal :=
  request tag 0x1B handleTundishInPlace s

/-- TUNDISH ABORT. -/
def execTundishAbort (tag : Byte) (s : State) : Host.Outcome State Fault Refusal :=
  request tag 0x1C handleTundishAbort s

/-- TRIP ARM. -/
def execTripArm (tag : Byte) (s : State) : Host.Outcome State Fault Refusal := request tag 0x1D handleTripArm s

/-- TRIP RESET. -/
def execTripReset (tag : Byte) (s : State) : Host.Outcome State Fault Refusal := request tag 0x1E handleTripReset s

/-- NOTICE LEVELS. -/
def execNoticeLevels (tag : Byte) (levels : Tab 29 Byte) (s : State) : Host.Outcome State Fault Refusal :=
  request tag 0x1F (handleNoticeLevels levels) s

/-- NOTICE POLL. -/
def execNoticePoll (tag : Byte) (s : State) : Host.Outcome State Fault Refusal := request tag 0x20 handleNoticePoll s

/-- NOTICE CLEAR. -/
def execNoticeClear (tag : Byte) (mask : BitVec 32) (s : State) : Host.Outcome State Fault Refusal :=
  request tag 0x21 (handleNoticeClear mask) s

end Sys2Proof.Machine
end

