-- ==== Sys2Proof/Machine/Events.lean ====
section
/-! DEFINITION. The events: of the field port and its samples, of the filter's deliveries, of the timers, of the transmitter
and of reset, and the Restart Sequencer's claims. An event that finds nothing to act on is discarded (R57). -/

namespace Sys2Proof.Machine

/-! ### Reset and the transmitter -/

/-- The image a reset finds: a write under way ends unfinished (R199). -/
def imageAtReset (s : State) : Image :=
  match s.storeState with
  | .writing _ => unfinishedImage s.image
  | .idle | .failed => s.image

/-- RESET (R4, R183, R198): every state takes its reset value, the settings are loaded from the image. The plant's inputs,
the waiting commands and the model's own counters are kept (log 5, 19). -/
def restart (s : State) : State :=
  let image := imageAtReset s
  { State.started (loadImage image).1 (loadImage image).2 image s.port with
    pending := s.pending
    nextSerial := s.nextSerial
    choices := s.choices }

/-- RESET. -/
def execReset (s : State) : Host.Outcome State Fault Refusal := finish (restart s)

/-- The frame in transmission ends (R178, R183). -/
def endSending (s : State) : State := { s with sending := none }

/-- TRANSMISSION_END. -/
def execTransmissionEnd (s : State) : Host.Outcome State Fault Refusal := finish (endSending s)

/-- GAP_TIMER_EXPIRY (R185). -/
def execGapTimerExpiry (s : State) : Host.Outcome State Fault Refusal := finish { s with receiver := .hunting }

/-! ### Sampling -/

/-- FILTER_SAMPLE (R160 to R162). -/
def execFilterSample (samples : FilterInstant) (s : State) : Host.Outcome State Fault Refusal :=
  match samples with
  | .classA p => finish (takeClassA p s)
  | .classB p => finish (takeClassB p s)

/-- MEASUREMENT_INSTANT (R168, R169). -/
def execMeasurementInstant (channels : MeasurementLevels) (s : State) : Host.Outcome State Fault Refusal :=
  finish (takeMeasurement channels s)

/-- TRIP_SAMPLE (R154, R165). One that comes as a command is a sample beside the part's own of every millisecond (log 30). -/
def execTripSample (asserted : Bool) (s : State) : Host.Outcome State Fault Refusal :=
  finish (takeTrip asserted { s with port := { s.port with trip := asserted } })

/-! ### Deliveries of the filter -/

/-- STEEL_PRESENT_FIRST_LEVEL (R4): taken while the strand's start-up check is PENDING. -/
def execSteelPresentFirstLevel (k : Strand) (level : Bool) (s : State) : Host.Outcome State Fault Refusal :=
  finish (if s.isConfigured k ∧ (s.strand k).check = .pending then endStartUp k level s else s)

/-- SUPPLY_OK_FIRST_LEVEL (R143). -/
def execSupplyOkFirstLevel (level : Bool) (stamp : Stamp) (s : State) : Host.Outcome State Fault Refusal :=
  finish (takeFirstSupply level stamp s)

/-- BREAKOUT_ALARM_RISE (R18). -/
def execBreakoutAlarmRise (k : Strand) (s : State) : Host.Outcome State Fault Refusal :=
  finish (if s.inService k then takeBreakout k s else s)

/-- DRIVE_READY_FALL (R19). -/
def execDriveReadyFall (k : Strand) (s : State) : Host.Outcome State Fault Refusal :=
  finish (if s.inService k then takeReadyFall k s else s)

/-- DRIVE_READY_RISE (R19, R62). -/
def execDriveReadyRise (k : Strand) (s : State) : Host.Outcome State Fault Refusal :=
  finish (if s.inService k then stepReadyRise k s else s)

/-- PERMISSIVE_LEVEL_CHANGE (R58, R164): at HYD_OK, every strand's CHECK step, in an open order (log 4). -/
def execPermissiveLevelChange (line : PermissiveLine) (s : State) : Host.Outcome State Fault Refusal :=
  finish (inOpenOrder examineCheck (lineStrands line s).length (lineStrands line s) s)

/-- SUPPLY_OK_FALL (R144, R148). -/
def execSupplyOkFall (stamp : Stamp) (s : State) : Host.Outcome State Fault Refusal := finish (takeSupplyFall stamp s)

/-- SUPPLY_OK_RISE (R145, R147). -/
def execSupplyOkRise (stamp : Stamp) (s : State) : Host.Outcome State Fault Refusal := finish (takeSupplyRise stamp s)

/-- TC_REQUEST_RISE (R127). -/
def execTcRequestRise (s : State) : Host.Outcome State Fault Refusal := finish (takeTcRequest s)

/-- TUNDISH_IN_PLACE_RISE (R130). -/
def execTundishInPlaceRise (s : State) : Host.Outcome State Fault Refusal := finish (takeTundishInPlace s)

/-! ### Measurement samples -/

/-- A mold depth sample at the Level and Draw Unit, which reports a setting of LOCK (R110 to R113). -/
def unitDepth (k : Strand) (sample : Sample) (s : State) : State :=
  let t := updUnit k (UnitState.takeDepth (s.levelSet k) sample) s
  if (s.unit k).lock = false ∧ (t.unit k).lock = true then lockReport k t else t

/-- DEPTH_SAMPLE_UNIT (R110). -/
def execDepthSampleUnit (k : Strand) (sample : Sample) (s : State) : Host.Outcome State Fault Refusal :=
  finish (if s.inService k then unitDepth k sample s else s)

/-- DEPTH_SAMPLE_OPEN_STEP (R66, R67). -/
def execDepthSampleOpenStep (k : Strand) (sample : Sample) (s : State) : Host.Outcome State Fault Refusal :=
  match sample with
  | .valid d => finish (if s.inService k then openStepDepth k d s else s)
  | .invalid => finish s

/-- SPEED_REFERENCE_SAMPLE (R120). -/
def execSpeedReferenceSample (k : Strand) (sample : Sample) (s : State) : Host.Outcome State Fault Refusal :=
  match sample with
  | .valid v =>
    finish (if s.inService k then referenceReport k v (updUnit k (UnitState.takeReference v) s) else s)
  | .invalid => finish s

/-- WEIGHT_SAMPLE (R132). -/
def execWeightSample (sample : Sample) (s : State) : Host.Outcome State Fault Refusal :=
  match sample with
  | .valid w => finish (takeWeight w s)
  | .invalid => finish s

/-! ### Timers -/

/-- The hold timer runs out at the freeze limit (R10, log 9). -/
def holdExpiry (k : Strand) (s : State) : State :=
  freeze k (modStrand k (fun c =>
    { c with holdTimer :=
      { c.holdTimer with elapsed := max c.holdTimer.elapsed ((s.settingsOf k).freezeLimit * 1000) } }) s)

/-- HOLD_TIMER_EXPIRY (R10). -/
def execHoldTimerExpiry (k : Strand) (s : State) : Host.Outcome State Fault Refusal :=
  finish (if (s.strand k).holdTimer.running then holdExpiry k s else s)

/-- Whether strand `k`'s step timer runs. -/
def stepTimed (k : Strand) (s : State) : Bool := ((s.record? k).bind (·.stepTimer)).isSome

/-- STEP_TIMER_EXPIRY (R55). -/
def execStepTimerExpiry (k : Strand) (s : State) : Host.Outcome State Fault Refusal :=
  match s.action? k with
  | some a => finish (if stepTimed k s then stepExpiry k a s else s)
  | none => finish s

/-- PRE_CHARGE_END (R65). -/
def execPreChargeEnd (k : Strand) (s : State) : Host.Outcome State Fault Refusal :=
  finish (if s.phase k = .preCharge then openForAttempt k s else s)

/-- RETRY_DWELL_END (R68). -/
def execRetryDwellEnd (k : Strand) (s : State) : Host.Outcome State Fault Refusal :=
  finish (if s.phase k = .retryDwell then openForAttempt k s else s)

/-- INRUSH_HOLD_END (R62). -/
def execInrushHoldEnd (k : Strand) (s : State) : Host.Outcome State Fault Refusal :=
  finish (if s.phase k = .inrush then drain [.inrushEnd k] s else s)

/-- The POUR response timer runs out (R94): the state becomes IDLE, and the step hears of it. -/
def pourExpiry (k : Strand) (s : State) : State :=
  pourExpiryAtStep k (modGrant .pour k (fun g => { g with response := .idle }) s)

/-- POUR_RESPONSE_EXPIRY (R94). -/
def execPourResponseExpiry (k : Strand) (s : State) : Host.Outcome State Fault Refusal :=
  finish (if responseRunning .pour k s then pourExpiry k s else s)

/-- DRIVE_RESPONSE_EXPIRY (R96). -/
def execDriveResponseExpiry (k : Strand) (s : State) : Host.Outcome State Fault Refusal :=
  finish (if responseRunning .drive k s then driveExpiry k s else s)

/-- RAMP_TARGET_REACHED (R74, R119). -/
def execRampTargetReached (k : Strand) (s : State) : Host.Outcome State Fault Refusal :=
  finish (if (s.unit k).ramp.isSome then targetReport k (updUnit k UnitState.reachTarget s) else s)

/-- RIDE_THROUGH_EXPIRY (R146). -/
def execRideThroughExpiry (s : State) : Host.Outcome State Fault Refusal := finish (rideExpiry s)

/-- SETTLE_EXPIRY (R149). -/
def execSettleExpiry (s : State) : Host.Outcome State Fault Refusal := finish (settleEnd s)

/-! ### Claims -/

/-- STEP_FAILURE_CLAIM (R17, R56). -/
def execStepFailureClaim (k : Strand) (claim : FailureClaim) (s : State) : Host.Outcome State Fault Refusal :=
  finish (takeFailure k claim s)

/-- RESTART_COMPLETE_CLAIM (R17). -/
def execRestartCompleteClaim (k : Strand) (restart : Nat) (s : State) : Host.Outcome State Fault Refusal :=
  finish (takeCompletion k restart s)

end Sys2Proof.Machine
end

