-- ==== Sys2Proof/Machine/PlanRequests.lean ====
section
/-! DEFINITION. The requests to the Plan Store and the Grade Map (chapter 2): plans, bank protection, grade windows. -/

namespace Sys2Proof.Machine

/-! ### Plans -/

/-- The plan slot of a plan number, 0 to 31. -/
def slotOf (b : Byte) : Option (Fin 32) := if h : b.toNat < 32 then some ⟨b.toNat, h⟩ else none

/-- The plan slot `n` replaced in the working copy (R27). -/
def storeSlot (n : Fin 32) (p : Option Plan) (s : State) : State :=
  { s with working := { s.working with plans := s.working.plans.put n p } }

/-- Whether the slot's bank is write-protected (R38). -/
def writeProtected (s : State) (n : Fin 32) : Bool := (s.working.banks.look (bankOf n)).write

/-- The body of a BAD_PLAN reply (R195). -/
def badPlan (e : Nat × PlanFault) : List Byte := reply .badPlan ++ u8 e.1 ++ u8 e.2.code

/-- PLAN WRITE (R31, R34), its body length being right. -/
def handlePlanWrite (number : Byte) (plan : RawPlan) : Handler := fun s =>
  match slotOf number with
  | none => refuse .badField s
  | some n =>
    if writeProtected s n then refuse .protected_ s
    else
      match readPlan plan with
      | .error e => (s, badPlan e)
      | .ok p => accept (storeSlot n (some p)) s

/-- A slot's contents as PLAN READ carries them after the code and the plan number (R36, R195). -/
def slotBytes (readProtected : Bool) : Option Plan → List Byte
  | none => u8 0
  | some p =>
    u8 (if readProtected then 2 else 1) ++ u8 p.name.length ++ p.name ++ u8 (kindCode p.kind) ++ u8 p.steps.length
      ++ (if readProtected then [] else stepsBytes p.steps)

/-- PLAN READ (R36). -/
def handlePlanRead (number : Byte) : Handler :=
  match slotOf number with
  | none => refuse .badField
  | some n =>
    report fun s => [number] ++ slotBytes (s.working.banks.look (bankOf n)).read (s.working.plans.look n)

/-- PLAN ERASE (R35). -/
def handlePlanErase (number : Byte) : Handler :=
  match slotOf number with
  | none => refuse .badField
  | some n => checked (fun s => [(writeProtected s n, .protected_)]) (accept (storeSlot n none))

/-! ### Bank protection -/

/-- Whether a mask names a bank above 3 (R40). -/
def namesNoBank (m : Byte) : Bool := 15 < m.toNat

/-- The banks the masks name set or cleared (R40, R41). -/
def protectBanks (set : Bool) (w r : Byte) (s : State) : State :=
  { s with working :=
    { s.working with banks := Vector.ofFn fun b =>
        { write := if w.getLsbD b.val then set else (s.working.banks.look b).write
          read := if r.getLsbD b.val then set else (s.working.banks.look b).read } } }

/-- PROTECT (R40). -/
def handleProtect (w r : Byte) : Handler :=
  checked (fun _ => [(namesNoBank w || namesNoBank r, .badField)]) (accept (protectBanks true w r))

/-- UNPROTECT (R41). -/
def handleUnprotect (w r : Byte) : Handler :=
  checked (fun s => [(namesNoBank w || namesNoBank r, .badField), (!s.casterLines.maint.isTrue, .noMaint)])
    (accept (protectBanks false w r))

/-! ### Grade windows -/

/-- The window of a window number, 0 to 7. -/
def windowOf (b : Byte) : Option (Fin 8) := if h : b.toNat < 8 then some ⟨b.toNat, h⟩ else none

/-- The window `n` replaced in the working copy. -/
def storeWindow (n : Fin 8) (w : GradeWindow) (s : State) : State :=
  { s with working := { s.working with windows := s.working.windows.put n w } }

/-- The window record of MAP READ (R196). -/
def windowBytes (n : Fin 8) (w : GradeWindow) : List Byte :=
  u8 n.val ++ flag w.enabled ++ u16 w.base ++ u8 w.sizeExp ++ [w.strands.toByte] ++ planFieldByte w.cold
    ++ planFieldByte w.flying ++ planFieldByte w.dip

/-- The window after a MAP WRITE with the plan fields `c`, `f`, `d` (R44). -/
def writtenWindow (old : GradeWindow) (b : WindowBody) (c f d : Option (Fin 32)) : GradeWindow where
  enabled := old.enabled || b.mark == 1
  base := if b.mark = 1 then b.base.toNat else old.base
  sizeExp := b.sizeExp.toNat
  strands := StrandSet.ofByte b.strands
  cold := c
  flying := f
  dip := d

/-- The window MAP WRITE would leave, where its fields are right (R43, R44). -/
def readWindow (s : State) (b : WindowBody) : Option (Fin 8 × GradeWindow) :=
  match windowOf b.window, readPlanField b.cold, readPlanField b.flying, readPlanField b.dip with
  | some n, some c, some f, some d =>
    let w := writtenWindow (s.working.windows.look n) b c f d
    if b.sizeExp.toNat ≤ 12 ∧ b.mark.toNat ≤ 1 ∧ aligned w.base w.sizeExp then some (n, w) else none
  | _, _, _, _ => none

/-- MAP WRITE (R43, R44). -/
def handleMapWrite (b : WindowBody) : Handler := fun s =>
  match readWindow s b with
  | some (n, w) => accept (storeWindow n w) s
  | none => refuse .badField s

/-- MAP DISABLE (R45). -/
def handleMapDisable (window : Byte) : Handler :=
  match windowOf window with
  | none => refuse .badField
  | some n => accept fun s => storeWindow n { s.working.windows.look n with enabled := false } s

/-- MAP READ (R46). -/
def handleMapRead (window : Byte) : Handler :=
  match windowOf window with
  | none => refuse .badField
  | some n => report fun s => windowBytes n (s.working.windows.look n)

/-! ### The commands -/

/-- PLAN WRITE. -/
def execPlanWrite (tag number : Byte) (plan : RawPlan) (s : State) : Host.Outcome State Fault Refusal :=
  request tag 0x0F (handlePlanWrite number plan) s

/-- PLAN READ. -/
def execPlanRead (tag number : Byte) (s : State) : Host.Outcome State Fault Refusal :=
  request tag 0x10 (handlePlanRead number) s

/-- PLAN ERASE. -/
def execPlanErase (tag number : Byte) (s : State) : Host.Outcome State Fault Refusal :=
  request tag 0x11 (handlePlanErase number) s

/-- PROTECT. -/
def execProtect (tag writeMask readMask : Byte) (s : State) : Host.Outcome State Fault Refusal :=
  request tag 0x12 (handleProtect writeMask readMask) s

/-- UNPROTECT. -/
def execUnprotect (tag writeMask readMask : Byte) (s : State) : Host.Outcome State Fault Refusal :=
  request tag 0x13 (handleUnprotect writeMask readMask) s

/-- MAP READ. -/
def execMapRead (tag window : Byte) (s : State) : Host.Outcome State Fault Refusal :=
  request tag 0x14 (handleMapRead window) s

/-- MAP WRITE. -/
def execMapWrite (tag : Byte) (body : WindowBody) (s : State) : Host.Outcome State Fault Refusal :=
  request tag 0x15 (handleMapWrite body) s

/-- MAP DISABLE. -/
def execMapDisable (tag window : Byte) (s : State) : Host.Outcome State Fault Refusal :=
  request tag 0x16 (handleMapDisable window) s

end Sys2Proof.Machine
end

