-- ==== Sys2Proof/Machine/StrandRequests.lean ====
section
/-! DEFINITION. The requests that name a strand: STRAND READ (R192, R197), STRAND SETTINGS (R193), START, ABORT, RESUME,
CLEAR STRAND, SERVICE (R22 to R26), STRAND CONTROL (R122, R123), FAULT READ, FAULT CLEAR (R175, R176), INCLUDE (R99). -/

namespace Sys2Proof.Machine

/-! ### STRAND READ -/

/-- The context's and settings' part of STRAND READ's contents (R197). -/
def contextBytes (s : State) (k : Strand) : List Byte :=
  let c := s.strand k
  let p := s.settingsOf k
  let l := s.levelSet k
  strandByte k ++ u8 (conditionCode c.condition.name)
    ++ u8 (match c.condition with
      | .offline r => offlineCode r
      | .dry | .restarting _ | .casting | .held | .halted _ => 0)
    ++ u8 (match c.condition with
      | .halted h => haltCode h
      | .dry | .restarting _ | .casting | .held | .offline _ => 0)
    ++ u8 (holdFlagsCode c) ++ flag c.driveLost ++ flag c.steel ++ u32 c.holdTimer.elapsed
    ++ flag c.holdTimer.running ++ u8 (checkCode c.check)
    ++ u16 p.grade ++ u8 (classCode p.pourClass) ++ u8 (classCode p.driveClass) ++ u16 p.freezeLimit
    ++ zoneBytes p.holdCooling ++ zoneBytes p.breakoutCooling
    ++ u16 l.target ++ u8 l.lockBand ++ u8 l.unlockBand ++ u8 l.lockCount ++ u8 l.unlockCount

/-- The fault mark, exclusions and lines of STRAND READ (R197). -/
def linesBytes (s : State) (k : Strand) : List Byte :=
  let l := s.strandLines.look k
  flag (s.faults.look k).isSome ++ flag (s.pour.excluded.look k) ++ flag (s.drive.excluded.look k)
    ++ lineBytes l.breakoutAlarm ++ lineBytes l.driveReady ++ lineBytes l.dummyAtMold ++ lineBytes l.steelPresent
    ++ lineBytes l.moldWaterOk

/-- The unit's part of STRAND READ (R197). -/
def unitBytes (u : UnitState) : List Byte :=
  flag u.levelOn ++ flag u.draw ++ flag u.lock ++ u8 u.inCount ++ u8 u.outCount ++ optU16 u.lastDepth
    ++ u8 (controlModeCode u.controlMode) ++ u8 (supervisionCode u.manualChoice) ++ u8 (supervisionCode u.supervisor)
    ++ u8 (stopperCode u.stopper)
    ++ u8 (match u.stopper with
      | .fill n => n
      | .closed | .regulator => 0)
    ++ flag u.driveRun ++ u8 (speedSourceCode u.speedSource) ++ u16 u.setpoint
    ++ optU16 (u.ramp.map (·.target)) ++ u8 ((u.ramp.map (·.rate)).getD 0) ++ optU16 u.lastReference
    ++ zoneBytes u.cooling

/-- The restart's part of STRAND READ (R197): the restart kind alone outside RESTARTING. -/
def restartReadBytes (c : Condition) : List Byte :=
  match c.record? with
  | none => u8 0
  | some r =>
    let p := r.snapshot.plan
    u8 (kindCode r.kind) ++ u8 r.planNumber.val ++ u8 p.name.length ++ p.name ++ u8 (kindCode p.kind)
      ++ u8 p.steps.length ++ u8 r.stepIndex
      ++ u8 (match r.step? with
        | some q => actionCode q.action
        | none => 0)
      ++ u8 (phaseCode r.phase) ++ u32 (r.stepTimer.getD 0) ++ u8 (r.attempt.getD 0)
      ++ flag r.snapshot.readProtected
      ++ (if r.snapshot.readProtected then [] else stepsBytes p.steps)

/-- STRAND READ's contents (R192, R197). -/
def strandReadBytes (k : Strand) (s : State) : List Byte :=
  contextBytes s k ++ linesBytes s k ++ unitBytes (s.unit k) ++ restartReadBytes (s.strand k).condition

/-- STRAND READ (R192). -/
def handleStrandRead (b : Byte) : Handler := namingStrand b fun k => report (strandReadBytes k)

/-! ### STRAND SETTINGS -/

/-- The strand's settings the body carries, where its fields lie in their ranges (R193). -/
def readStrandBody (b : StrandBody) : Option (StrandSettings × LevelParams) :=
  match readClass b.pourClass, readClass b.driveClass with
  | some pc, some dc =>
    let p : StrandSettings :=
      ⟨b.grade.toNat, pc, dc, b.freezeLimit.toNat, readZones b.holdCooling, readZones b.breakoutCooling⟩
    if strandInRange p ∧ levelInRange (bodyLevels b) then some (p, bodyLevels b) else none
  | _, _ => none

/-- A class differs from the stored class while its pool is in use (R102). -/
def classBusy (k : Strand) (p : StrandSettings) (s : State) : Bool :=
  (p.pourClass != (s.settingsOf k).pourClass && s.pour.inUse)
    || (p.driveClass != (s.settingsOf k).driveClass && s.drive.inUse)

/-- The settings and the level parameter set of strand `k` replaced in the working copy (R193). -/
def storeStrand (k : Strand) (p : StrandSettings) (l : LevelParams) (s : State) : State :=
  { s with working := { s.working with strands := s.working.strands.put k p, levels := s.working.levels.put k l } }

/-- A new cooling table reaches the command of a HELD strand, or of one HALTED for BREAKOUT (R2, R121). -/
def coolAfter (k : Strand) (old new : StrandSettings) (s : State) : State :=
  match (s.strand k).condition with
  | .held =>
    if new.holdCooling = old.holdCooling then s else updUnit k (fun u => { u with cooling := new.holdCooling }) s
  | .halted .breakout =>
    if new.breakoutCooling = old.breakoutCooling then s
    else updUnit k (fun u => { u with cooling := new.breakoutCooling }) s
  | _ => s

/-- A new freeze limit is compared with a running hold timer at once (R2). -/
def freezeAfter (k : Strand) (old new : StrandSettings) (s : State) : State :=
  if new.freezeLimit ≠ old.freezeLimit ∧ (s.strand k).holdTimer.running = true
      ∧ new.freezeLimit * 1000 ≤ (s.strand k).holdTimer.elapsed then
    freeze k s
  else s

/-- An accepted STRAND SETTINGS (R2, R193). -/
def applyStrand (k : Strand) (p : StrandSettings) (l : LevelParams) (s : State) : State :=
  freezeAfter k (s.settingsOf k) p (coolAfter k (s.settingsOf k) p (storeStrand k p l s))

/-- STRAND SETTINGS (R193). -/
def handleStrandSettings (b : Byte) (body : StrandBody) : Handler :=
  namingInService b fun k s =>
    match readStrandBody body with
    | none => refuse .badField s
    | some (p, l) =>
      checked (fun s => [(classBusy k p s, .busy), (l != s.levelSet k && (s.unit k).levelOn, .locked)])
        (accept (applyStrand k p l)) s

/-! ### The requests that change a condition -/

/-- START's checks 3 to 7 (R22). -/
def startChecks (k : Strand) (s : State) : List (Bool × ReplyCode) :=
  [((s.strand k).check == .pending, .busy), (s.trip.latched, .tripped),
    ((s.strand k).condition != .dry, .wrongState), ((s.faults.look k).isSome, .faultPending),
    (s.pour.excluded.look k || s.drive.excluded.look k, .excluded)]

/-- START's last check, and its effect (R22). -/
def startCold (k : Strand) : Handler := fun s =>
  match lookupPlan s.working k .cold with
  | some (n, p) => accept (enterRestarting k .cold n p) s
  | none => refuse .noPlan s

/-- START (R22). -/
def handleStart (b : Byte) : Handler := namingInService b fun k => checked (startChecks k) (startCold k)

/-- ABORT (R23). -/
def handleAbort (b : Byte) : Handler :=
  namingInService b fun k =>
    checked (fun s => [((s.strand k).condition.name == .dry || (s.strand k).condition.name == .halted, .wrongState)])
      (accept (abortStrand k 0))

/-- RESUME (R24). -/
def handleResume (b : Byte) : Handler :=
  namingInService b fun k =>
    checked (fun s => [(s.trip.latched, .tripped),
        ((s.strand k).condition != .held || !(s.strand k).heldByOperator, .wrongState)])
      (accept (releaseFlag .operator k))

/-- CLEAR STRAND (R25). -/
def handleClearStrand (b : Byte) : Handler :=
  namingInService b fun k =>
    checked (fun s => [((s.strand k).check == .pending, .busy),
        ((s.strand k).condition.name != .halted, .wrongState), ((s.faults.look k).isSome, .faultPending),
        (s.steelPresent k, .wrongState)])
      (accept (enterDry k))

/-- SERVICE OFF (R26). -/
def serviceOff (k : Strand) : Handler := fun s =>
  match (s.strand k).condition with
  | .dry | .halted _ => accept (enterOffline k) s
  | .restarting _ | .casting | .held => refuse .wrongState s
  | .offline _ => accept id s

/-- SERVICE ON (R26). -/
def serviceOn (k : Strand) : Handler := fun s =>
  match (s.strand k).condition with
  | .offline _ => accept (returnToService k) s
  | .dry | .restarting _ | .casting | .held | .halted _ => accept id s

/-- SERVICE (R26). -/
def handleService (b requested : Byte) : Handler :=
  namingStrand b fun k =>
    checked (fun s => [(requested != 0 && requested != 1, .badField), ((s.strand k).check == .pending, .busy)])
      (if requested = 0 then serviceOff k else serviceOn k)

/-! ### STRAND CONTROL -/

/-- A field of STRAND CONTROL: KEEP 0, or one of two values 1 and 2 (R194). -/
def controlField (b : Byte) : Bool := b.toNat ≤ 2

/-- Whether the level field would change LEVEL-ON (R122). -/
def changesLevel (level : Byte) (u : UnitState) : Bool := (level == 1 && !u.levelOn) || (level == 2 && u.levelOn)

/-- Whether the draw field would change DRAW (R122). -/
def changesDraw (draw : Byte) (u : UnitState) : Bool := (draw == 1 && !u.draw) || (draw == 2 && u.draw)

/-- STRAND CONTROL's checks 3 to 7 (R122). -/
def controlChecks (k : Strand) (level draw mode choice : Byte) (s : State) : List (Bool × ReplyCode) :=
  [(!(controlField level && controlField draw && controlField mode && controlField choice), .badField),
    ((s.strand k).condition != .casting, .wrongState),
    (changesLevel level (s.unit k) && changesDraw draw (s.unit k), .interlock),
    (level == 2 && (s.unit k).draw, .interlock),
    (draw == 1 && !drawAllowed (s.levelSet k) (s.unit k), .interlock)]

/-- The manual choice field (R123, item 1). -/
def applyChoice (choice : Byte) (u : UnitState) : UnitState :=
  if choice = 1 then u.setChoice .acquire else if choice = 2 then u.setChoice .track else u

/-- The control mode field (R123, item 2). -/
def applyMode (mode : Byte) (u : UnitState) : UnitState :=
  if mode = 1 then u.setMode .auto else if mode = 2 then u.setMode .manual else u

/-- An accepted STRAND CONTROL (R123). -/
def control (k : Strand) (draw mode choice : Byte) (s : State) : State :=
  let t := updUnit k (applyMode mode) (updUnit k (applyChoice choice) s)
  if draw = 2 then enterHeld k .operator t else t

/-- STRAND CONTROL (R122). -/
def handleStrandControl (b level draw mode choice : Byte) : Handler :=
  namingInService b fun k => checked (controlChecks k level draw mode choice) (accept (control k draw mode choice))

/-! ### Fault records and exclusion -/

/-- FAULT READ (R175). -/
def handleFaultRead (b : Byte) : Handler :=
  namingStrand b fun k => report fun s => strandByte k ++ faultBytes (s.faults.look k)

/-- FAULT CLEAR's effect (R176). -/
def clearFault (k : Strand) (s : State) : State :=
  match s.faults.look k with
  | some _ => pend (.fault k) { s with faults := s.faults.put k none }
  | none => s

/-- FAULT CLEAR (R176). -/
def handleFaultClear (b : Byte) : Handler := namingInService b fun k => accept (clearFault k)

/-- Strand `k` is removed from the exclusion set of pool `p`, where the request names the pool (R99). -/
def includeIn (p : PoolId) (named : Bool) (k : Strand) (s : State) : State :=
  if named ∧ (s.pool p).excluded.look k = true then
    pend .arbiter (modPool p (fun x => { x with excluded := x.excluded.erase k }) s)
  else s

/-- INCLUDE (R99). -/
def handleInclude (b pools : Byte) : Handler :=
  namingInService b fun k =>
    checked (fun _ => [(pools == 0 || 3 < pools.toNat, .badField)])
      (accept fun s => includeIn .drive (pools.getLsbD 1) k (includeIn .pour (pools.getLsbD 0) k s))

/-! ### The commands -/

/-- STRAND READ. -/
def execStrandRead (tag strand : Byte) (s : State) : Host.Outcome State Fault Refusal :=
  request tag 0x05 (handleStrandRead strand) s

/-- STRAND SETTINGS. -/
def execStrandSettings (tag strand : Byte) (body : StrandBody) (s : State) : Host.Outcome State Fault Refusal :=
  request tag 0x06 (handleStrandSettings strand body) s

/-- START. -/
def execStart (tag strand : Byte) (s : State) : Host.Outcome State Fault Refusal :=
  request tag 0x07 (handleStart strand) s

/-- ABORT. -/
def execAbort (tag strand : Byte) (s : State) : Host.Outcome State Fault Refusal :=
  request tag 0x08 (handleAbort strand) s

/-- STRAND CONTROL. -/
def execStrandControl (tag strand level draw mode choice : Byte) (s : State) : Host.Outcome State Fault Refusal :=
  request tag 0x09 (handleStrandControl strand level draw mode choice) s

/-- RESUME. -/
def execResume (tag strand : Byte) (s : State) : Host.Outcome State Fault Refusal :=
  request tag 0x0A (handleResume strand) s

/-- CLEAR STRAND. -/
def execClearStrand (tag strand : Byte) (s : State) : Host.Outcome State Fault Refusal :=
  request tag 0x0B (handleClearStrand strand) s

/-- SERVICE. -/
def execService (tag strand requested : Byte) (s : State) : Host.Outcome State Fault Refusal :=
  request tag 0x0C (handleService strand requested) s

/-- FAULT READ. -/
def execFaultRead (tag strand : Byte) (s : State) : Host.Outcome State Fault Refusal :=
  request tag 0x0D (handleFaultRead strand) s

/-- FAULT CLEAR. -/
def execFaultClear (tag strand : Byte) (s : State) : Host.Outcome State Fault Refusal :=
  request tag 0x0E (handleFaultClear strand) s

/-- INCLUDE. -/
def execInclude (tag strand pools : Byte) (s : State) : Host.Outcome State Fault Refusal :=
  request tag 0x19 (handleInclude strand pools) s

end Sys2Proof.Machine
end

