-- ==== Sys2Proof/Machine/Receive.lean ====
section
/-! DEFINITION. The receiver's byte (R185), and a received request checked and handed to its owner (R187, section 10.3): the
same handlers as the request commands'. -/

namespace Sys2Proof.Machine

/-! ### Bodies -/

/-- A request without a body. -/
def bare (h : Handler) : List Byte → Handler
  | [] => h
  | _ :: _ => refuse .badField

/-- A body of one byte. -/
def oneByte (h : Byte → Handler) : List Byte → Handler
  | [a] => h a
  | _ => refuse .badField

/-- A body of two bytes. -/
def twoBytes (h : Byte → Byte → Handler) : List Byte → Handler
  | [a, b] => h a b
  | _ => refuse .badField

/-- SETTINGS WRITE's body of 11 bytes (R191). -/
def receiveSettingsWrite : List Byte → Handler
  | [n, o0, o1, l0, l1, r0, r1, st, a, b, m] =>
    handleSettingsWrite ⟨n, half o0 o1, half l0 l1, half r0 r1, st, a, b, m⟩
  | _ => refuse .badField

/-- STRAND SETTINGS' body of 21 bytes (R193). -/
def receiveStrandSettings : List Byte → Handler
  | [k, g0, g1, pc, dc, f0, f1, h1, h2, h3, h4, b1, b2, b3, b4, t0, t1, lb, ub, lc, uc] =>
    handleStrandSettings k
      ⟨half g0 g1, pc, dc, half f0 f1, #v[h1, h2, h3, h4], #v[b1, b2, b3, b4], half t0 t1, lb, ub, lc, uc⟩
  | _ => refuse .badField

/-- STRAND CONTROL's body of 5 bytes (R122). -/
def receiveStrandControl : List Byte → Handler
  | [k, level, draw, mode, choice] => handleStrandControl k level draw mode choice
  | _ => refuse .badField

/-- A step record of 12 bytes (R195). -/
def readRawStep (l : List Byte) : RawStep where
  action := l.getD 0 0
  time := half (l.getD 1 0) (l.getD 2 0)
  params := Vector.ofFn fun i => l.getD (3 + i.val) 0

/-- `n` step records. -/
def readRawSteps : Nat → List Byte → List RawStep
  | 0, _ => []
  | n + 1, l => readRawStep l :: readRawSteps n (l.drop 12)

/-- The plan record after the name: kind, step count and steps, where the length is right (R31, R187, R195). -/
def readRawTail (name : List Byte) : List Byte → Option RawPlan
  | kind :: count :: rest =>
    if rest.length = 12 * count.toNat then some ⟨name, kind, readRawSteps count.toNat rest⟩ else none
  | _ => none

/-- PLAN WRITE's body (R31, R195). -/
def receivePlanWrite : List Byte → Handler
  | number :: len :: rest =>
    if rest.length < len.toNat then refuse .badField
    else
      match readRawTail (rest.take len.toNat) (rest.drop len.toNat) with
      | some plan => handlePlanWrite number plan
      | none => refuse .badField
  | _ => refuse .badField

/-- MAP WRITE's body of 9 bytes (R196). -/
def receiveMapWrite : List Byte → Handler
  | [w, mark, b0, b1, e, m, c, f, d] => handleMapWrite ⟨w, mark, half b0 b1, e, m, c, f, d⟩
  | _ => refuse .badField

/-- ARBITER WRITE's body: 9 bytes for POUR, 6 for DRIVE (R101, R187). Every other body is BAD_FIELD, by its length or by
its pool. -/
def receiveArbiterWrite : List Byte → Handler
  | [p, cap, mon, resp, rise, t0, t1, pol, sel] =>
    if p = 1 then handleArbiterWrite (.pour cap mon resp rise (half t0 t1) pol sel) else refuse .badField
  | [p, cap, mon, resp, t0, t1] =>
    if p = 2 then handleArbiterWrite (.drive cap mon resp (half t0 t1)) else refuse .badField
  | _ => refuse .badField

/-- NOTICE LEVELS' body of 29 bytes (R180). -/
def receiveNoticeLevels (l : List Byte) : Handler :=
  if l.length = 29 then handleNoticeLevels (Vector.ofFn fun n => l.getD n.val 0) else refuse .badField

/-- NOTICE CLEAR's body of 4 bytes (R182). -/
def receiveNoticeClear : List Byte → Handler
  | [a, b, c, d] => handleNoticeClear (d ++ c ++ b ++ a)
  | _ => refuse .badField

/-! ### The request table (section 10.3) -/

/-- A request of a kind, its body as received (R187). -/
def receivedRequest (kind : Byte) (body : List Byte) : Handler :=
  match kind.toNat with
  | 0x01 => bare handleStatus body
  | 0x02 => bare handleSettingsRead body
  | 0x03 => receiveSettingsWrite body
  | 0x04 => bare handleStore body
  | 0x05 => oneByte handleStrandRead body
  | 0x06 => receiveStrandSettings body
  | 0x07 => oneByte handleStart body
  | 0x08 => oneByte handleAbort body
  | 0x09 => receiveStrandControl body
  | 0x0A => oneByte handleResume body
  | 0x0B => oneByte handleClearStrand body
  | 0x0C => twoBytes handleService body
  | 0x0D => oneByte handleFaultRead body
  | 0x0E => oneByte handleFaultClear body
  | 0x0F => receivePlanWrite body
  | 0x10 => oneByte handlePlanRead body
  | 0x11 => oneByte handlePlanErase body
  | 0x12 => twoBytes handleProtect body
  | 0x13 => twoBytes handleUnprotect body
  | 0x14 => oneByte handleMapRead body
  | 0x15 => receiveMapWrite body
  | 0x16 => oneByte handleMapDisable body
  | 0x17 => oneByte handleArbiterRead body
  | 0x18 => receiveArbiterWrite body
  | 0x19 => twoBytes handleInclude body
  | 0x1A => bare handleTundishChange body
  | 0x1B => bare handleTundishInPlace body
  | 0x1C => bare handleTundishAbort body
  | 0x1D => bare handleTripArm body
  | 0x1E => bare handleTripReset body
  | 0x1F => receiveNoticeLevels body
  | 0x20 => bare handleNoticePoll body
  | 0x21 => receiveNoticeClear body
  | _ => refuse .unknownKind

/-! ### The receiver -/

/-- What an assembly does (R185, R186): a complete frame is handed on as a request. -/
def takeAssembly (bytes : List Byte) (s : State) : State :=
  match assemble bytes with
  | .partialFrame => { s with receiver := .assembling bytes Config.gapTime }
  | .discarded => { s with receiver := .hunting }
  | .complete tag kind body => handleRequest tag kind (receivedRequest kind body) { s with receiver := .hunting }

/-- A received byte (R185). -/
def receiveByte (b : Byte) (s : State) : State :=
  match s.receiver with
  | .hunting => if b = Config.sync then { s with receiver := .assembling [] Config.gapTime } else s
  | .assembling bytes _ => takeAssembly (bytes ++ [b]) s

/-- RECEIVED_BYTE. -/
def execReceivedByte (b : Byte) (s : State) : Host.Outcome State Fault Refusal := .next (receiveByte b s)

end Sys2Proof.Machine
end

