-- ==== Sys2Proof/Machine/Dispatch.lean ====
section
/-! DEFINITION. One arm for each command. -/

namespace Sys2Proof.Machine

def exec (i : Instr) (s : State) : Host.Outcome State Fault Refusal :=
  match i with
  | .reset => Sys2Proof.Machine.execReset s
  | .receivedByte b => Sys2Proof.Machine.execReceivedByte b s
  | .gapTimerExpiry => Sys2Proof.Machine.execGapTimerExpiry s
  | .transmissionEnd => Sys2Proof.Machine.execTransmissionEnd s
  | .status tag => Sys2Proof.Machine.execStatus tag s
  | .settingsRead tag => Sys2Proof.Machine.execSettingsRead tag s
  | .settingsWrite tag body => Sys2Proof.Machine.execSettingsWrite tag body s
  | .store tag => Sys2Proof.Machine.execStore tag s
  | .storeWriteEnd written => Sys2Proof.Machine.execStoreWriteEnd written s
  | .strandRead tag strand => Sys2Proof.Machine.execStrandRead tag strand s
  | .strandSettings tag strand body => Sys2Proof.Machine.execStrandSettings tag strand body s
  | .start tag strand => Sys2Proof.Machine.execStart tag strand s
  | .abort tag strand => Sys2Proof.Machine.execAbort tag strand s
  | .strandControl tag strand level draw mode choice => Sys2Proof.Machine.execStrandControl tag strand level draw mode choice s
  | .resume tag strand => Sys2Proof.Machine.execResume tag strand s
  | .clearStrand tag strand => Sys2Proof.Machine.execClearStrand tag strand s
  | .service tag strand requested => Sys2Proof.Machine.execService tag strand requested s
  | .faultRead tag strand => Sys2Proof.Machine.execFaultRead tag strand s
  | .faultClear tag strand => Sys2Proof.Machine.execFaultClear tag strand s
  | .planWrite tag number plan => Sys2Proof.Machine.execPlanWrite tag number plan s
  | .planRead tag number => Sys2Proof.Machine.execPlanRead tag number s
  | .planErase tag number => Sys2Proof.Machine.execPlanErase tag number s
  | .protect tag writeMask readMask => Sys2Proof.Machine.execProtect tag writeMask readMask s
  | .unprotect tag writeMask readMask => Sys2Proof.Machine.execUnprotect tag writeMask readMask s
  | .mapRead tag window => Sys2Proof.Machine.execMapRead tag window s
  | .mapWrite tag body => Sys2Proof.Machine.execMapWrite tag body s
  | .mapDisable tag window => Sys2Proof.Machine.execMapDisable tag window s
  | .arbiterRead tag pool => Sys2Proof.Machine.execArbiterRead tag pool s
  | .arbiterWrite tag body => Sys2Proof.Machine.execArbiterWrite tag body s
  | .includeStrand tag strand pools => Sys2Proof.Machine.execInclude tag strand pools s
  | .tundishChange tag => Sys2Proof.Machine.execTundishChange tag s
  | .tundishInPlace tag => Sys2Proof.Machine.execTundishInPlace tag s
  | .tundishAbort tag => Sys2Proof.Machine.execTundishAbort tag s
  | .tripArm tag => Sys2Proof.Machine.execTripArm tag s
  | .tripReset tag => Sys2Proof.Machine.execTripReset tag s
  | .noticeLevels tag levels => Sys2Proof.Machine.execNoticeLevels tag levels s
  | .noticePoll tag => Sys2Proof.Machine.execNoticePoll tag s
  | .noticeClear tag mask => Sys2Proof.Machine.execNoticeClear tag mask s
  | .filterSample samples => Sys2Proof.Machine.execFilterSample samples s
  | .steelPresentFirstLevel strand level => Sys2Proof.Machine.execSteelPresentFirstLevel strand level s
  | .supplyOkFirstLevel level stamp => Sys2Proof.Machine.execSupplyOkFirstLevel level stamp s
  | .breakoutAlarmRise strand => Sys2Proof.Machine.execBreakoutAlarmRise strand s
  | .driveReadyFall strand => Sys2Proof.Machine.execDriveReadyFall strand s
  | .driveReadyRise strand => Sys2Proof.Machine.execDriveReadyRise strand s
  | .permissiveLevelChange line => Sys2Proof.Machine.execPermissiveLevelChange line s
  | .supplyOkFall stamp => Sys2Proof.Machine.execSupplyOkFall stamp s
  | .supplyOkRise stamp => Sys2Proof.Machine.execSupplyOkRise stamp s
  | .tcRequestRise => Sys2Proof.Machine.execTcRequestRise s
  | .tundishInPlaceRise => Sys2Proof.Machine.execTundishInPlaceRise s
  | .measurementInstant channels => Sys2Proof.Machine.execMeasurementInstant channels s
  | .depthSampleUnit strand sample => Sys2Proof.Machine.execDepthSampleUnit strand sample s
  | .depthSampleOpenStep strand sample => Sys2Proof.Machine.execDepthSampleOpenStep strand sample s
  | .speedReferenceSample strand sample => Sys2Proof.Machine.execSpeedReferenceSample strand sample s
  | .weightSample sample => Sys2Proof.Machine.execWeightSample sample s
  | .tripSample asserted => Sys2Proof.Machine.execTripSample asserted s
  | .holdTimerExpiry strand => Sys2Proof.Machine.execHoldTimerExpiry strand s
  | .stepTimerExpiry strand => Sys2Proof.Machine.execStepTimerExpiry strand s
  | .preChargeEnd strand => Sys2Proof.Machine.execPreChargeEnd strand s
  | .retryDwellEnd strand => Sys2Proof.Machine.execRetryDwellEnd strand s
  | .inrushHoldEnd strand => Sys2Proof.Machine.execInrushHoldEnd strand s
  | .pourResponseExpiry strand => Sys2Proof.Machine.execPourResponseExpiry strand s
  | .driveResponseExpiry strand => Sys2Proof.Machine.execDriveResponseExpiry strand s
  | .rampTargetReached strand => Sys2Proof.Machine.execRampTargetReached strand s
  | .rideThroughExpiry => Sys2Proof.Machine.execRideThroughExpiry s
  | .settleExpiry => Sys2Proof.Machine.execSettleExpiry s
  | .stepFailureClaim strand claim => Sys2Proof.Machine.execStepFailureClaim strand claim s
  | .restartCompleteClaim strand restart => Sys2Proof.Machine.execRestartCompleteClaim strand restart s

end Sys2Proof.Machine
end

