-- ==== Sys2Proof/Machine/Idle.lean ====
section
/-! DEFINITION. What a step does when no command waits (log 6, 8). -/

namespace Sys2Proof.Machine

/-- One step with no command waiting: the event taken, or a millisecond, or an event that no longer stands passed over. -/
def idleStep (s : State) : Host.Outcome State Fault Refusal :=
  match idle s with
  | (some e, t) => exec e t
  | (none, t) => .next t

end Sys2Proof.Machine
end

