-- ==== Sys2Proof/WellFormed.lean ====
section
/-! DEFINITION. Which commands a sender can send: the operands lie where the link's frame, the field port and the
claims' senders can put them. A request's own field checks are no part of this; they are answered by a reply code. -/

namespace Sys2Proof

/-- A plan record fits a frame: its name length is one byte, its step count is one byte, and the body of
4 + name length + 12 x step count bytes is within 400 (R184, R195). -/
def RawPlan.wellFormed (p : RawPlan) : Bool :=
  p.name.length ≤ 255 && p.steps.length ≤ 255 && 4 + p.name.length + 12 * p.steps.length ≤ Config.maxBody

/-- A routed sample that is VALID lies in its channel's range (R167). -/
def Sample.within (limit : Nat) : Sample → Bool
  | .valid v => v ≤ limit
  | .invalid => true

/-- The body of ARBITER WRITE names a pool by its own form: a pool byte 1 or 2 has that pool's settings (R187). -/
def ArbiterBody.wellFormed : ArbiterBody → Bool
  | .other pool => pool != 1 && pool != 2
  | _ => true

/-- A failure claim's failure is one a step of its action can have: NO_FLOW after 1 to 4 attempts, STEP_TIMEOUT of
an action that fails so (R55, R56). -/
def StepFailure.wellFormed : StepFailure → Bool
  | .stepTimeout a =>
    match a with
    | .check _ | .cool _ | .wait => false
    | _ => true
  | .noFlow n => 1 ≤ n && n ≤ 4
  | .permissive _ | .excluded _ | .driveTimeout | .lockDisabled | .interlock => true

/-- The commands a sender can send. -/
def Instr.wellFormed : Instr → Bool
  | .planWrite _ _ plan => plan.wellFormed
  | .arbiterWrite _ body => body.wellFormed
  | .depthSampleUnit _ v | .depthSampleOpenStep _ v => v.within 300
  | .speedReferenceSample _ v => v.within 600
  | .weightSample v => v.within 800
  | .stepFailureClaim _ c => c.failure.wellFormed
  | .reset | .receivedByte _ | .gapTimerExpiry | .transmissionEnd | .status _ | .settingsRead _
  | .settingsWrite _ _ | .store _ | .storeWriteEnd _ | .strandRead _ _ | .strandSettings _ _ _
  | .start _ _ | .abort _ _ | .strandControl _ _ _ _ _ _ | .resume _ _ | .clearStrand _ _
  | .service _ _ _ | .faultRead _ _ | .faultClear _ _ | .planRead _ _ | .planErase _ _
  | .protect _ _ _ | .unprotect _ _ _ | .mapRead _ _ | .mapWrite _ _ | .mapDisable _ _
  | .arbiterRead _ _ | .includeStrand _ _ _ | .tundishChange _ | .tundishInPlace _
  | .tundishAbort _ | .tripArm _ | .tripReset _ | .noticeLevels _ _ | .noticePoll _
  | .noticeClear _ _ | .filterSample _ | .steelPresentFirstLevel _ _ | .supplyOkFirstLevel _ _
  | .breakoutAlarmRise _ | .driveReadyFall _ | .driveReadyRise _ | .permissiveLevelChange _
  | .supplyOkFall _ | .supplyOkRise _ | .tcRequestRise | .tundishInPlaceRise
  | .measurementInstant _ | .tripSample _ | .holdTimerExpiry _ | .stepTimerExpiry _
  | .preChargeEnd _ | .retryDwellEnd _ | .inrushHoldEnd _ | .pourResponseExpiry _
  | .driveResponseExpiry _ | .rampTargetReached _ | .rideThroughExpiry | .settleExpiry
  | .restartCompleteClaim _ _ => true

end Sys2Proof
end

