-- ==== Sys2Proof/Safety.lean ====
section
/-! DEFINITION. What the statements speak of: the frames the part owes the host, what is unchanged, and the laws that every
step keeps. -/

namespace Sys2Proof.Machine

/-! ### Outcomes and frames -/

/-- The frames on their way to the host: the one in transmission, then the reply queue (R178, R186). -/
def State.outgoing (s : State) : List Frame := s.sending.toList ++ s.replies

/-- `t` answers the request `tag`, `kind` with `body` (R186). -/
def Answered (s t : State) (tag kind : Byte) (body : List Byte) : Prop :=
  t.outgoing = s.outgoing ++ [⟨tag, kind + 0x80, body⟩]

/-- The reply queue has a place (R186). -/
def State.queueFree (s : State) : Prop := s.replies.length < 4

/-- The source's notice is owed: its flag is set, or it is in transmission with the contents of this state (R178, R179). -/
def Noticed (t : State) (src : Source) : Prop :=
  t.noticePending.look src.number = true ∨ t.sending = some (noticeFrame t src.number)

/-- `t` is `s` but for the frames on their way to the host. -/
def SameButReply (s t : State) : Prop := t = { s with sending := t.sending, replies := t.replies }

/-- `t` is `s` but for the frames on their way to the host and the pending flags. -/
def SameButNotices (s t : State) : Prop :=
  t = { s with sending := t.sending, replies := t.replies, noticePending := t.noticePending }

/-- `t` is `s` but for one setting `w` of the working copy and the frames on their way to the host. -/
def SameButSettings (s t : State) (w : Settings) : Prop :=
  t = { s with working := w, sending := t.sending, replies := t.replies }

/-- What no event of the plant, of a timer or of the Restart Sequencer changes: the stored image, the store, the field port,
the lines, the time, the configured count, the receiver and the waiting commands. -/
def SameOutside (s t : State) : Prop :=
  t.pending = s.pending ∧ t.now = s.now ∧ t.configuredCount = s.configuredCount ∧ t.strandLines = s.strandLines ∧
  t.casterLines = s.casterLines ∧ t.instants = s.instants ∧ t.port = s.port ∧ t.receiver = s.receiver ∧
  t.image = s.image ∧ t.defaulted = s.defaulted ∧ t.storeState = s.storeState

/-- Every setting but the level parameter sets is the same. -/
def SameSettings (s t : State) : Prop := t.working = { s.working with levels := t.working.levels }

/-- What a change of strand `k`'s condition leaves of strand `j`: its condition but for the course of its restart, its steel,
hold flags, hold timer and start-up check. -/
def SameStrand (s t : State) (j : Strand) : Prop :=
  (t.strand j).condition.name = (s.strand j).condition.name ∧ (t.strand j).steel = (s.strand j).steel ∧
  (t.strand j).heldForTundish = (s.strand j).heldForTundish ∧ (t.strand j).heldForDip = (s.strand j).heldForDip ∧
  (t.strand j).heldByOperator = (s.strand j).heldByOperator ∧ (t.strand j).holdTimer = (s.strand j).holdTimer ∧
  (t.strand j).check = (s.strand j).check

/-- Every strand but `k` keeps its condition, and its fault record. -/
def OtherStrands (s t : State) (k : Strand) : Prop :=
  ∀ j : Strand, j ≠ k → SameStrand s t j ∧ t.faults.look j = s.faults.look j

/-- The outputs of a strand at rest with the cooling `z`: everything closed and off (R109). -/
def restOutputs (z : Zones) : FieldOutputs := ⟨.opening 0, false, true, false, 0, z⟩

/-- Strand `k` is at rest: its unit's engagements, stopper, setpoint and cooling are those of a condition claim (R109). -/
def AtRest (t : State) (k : Strand) (z : Zones) : Prop :=
  (t.unit k).draw = false ∧ (t.unit k).levelOn = false ∧ (t.unit k).driveRun = false ∧ (t.unit k).stopper = .closed ∧
  (t.unit k).setpoint = 0 ∧ (t.unit k).ramp = none ∧ (t.unit k).lock = false ∧ (t.unit k).cooling = z

/-- Strand `k` has left the Slot Arbiter: it holds no slot and waits for none (R86). -/
def Withdrawn (t : State) (k : Strand) : Prop :=
  t.pour.holds k = false ∧ t.drive.holds k = false ∧ t.pour.waiting k = false ∧ t.drive.waiting k = false

/-- Whether the strand is HELD or RESTARTING. -/
def Condition.heldOrRestarting : Condition → Bool
  | .held | .restarting _ => true
  | .dry | .casting | .halted _ | .offline _ => false

/-- Whether the strand is RESTARTING or CASTING. -/
def Condition.restartingOrCasting : Condition → Bool
  | .casting | .restarting _ => true
  | .dry | .held | .halted _ | .offline _ => false

/-- Whether the strand is DRY, HALTED or OFFLINE. -/
def Condition.waitsForHost : Condition → Bool
  | .dry | .halted _ | .offline _ => true
  | .restarting _ | .casting | .held => false

/-! ### Request frames -/

/-- The byte that names strand `k` on the link. -/
def nameByte (k : Strand) : Byte := BitVec.ofNat 8 k.number

/-- A two-byte field on the link (R184). -/
def halfBytes (h : Half) : List Byte := u16 h.toNat

/-- A step record on the link (R195). -/
def rawStepBytes (r : RawStep) : List Byte := [r.action] ++ halfBytes r.time ++ r.params.toList

/-- PLAN WRITE's body (R195). -/
def rawPlanBytes (number : Byte) (p : RawPlan) : List Byte :=
  [number] ++ u8 p.name.length ++ p.name ++ [p.kind] ++ u8 p.steps.length ++ p.steps.flatMap rawStepBytes

/-- SETTINGS WRITE's body (R191). -/
def casterBodyBytes (b : CasterBody) : List Byte :=
  [b.strandCount] ++ halfBytes b.openThreshold ++ halfBytes b.lowThreshold ++ halfBytes b.rideThrough
    ++ [b.settle, b.periodA, b.periodB, b.measurement]

/-- STRAND SETTINGS' body after the strand (R193). -/
def strandBodyBytes (b : StrandBody) : List Byte :=
  halfBytes b.grade ++ [b.pourClass, b.driveClass] ++ halfBytes b.freezeLimit ++ b.holdCooling.toList
    ++ b.breakoutCooling.toList ++ halfBytes b.target ++ [b.lockBand, b.unlockBand, b.lockCount, b.unlockCount]

/-- MAP WRITE's body (R196). -/
def windowBodyBytes (b : WindowBody) : List Byte :=
  [b.window, b.mark] ++ halfBytes b.base ++ [b.sizeExp, b.strands, b.cold, b.flying, b.dip]

/-- ARBITER WRITE's body (R101, R187): 9 bytes where it names no pool. -/
def arbiterBodyBytes : ArbiterBody → List Byte
  | .pour cap mon resp rise pre pol sel => [1, cap, mon, resp, rise] ++ halfBytes pre ++ [pol, sel]
  | .drive cap mon resp inrush => [2, cap, mon, resp] ++ halfBytes inrush
  | .other pool => [pool, 0, 0, 0, 0, 0, 0, 0, 0]

/-- NOTICE CLEAR's body (R182). -/
def maskBytes (m : BitVec 32) : List Byte := u32 m.toNat

/-- The frame of a request command (section 10.3); a command that is no request has none. -/
def requestFrame? : Instr → Option Frame
  | .status tag => some ⟨tag, 0x01, []⟩
  | .settingsRead tag => some ⟨tag, 0x02, []⟩
  | .settingsWrite tag b => some ⟨tag, 0x03, casterBodyBytes b⟩
  | .store tag => some ⟨tag, 0x04, []⟩
  | .strandRead tag k => some ⟨tag, 0x05, [k]⟩
  | .strandSettings tag k b => some ⟨tag, 0x06, k :: strandBodyBytes b⟩
  | .start tag k => some ⟨tag, 0x07, [k]⟩
  | .abort tag k => some ⟨tag, 0x08, [k]⟩
  | .strandControl tag k level draw mode choice => some ⟨tag, 0x09, [k, level, draw, mode, choice]⟩
  | .resume tag k => some ⟨tag, 0x0A, [k]⟩
  | .clearStrand tag k => some ⟨tag, 0x0B, [k]⟩
  | .service tag k r => some ⟨tag, 0x0C, [k, r]⟩
  | .faultRead tag k => some ⟨tag, 0x0D, [k]⟩
  | .faultClear tag k => some ⟨tag, 0x0E, [k]⟩
  | .planWrite tag n p => some ⟨tag, 0x0F, rawPlanBytes n p⟩
  | .planRead tag n => some ⟨tag, 0x10, [n]⟩
  | .planErase tag n => some ⟨tag, 0x11, [n]⟩
  | .protect tag w r => some ⟨tag, 0x12, [w, r]⟩
  | .unprotect tag w r => some ⟨tag, 0x13, [w, r]⟩
  | .mapRead tag w => some ⟨tag, 0x14, [w]⟩
  | .mapWrite tag b => some ⟨tag, 0x15, windowBodyBytes b⟩
  | .mapDisable tag w => some ⟨tag, 0x16, [w]⟩
  | .arbiterRead tag p => some ⟨tag, 0x17, [p]⟩
  | .arbiterWrite tag b => some ⟨tag, 0x18, arbiterBodyBytes b⟩
  | .includeStrand tag k p => some ⟨tag, 0x19, [k, p]⟩
  | .tundishChange tag => some ⟨tag, 0x1A, []⟩
  | .tundishInPlace tag => some ⟨tag, 0x1B, []⟩
  | .tundishAbort tag => some ⟨tag, 0x1C, []⟩
  | .tripArm tag => some ⟨tag, 0x1D, []⟩
  | .tripReset tag => some ⟨tag, 0x1E, []⟩
  | .noticeLevels tag l => some ⟨tag, 0x1F, l.toList⟩
  | .noticePoll tag => some ⟨tag, 0x20, []⟩
  | .noticeClear tag m => some ⟨tag, 0x21, maskBytes m⟩
  | _ => none

/-- The length a request's body must have, where the kind alone fixes it (section 10.3); PLAN WRITE's and ARBITER WRITE's
lengths depend on the body. -/
def requiredLength? (kind : Byte) : Option Nat :=
  match kind.toNat with
  | 0x01 | 0x02 | 0x04 | 0x1A | 0x1B | 0x1C | 0x1D | 0x1E | 0x20 => some 0
  | 0x05 | 0x07 | 0x08 | 0x0A | 0x0B | 0x0D | 0x0E | 0x10 | 0x11 | 0x14 | 0x16 | 0x17 => some 1
  | 0x0C | 0x12 | 0x13 | 0x19 => some 2
  | 0x21 => some 4
  | 0x09 => some 5
  | 0x15 => some 9
  | 0x03 => some 11
  | 0x06 => some 21
  | 0x1F => some 29
  | _ => none

/-- The strand byte of a request that names a strand, and whether the request serves an OFFLINE strand (R187). -/
def namedStrand? : Instr → Option (Byte × Bool)
  | .strandRead _ k | .faultRead _ k | .service _ k _ => some (k, true)
  | .strandSettings _ k _ | .start _ k | .abort _ k | .strandControl _ k _ _ _ _ | .resume _ k | .clearStrand _ k
  | .faultClear _ k | .includeStrand _ k _ => some (k, false)
  | _ => none

/-- Commands executed one after another. -/
def runAll : List Instr → State → Host.Outcome State Fault Refusal
  | [], s => .next s
  | c :: rest, s =>
    match exec c s with
    | .next t => runAll rest t
    | .fault f => .fault f
    | .refused r => .refused r

/-- The step record of a step (R195). -/
def rawStepOf (p : Step) : RawStep where
  action := BitVec.ofNat 8 (actionCode p.action)
  time := BitVec.ofNat 16 p.time
  params := Vector.ofFn fun i => (padTo 9 (paramBytes p.action)).getD i.val 0

/-- The plan record of a plan (R195). -/
def rawPlanOf (p : Plan) : RawPlan := ⟨p.name, BitVec.ofNat 8 (kindCode p.kind), p.steps.map rawStepOf⟩

/-- Whether the step of index `i`, from 0, has an action that satisfies `q`. -/
def actionAt (p : Plan) (i : Nat) (q : Action → Bool) : Bool :=
  match p.steps[i]? with
  | some x => q x.action
  | none => false

/-! ### Effects on a strand -/

/-- What a change at strand `k` leaves alone: what no event changes, the settings but the level sets, the other strands'
conditions and fault records, the Supply Monitor, the Trip Latch and the exclusion sets. -/
def LocalTo (s t : State) (k : Strand) : Prop :=
  SameOutside s t ∧ SameSettings s t ∧ OtherStrands s t k ∧ t.supply = s.supply ∧ t.trip = s.trip ∧
  t.pour.excluded = s.pour.excluded ∧ t.drive.excluded = s.drive.excluded

/-- Strand `k` has been stopped in the condition `c`: its hold flags clear, its hold timer stopped, its unit at rest with
the cooling `z`, its slots and entries gone, its STATE notice owed (R5, R12, R13). -/
def Stopped (t : State) (k : Strand) (c : Condition) (z : Zones) : Prop :=
  (t.strand k).condition = c ∧ (t.strand k).anyHold = false ∧ (t.strand k).holdTimer.running = false ∧ AtRest t k z ∧
  Withdrawn t k ∧ Noticed t (.state k)

/-- Strand `k` has ended as R12 and R13 give: DRY from RESTARTING without steel, else HALTED with the cause; its steel and
its hold time are kept in HALTED. -/
def Ends (s t : State) (k : Strand) (cause : HaltCause) : Prop :=
  if (s.record? k).isSome ∧ (s.strand k).steel = false then
    Stopped t k .dry ⟨0, 0, 0, 0⟩ ∧ (t.strand k).steel = false ∧ (t.strand k).driveLost = false
  else
    Stopped t k (.halted cause) (if cause = .breakout then (s.settingsOf k).breakoutCooling else ⟨0, 0, 0, 0⟩) ∧
    (t.strand k).steel = (s.strand k).steel ∧ (t.strand k).driveLost = (s.strand k).driveLost ∧
    (t.strand k).holdTimer.elapsed = (s.strand k).holdTimer.elapsed

/-- The restart of strand `k` has moved past the step it was at. -/
def Advanced (s t : State) (k : Strand) : Prop :=
  ∃ r, s.record? k = some r ∧ ∃ r', t.record? k = some r' ∧
    r'.serial = r.serial ∧ r'.snapshot = r.snapshot ∧ r.stepIndex < r'.stepIndex

/-- Strand `k`'s current step has been stopped and its failure claimed (R56). -/
def Failed (s t : State) (k : Strand) (f : StepFailure) : Prop :=
  ∃ r, s.record? k = some r ∧
    t.record? k = some { r with stepTimer := none, phase := .noPhase, phaseTimer := none, riseReference := none } ∧
    Instr.stepFailureClaim k ⟨r.serial, f⟩ ∈ t.inFlight

/-- A line's run after a change of its class's period: kept where the period is the same, else lost (R166). -/
def runAfter (same : Bool) (l : Line) : Line := if same then l else { l with runLevel := none, runLength := 0 }

/-! ### Timers -/

/-- Whether the timer or the sampling instant behind an event has run out; none for an event that has neither (R10, R55,
R62, R65, R68, R94, R96, R119, R146, R149, R160, R168, R185). -/
def ranOut (t : State) : Instr → Option Bool
  | .holdTimerExpiry k => some ((t.strand k).holdTimer.running = true ∧
      (t.settingsOf k).freezeLimit * 1000 ≤ (t.strand k).holdTimer.elapsed)
  | .stepTimerExpiry k => some ((t.record? k).bind (·.stepTimer) = some 0)
  | .preChargeEnd k => some (t.phase k = .preCharge ∧ (t.record? k).bind (·.phaseTimer) = some 0)
  | .retryDwellEnd k => some (t.phase k = .retryDwell ∧ (t.record? k).bind (·.phaseTimer) = some 0)
  | .inrushHoldEnd k => some (t.phase k = .inrush ∧ (t.record? k).bind (·.phaseTimer) = some 0)
  | .pourResponseExpiry k => some ((t.pour.grant? k).map (·.response) = some (.running 0))
  | .driveResponseExpiry k => some ((t.drive.grant? k).map (·.response) = some (.running 0))
  | .rampTargetReached k => some (match (t.unit k).ramp with
      | some x => 1000 * ((x.start - x.target) + (x.target - x.start)) ≤ x.rate * x.elapsed
      | none => false)
  | .rideThroughExpiry => some (t.supply.rideTimer = some 0)
  | .settleExpiry => some (t.supply.settleTimer = some 0)
  | .gapTimerExpiry => some (match t.receiver with
      | .assembling _ gap => gap = 0
      | .hunting => false)
  | .filterSample (.classA _) => some (t.instants.classA = 0)
  | .filterSample (.classB _) => some (t.instants.classB = 0)
  | .measurementInstant _ => some (t.instants.measurement = 0)
  | _ => none

/-- Whether an event carries what the port presents, where it is a sample. -/
def presents (p : PortInputs) : Instr → Bool
  | .filterSample (.classA l) => l = p.classA
  | .filterSample (.classB l) => l = p.classB
  | .measurementInstant c => c = p.channels
  | .tripSample b => b = p.trip
  | _ => true

/-! ### The beginning of a step -/

/-- The record of a step just begun: its timer loaded, for OPEN the attempt 1 (R53). -/
def RestartRecord.begun (r : RestartRecord) (q : Step) : RestartRecord :=
  { r with
    stepTimer := some (q.time * 100)
    attempt := match q.action with
      | .opening _ _ _ _ => some 1
      | _ => none }

/-- Strand `k` RESTARTING by `r`, its other fields kept. -/
def withRecord (k : Strand) (r : RestartRecord) (s : State) : State :=
  { s with strands := s.strands.put k { s.strand k with condition := .restarting r } }

/-- `s` with strand `k`'s step `q` begun and in the phase `ph`, in which only the step timer runs. -/
def begunIn (s : State) (k : Strand) (r : RestartRecord) (q : Step) (ph : Phase) : State :=
  withRecord k { r.begun q with phase := ph, phaseTimer := none, riseReference := none } s

/-- `s` with strand `k`'s step `q` begun and failed at once: stopped, and the failure claimed (R53, R56). -/
def begunFailed (s : State) (k : Strand) (r : RestartRecord) (q : Step) (f : StepFailure) : State :=
  { withRecord k { r.begun q with stepTimer := none, phase := .noPhase, phaseTimer := none, riseReference := none } s with
    inFlight := s.inFlight ++ [.stepFailureClaim k ⟨r.serial, f⟩] }

/-- CHECK (R58): WAITING; it completes at once where every line its mask names is accepted true. -/
def BeginsCheck (s : State) (k : Strand) (r : RestartRecord) (q : Step) (m : PermissiveMask) (t : State) (l : List Task) :
    Prop :=
  let lines := s.strandLines.look k
  t = begunIn s k r q .waiting ∧
  l = if (m.moldWater = true → lines.moldWaterOk.accepted = some true) ∧
        (m.dummyAtMold = true → lines.dummyAtMold.accepted = some true) ∧
        (m.hydOk = true → s.casterLines.hydOk.accepted = some true) ∧
        (m.driveReady = true → lines.driveReady.accepted = some true) then [.completeStep k] else []

/-- A slot request of DRIVE or OPEN (R60, R64, R81, R82): EXCLUDED at once, or SLOT_WAIT with an entry behind those of its
class, the grant choice to be made. -/
def BeginsRequest (s : State) (k : Strand) (r : RestartRecord) (q : Step) (p : PoolId) (t : State) (l : List Task) : Prop :=
  let x := s.pool p
  let entry : WaitEntry := ⟨k, classFor s k p, x.arrivals⟩
  let high := fun e : WaitEntry => e.cls == .high
  let waits :=
    if entry.cls = .high then x.waits.takeWhile high ++ [entry] ++ x.waits.dropWhile high else x.waits ++ [entry]
  if x.excluded.look k = true then t = begunFailed s k r q (.excluded p) ∧ l = []
  else
    t = setPool p { x with waits := waits, arrivals := x.arrivals + 1 } (begunIn s k r q .slotWait) ∧ l = [.grantChoice p]

/-- LEVEL (R70, R108, R113): LOCK_DISABLED at once with a lock band of 0; otherwise the set of source PLAN is written, the
mode is AUTO, LEVEL-ON on, the stopper the regulator's but for a fill opening, and the phase LOCKING. LOCK and the counts
stay only with source STRAND, LEVEL-ON on and AUTO already; the LOCK notice is pending where LOCK or the mode changed. -/
def BeginsLevel (s : State) (k : Strand) (r : RestartRecord) (q : Step) (src : LevelSource) (t : State) (l : List Task) :
    Prop :=
  let u := s.unit k
  let set := match src with
    | .plan p => p
    | .strand => s.levelSet k
  let keep : Bool := src == .strand && u.levelOn && u.controlMode == .auto
  let u' : UnitState := { u with
    levelOn := true
    controlMode := .auto
    lock := keep && u.lock
    inCount := if keep then u.inCount else 0
    outCount := if keep then u.outCount else 0
    stopper := match u.stopper with
      | .fill n => .fill n
      | .closed | .regulator => .regulator }
  let t' := begunIn { s with
    units := s.units.put k u', working := { s.working with levels := s.working.levels.put k set } } k r q .locking
  if set.lockBand = 0 then t = begunFailed s k r q .lockDisabled ∧ l = []
  else
    t = (if u'.lock ≠ u.lock ∨ u.controlMode ≠ .auto then pend (.lock k) t' else t') ∧
    l = if u'.lock = true then [.completeStep k] else []

/-- DRAW (R73, R118): with DRAW engaged a ramp from the setpoint as it stands; else, with LEVEL-ON on and a lock band, DRAW
engaged, drive run on, the source RAMP and a ramp from the start speed; else INTERLOCK at once. The step is in RAMPING, and
completes at once where the setpoint stands at the target. -/
def BeginsDraw (s : State) (k : Strand) (r : RestartRecord) (q : Step) (start target rate : Nat) (t : State)
    (l : List Task) : Prop :=
  let u := s.unit k
  let origin := if u.draw then u.setpoint else start
  let ramp : Option Ramp := if origin = target then none else some ⟨origin, target, rate, 0⟩
  let u' : UnitState :=
    if u.draw then { u with ramp := ramp }
    else { u with draw := true, driveRun := true, setpoint := start, speedSource := .ramp, ramp := ramp }
  if u.draw = true ∨ (u.levelOn = true ∧ (s.levelSet k).lockBand ≠ 0) then
    t = begunIn { s with units := s.units.put k u' } k r q .ramping ∧ l = if origin = target then [.completeStep k] else []
  else t = begunFailed s k r q .interlock ∧ l = []

/-- Strand `k`'s step `q` begins (R53): its timer is loaded, for OPEN the attempt is 1, and the action begins as its own
section gives; `t` is the state after it and `l` what the action goes on with. -/
def BeginsAs (s : State) (k : Strand) (r : RestartRecord) (q : Step) (t : State) (l : List Task) : Prop :=
  match q.action with
  | .check m => BeginsCheck s k r q m t l
  | .cool z =>
    t = withRecord k (r.begun q) { s with units := s.units.put k { s.unit k with cooling := z } } ∧ l = [.completeStep k]
  | .drive => BeginsRequest s k r q .drive t l
  | .opening _ _ _ _ => BeginsRequest s k r q .pour t l
  | .level src => BeginsLevel s k r q src t l
  | .wait => t = begunIn s k r q .dwell ∧ l = []
  | .draw start target rate => BeginsDraw s k r q start target rate t l
  | .handover => t = begunIn s k r q .referenceWait ∧ l = []

/-! ### The laws -/

/-- The link's law (R178, R186): at most four replies wait, and a free transmitter has nothing to send. -/
def linkLaw (s : State) : Bool :=
  s.replies.length ≤ 4 &&
    (s.sending.isSome || (s.replies.isEmpty && (List.finRange 29).all fun n => !eligible s n))

/-- The unit's law for one strand (R106, R107, R110, R116): DRAW engaged implies LEVEL-ON on and the strand RESTARTING or
CASTING; LEVEL-ON on goes with a lock band that is not 0; an inactive detector has LOCK clear and both counts 0; the
stopper is with the regulator exactly where LEVEL-ON is on and no fill opening governs. -/
def unitLawAt (s : State) (k : Strand) : Bool :=
  let u := s.unit k
  (!u.draw || (u.levelOn && (s.strand k).condition.restartingOrCasting))
    && (!u.levelOn || (s.levelSet k).lockBand != 0)
    && (detectorActive (s.levelSet k) u || (!u.lock && u.inCount == 0 && u.outCount == 0))
    && (match u.stopper with
      | .fill _ => true
      | .regulator => u.levelOn
      | .closed => !u.levelOn)

/-- The unit's law. -/
def unitLaw (s : State) : Bool := allStrands.all (unitLawAt s)

/-- The pools' law (R83, R87, R126, R141): POUR is open exactly while the Coordinator is STEADY or RELEASING, DRIVE exactly
while the Monitor is SUPPLIED, and no pool has more holders than its capacity. -/
def poolLaw (s : State) : Bool :=
  (s.pour.isOpen == (s.coordinator.state == .steady || s.coordinator.state == .releasing))
    && (s.drive.isOpen == (s.supply.state == .supplied))
    && s.pour.holderCount ≤ s.working.pour.capacity && s.drive.holderCount ≤ s.working.drive.capacity

/-- The Fault Log's law (R12, R171): a strand whose fault record is valid is DRY, HALTED or OFFLINE. -/
def faultLaw (s : State) : Bool :=
  allStrands.all fun k => (s.faults.look k).isNone || (s.strand k).condition.waitsForHost

/-- The hold law for one strand (R7, R9): HELD exactly with a hold flag; the hold timer runs in HELD, and otherwise only in
RESTARTING. -/
def holdLawAt (c : StrandContext) : Bool :=
  (c.anyHold == (c.condition == .held))
    && (!c.holdTimer.running || c.condition.heldOrRestarting)
    && (c.condition != .held || c.holdTimer.running)

/-- The hold law. -/
def holdLaw (s : State) : Bool := allStrands.all fun k => holdLawAt (s.strand k)

/-- The Supply Monitor's law (R141): each timer and time stamp is present exactly in its states. -/
def supplyLaw (s : State) : Bool :=
  let m := s.supply
  (m.rideTimer.isSome == (m.state == .riding)) && (m.settleTimer.isSome == (m.state == .settling))
    && (m.settleStart.isSome == (m.state == .settling))
    && (m.outageStart.isSome == (m.state == .riding || m.state == .settling || (m.state == .down && m.check == .done)))
    && (m.check == .done || m.state == .down)

/-- The law of one line (R159, R161): the run length is 0 exactly without a run level, at most 3, and a run of 3 has been
accepted. -/
def lineLaw (l : Line) : Bool :=
  l.runLength ≤ 3 && (l.runLength == 0) == l.runLevel.isNone && (l.runLength != 3 || l.accepted == l.runLevel)

/-- The law of a strand's five lines. -/
def strandLinesLaw (l : StrandLines) : Bool :=
  lineLaw l.breakoutAlarm && lineLaw l.driveReady && lineLaw l.dummyAtMold && lineLaw l.steelPresent
    && lineLaw l.moldWaterOk

/-- The Input Filter's law. -/
def filterLaw (s : State) : Bool :=
  (allStrands.all fun k => strandLinesLaw (s.strandLines.look k))
    && lineLaw s.casterLines.supplyOk && lineLaw s.casterLines.tcRequest && lineLaw s.casterLines.tundishInPlace
    && lineLaw s.casterLines.hydOk && lineLaw s.casterLines.maint

/-- Whether a condition's snapshot, where it has one, lies in the plan ranges. -/
def snapshotInRange (c : Condition) : Bool :=
  match c.record? with
  | some r => planInRange r.snapshot.plan
  | none => true

/-- The settings' law (R198): every setting of the working copy, and every plan in a snapshot, lies in its range. -/
def settingsLaw (s : State) : Bool :=
  settingsInRange s.working && allStrands.all fun k => snapshotInRange (s.strand k).condition

/-- The release set's law (R134): empty unless the Coordinator is RELEASING, and then every member HELD or RESTARTING. -/
def releaseLaw (s : State) : Bool :=
  (s.coordinator.state == .releasing || s.coordinator.releaseSet.isEmpty)
    && allStrands.all fun k =>
      !s.coordinator.releaseSet.look k || (s.strand k).condition.heldOrRestarting

/-- The law of a strand above the configured count (R3, R104): OFFLINE UNCONFIGURED with its reset values, its outputs
at their reset values, no fault record and none of its three notice sources pending. -/
def unfittedLawAt (s : State) (k : Strand) : Bool :=
  s.isConfigured k ||
    (s.strand k == StrandContext.initial false && s.unit k == UnitState.initial && (s.faults.look k).isNone
      && !s.noticePending.look (Source.state k).number && !s.noticePending.look (Source.lock k).number
      && !s.noticePending.look (Source.fault k).number)

/-- The law of the strands above the configured count. -/
def unfittedLaw (s : State) : Bool := allStrands.all (unfittedLawAt s)

/-- A strand waits for a slot or holds one only while it is RESTARTING (R81). -/
def slotLawAt (s : State) (k : Strand) : Bool :=
  (s.strand k).condition.record?.isSome
    || (!s.pour.holds k && !s.drive.holds k && !s.pour.waiting k && !s.drive.waiting k)

/-- The slots' law. -/
def slotLaw (s : State) : Bool := allStrands.all (slotLawAt s)

/-! ### The wait lists -/

/-- Whether entry `a` stands before entry `b` in grant order (R81). -/
def grantedBefore (a b : WaitEntry) : Bool :=
  match a.cls, b.cls with
  | .high, .low => true
  | .low, .high => false
  | .high, .high | .low, .low => a.arrival < b.arrival

/-- Whether a wait list stands in grant order (R81). -/
def inGrantOrder : List WaitEntry → Bool
  | [] => true
  | e :: rest => rest.all (grantedBefore e) && inGrantOrder rest

/-- The law of one pool's wait list: in grant order, and every arrival before the next one. -/
def poolWaitLaw (p : Pool) : Bool := inGrantOrder p.waits && p.waits.all (·.arrival < p.arrivals)

/-- The wait lists' law (R81). -/
def waitLaw (s : State) : Bool := poolWaitLaw s.pour && poolWaitLaw s.drive

/-- An open pool with a free slot has nobody waiting (R83). -/
def poolServed (s : State) (p : PoolId) : Bool :=
  !(s.pool p).isOpen || (s.pool p).waits.isEmpty || capacity s p ≤ (s.pool p).holderCount

/-- The grant choice's law (R83). -/
def servedLaw (s : State) : Bool := poolServed s .pour && poolServed s .drive

end Sys2Proof.Machine
end

