-- ==== Sys2Proof/Certificates/Slice0/Obligations.lean ====
section
/-! DEFINITION. The statements for the provers. -/

open Sys2Proof Sys2Proof.Machine

/-! ### The step, the clock and reset -/

/-- The command at the front of the queue is taken, with the queue's rest left (first in, first out). -/
def Obligations.StepRunsFrontCommand : Prop :=
  ∀ (c : Instr) (rest : List Instr) (s : State),
    step { s with pending := c :: rest } = exec c { s with pending := rest }

/-- With no command waiting and events under way, the block takes one that is the first of its stream and leaves the rest in
order; among several streams the choice is free, and counted. The event is executed whole in the state the ones before left
(R57, R69, R124, R164, R169), or dropped where its timer no longer stands. With nothing under way a millisecond passes. All
this is the model's choice (log 4, 5, 6, 8, 28).
A millisecond: the time stamp and a running hold timer move up by one; a step, phase, response, ride-through, settle and gap
timer and the three sampling instants down by one; a ramp moves in proportion to its time, rounded toward its start, and
stands where it was in its last millisecond (R9, R51, R92, R119, R141, R160, R168, R185; log 21). What has then run out is
under way, and the TRIP line is sampled (R10, R55, R62, R65, R68, R94, R96, R146, R149, R154); nothing else changes. -/
def Obligations.IdleStepTakesEventOrMillisecond : Prop :=
  ∀ (e : Instr) (k : Strand) (p : PoolId) (s : State),
    (s.pending = [] →
     (s.inFlight = [] → step s = .next (tick s)) ∧
     (s.inFlight = [e] → stillDue s e = true → step s = exec e { s with inFlight := [] }) ∧
     (s.inFlight = [e] → stillDue s e = false → step s = .next { s with inFlight := [] }) ∧
     (s.inFlight ≠ [] → ∃ i x, s.inFlight[i]? = some x ∧
       (∀ j y, j < i → s.inFlight[j]? = some y → stream y ≠ stream x) ∧
       let others := s.inFlight.any (stream · != stream x)
       let s' := { s with
         inFlight := s.inFlight.eraseIdx i, choices := if others then s.choices + 1 else s.choices }
       step s = if stillDue s x = true then exec x s' else .next s')) ∧
    (let t := tick s
     let due := t.inFlight.drop s.inFlight.length
     t = { s with
       now := s.now + 1
       strands := t.strands
       units := t.units
       pour := t.pour
       drive := t.drive
       supply := { s.supply with
         rideTimer := s.supply.rideTimer.map (· - 1), settleTimer := s.supply.settleTimer.map (· - 1) }
       receiver := match s.receiver with
         | .assembling bytes gap => .assembling bytes (gap - 1)
         | .hunting => .hunting
       instants := ⟨s.instants.classA - 1, s.instants.classB - 1, s.instants.measurement - 1⟩
       inFlight := s.inFlight ++ due } ∧
     t.strand k = { s.strand k with
       condition := match (s.strand k).condition with
         | .restarting r => .restarting { r with
             stepTimer := r.stepTimer.map (· - 1), phaseTimer := r.phaseTimer.map (· - 1) }
         | c => c
       holdTimer :=
         if (s.strand k).holdTimer.running then ⟨(s.strand k).holdTimer.elapsed + 1, true⟩ else (s.strand k).holdTimer } ∧
     t.unit k = (match (s.unit k).ramp with
       | none => s.unit k
       | some x =>
         let moved := x.rate * (x.elapsed + 1) / 1000
         { s.unit k with
           ramp := some { x with elapsed := x.elapsed + 1 }
           setpoint :=
             if 1000 * ((x.start - x.target) + (x.target - x.start)) ≤ x.rate * (x.elapsed + 1) then (s.unit k).setpoint
             else if x.start ≤ x.target then x.start + moved else x.start - moved }) ∧
     t.pool p = { s.pool p with holders := (t.pool p).holders } ∧
     (t.pool p).grant? k = ((s.pool p).grant? k).map (fun g => { g with
       response := match g.response with
         | .running n => .running (n - 1)
         | x => x }) ∧
     due.Nodup ∧
     (e ∈ due ↔ (ranOut t e = some true ∨ ∃ b, e = .tripSample b) ∧ presents s.port e = true) ∧
     stillDue s e = (ranOut s e).getD true)

/-- What start-up leaves, whatever the settings, the image and the plant's inputs (the reset columns of R1, R79, R104, R125,
R141, R153, R159; R171, R177, R185, R186, R199). -/
def Obligations.ResetLeavesRunTimeState : Prop :=
  ∀ (w : Settings) (d : Bool) (i : Image) (p : PortInputs) (k : Strand) (n : Fin 29),
    let s := State.started w d i p
    (s.strand k =
      if k.val < w.caster.strandCount then ⟨.dry, false, false, false, false, false, ⟨0, false⟩, .pending⟩
      else ⟨.offline .unconfigured, false, false, false, false, false, ⟨0, false⟩, .done⟩) ∧
    s.outputs k = restOutputs ⟨0, 0, 0, 0⟩ ∧
    s.unit k = ⟨false, false, false, 0, 0, none, .auto, .acquire, .closed, false, .ramp, 0, none, none, ⟨0, 0, 0, 0⟩⟩ ∧
    s.pour.isOpen = true ∧ s.drive.isOpen = false ∧ s.pour.holds k = false ∧ s.drive.holds k = false ∧
    s.pour.waits = [] ∧ s.drive.waits = [] ∧ s.pour.excluded.look k = false ∧ s.drive.excluded.look k = false ∧
    s.lastGranted = none ∧
    s.coordinator.state = .steady ∧ s.coordinator.releaseSet.look k = false ∧ s.coordinator.lowWeight = false ∧
    s.coordinator.lastWeight = none ∧
    s.supply = ⟨.down, .pending, none, none, none, none, none⟩ ∧ s.trip = ⟨false, false, false⟩ ∧
    s.strandLines.look k = ⟨⟨none, none, 0, .ok⟩, ⟨none, none, 0, .ok⟩, ⟨none, none, 0, .ok⟩, ⟨none, none, 0, .ok⟩,
      ⟨none, none, 0, .ok⟩⟩ ∧
    s.casterLines = ⟨⟨none, none, 0, .ok⟩, ⟨none, none, 0, .ok⟩, ⟨none, none, 0, .ok⟩, ⟨none, none, 0, .ok⟩,
      ⟨none, none, 0, .ok⟩⟩ ∧
    s.faults.look k = none ∧ s.noticePending.look n = false ∧ s.receiver = .hunting ∧ s.replies = [] ∧
    s.sending = none ∧ s.storeState = .idle ∧ s.now = 0 ∧ s.configuredCount = w.caster.strandCount

/-- RESET starts the part anew from its image (R4, R183, R198, R199): a good image gives the settings, a bad one the
defaults and the defaulted flag, and a write that a reset cuts off leaves a bad image. The queue, the plant's inputs and the
model's own counters are kept: the model's choice (log 19).
STORE captures the whole working copy, or is BUSY while WRITING; the write's end compares what was written with the
capture, keeps it as the image and makes the STORE notice pending; in any other state it finds nothing to do (R199).
The model's own reading or choice stands in log 3, 10, 11, 31 (the comparison covers the CRC). -/
def Obligations.StoreAndResetKeepTheImage : Prop :=
  ∀ (w capture : Settings) (tag : Byte) (written : Image) (s : State),
    (exec .reset s = .next
       { State.started (loadImage (imageAtReset s)).1 (loadImage (imageAtReset s)).2 (imageAtReset s) s.port with
         pending := s.pending, nextSerial := s.nextSerial, choices := s.choices } ∧
     (settingsInRange w = true → loadImage (.holds w true) = (w, false)) ∧
     (settingsInRange w = false → loadImage (.holds w true) = (Config.defaultSettings, true)) ∧
     loadImage (.holds w false) = (Config.defaultSettings, true) ∧
     (s.storeState = .writing capture → loadImage (imageAtReset s) = (Config.defaultSettings, true)) ∧
     (s.storeState = .idle ∨ s.storeState = .failed → imageAtReset s = s.image)) ∧
    ((s.queueFree → s.storeState = .writing capture →
       ∃ t, exec (.store tag) s = .next t ∧ Answered s t tag 0x04 [0x01] ∧ SameButReply s t) ∧
     (s.queueFree → s.storeState = .idle ∨ s.storeState = .failed →
       ∃ t, exec (.store tag) s = .next t ∧ Answered s t tag 0x04 [0x00] ∧
         t = { s with storeState := .writing s.working, sending := t.sending, replies := t.replies }) ∧
     (s.storeState = .writing capture →
       ∃ t, exec (.storeWriteEnd written) s = .next t ∧ Noticed t .store ∧
         t = { s with
           image := written
           storeState := if written = .holds capture true then .idle else .failed
           defaulted := if written = .holds capture true then false else s.defaulted
           noticePending := t.noticePending
           sending := t.sending
           replies := t.replies }) ∧
     (s.storeState = .idle ∨ s.storeState = .failed →
       exec (.storeWriteEnd written) s = .next (noticeChoice s)))

/-- The laws hold right after reset. -/
def Obligations.LawsHoldAtReset : Prop :=
  linkLaw State.reset = true ∧ unitLaw State.reset = true ∧ poolLaw State.reset = true ∧ faultLaw State.reset = true ∧
  holdLaw State.reset = true ∧ supplyLaw State.reset = true ∧ filterLaw State.reset = true ∧
  settingsLaw State.reset = true ∧ releaseLaw State.reset = true ∧ unfittedLaw State.reset = true ∧
  slotLaw State.reset = true ∧ waitLaw State.reset = true ∧ servedLaw State.reset = true

/-! ### The link -/

/-- The receiver (R185): HUNTING waits for 0xA7; ASSEMBLING adds the byte, discards a frame longer than 400 or with a wrong
CRC, and its gap timer's expiry discards what is there. A whole frame is discarded at a full reply queue; at any other an
unknown kind is UNKNOWN_KIND and a wrong body length BAD_FIELD (R186, R187). PLAN WRITE's length is the one its name length and step count call for (R31,
R195); ARBITER WRITE's 9 for POUR, 6 for DRIVE, and a pool that is neither is BAD_FIELD at any length (R101).
The model's own reading or choice stands in log 11 (one choice at a command's end), 17 (the reply's kind to an unknown kind
of 0x80 or above) and 18 (a body too short to name its length). -/
def Obligations.ReceiverAssembles : Prop :=
  ∀ (s : State) (b lo hi : Byte) (bytes body : List Byte) (tag kind c0 c1 : Byte) (gap : Nat),
    (s.receiver = .hunting → b ≠ 0xA7 → exec (.receivedByte b) s = .next s) ∧
    (s.receiver = .hunting → b = 0xA7 → exec (.receivedByte b) s = .next { s with receiver := .assembling [] 5 }) ∧
    (s.receiver = .assembling bytes gap → assemble (bytes ++ [b]) = .partialFrame →
      exec (.receivedByte b) s = .next { s with receiver := .assembling (bytes ++ [b]) 5 }) ∧
    (s.receiver = .assembling bytes gap → assemble (bytes ++ [b]) = .discarded →
      exec (.receivedByte b) s = .next { s with receiver := .hunting }) ∧
    (400 < (half lo hi).toNat → assemble [lo, hi] = .discarded) ∧
    (body.length ≤ 400 →
      assemble ([BitVec.ofNat 8 body.length, BitVec.ofNat 8 (body.length / 256), tag, kind] ++ body ++ [c0, c1]) =
        if half c0 c1 = crc ([BitVec.ofNat 8 body.length, BitVec.ofNat 8 (body.length / 256), tag, kind] ++ body) then
          .complete tag kind body
        else .discarded) ∧
    exec .gapTimerExpiry s = .next (noticeChoice { s with receiver := .hunting }) ∧
    (s.receiver = .assembling bytes gap → assemble (bytes ++ [b]) = .complete tag kind body →
      let s' := { s with receiver := .hunting }
      (4 ≤ s.replies.length → exec (.receivedByte b) s = .next s') ∧
      (s.queueFree → kind = 0 ∨ 0x21 < kind.toNat →
        ∃ t, exec (.receivedByte b) s = .next t ∧ Answered s' t tag kind [0x02] ∧ SameButReply s' t) ∧
      (∀ n, s.queueFree → requiredLength? kind = some n → body.length ≠ n →
        ∃ t, exec (.receivedByte b) s = .next t ∧ Answered s' t tag kind [0x03] ∧ SameButReply s' t) ∧
      (s.queueFree → kind = 0x0F →
        (body.length < 4 ∨ (∃ n, body[1]?.map (·.toNat) = some n ∧
          ∀ c, body[3 + n]?.map (·.toNat) = some c → body.length ≠ 4 + n + 12 * c)) →
        ∃ t, exec (.receivedByte b) s = .next t ∧ Answered s' t tag kind [0x03] ∧ SameButReply s' t) ∧
      (s.queueFree → kind = 0x18 →
        (body.head? = some 1 → body.length ≠ 9) → (body.head? = some 2 → body.length ≠ 6) →
        ∃ t, exec (.receivedByte b) s = .next t ∧ Answered s' t tag kind [0x03] ∧ SameButReply s' t))

/-- A request's frame, sent byte by byte to a HUNTING receiver, does exactly what the request command does: no
field of any of the 33 requests is lost or misplaced between the line and the handler (R184 to R187, section 10.3).
The model's own reading or choice stands in log 20. -/
def Obligations.RequestFrameIsTheCommand : Prop :=
  ∀ (i : Instr) (f : Frame) (s : State), requestFrame? i = some f → i.wellFormed = true → s.receiver = .hunting →
    runAll (f.wire.map .receivedByte) s = exec i s

/-- A request at a full reply queue is discarded; at any other it is answered once, by a reply with its tag, its kind plus
0x80 and a code first; a refused one changes nothing and carries its code alone, but for BAD_PLAN (R186).
The model's own reading or choice stands in log 20. -/
def Obligations.RequestIsAnsweredOnce : Prop :=
  ∀ (i : Instr) (f : Frame) (s : State), requestFrame? i = some f →
    (4 ≤ s.replies.length → exec i s = .next s) ∧
    (s.queueFree → ∃ t r, exec i s = .next t ∧ t.outgoing = s.outgoing ++ [r] ∧
      r.tag = f.tag ∧ r.kind = f.kind + 0x80 ∧ r.body ≠ [] ∧
      (r.body.head? ≠ some 0x00 → SameButReply s t ∧
        r.body.length = if r.body.head? = some 0x0E then 3 else 1))

/-- The common checks of the requests that name a strand (R187): number 0 is BAD_FIELD, a number above the configured count
NOT_FITTED, and an OFFLINE strand WRONG_STATE but for STRAND READ, FAULT READ and SERVICE. -/
def Obligations.StrandNumbersAreChecked : Prop :=
  ∀ (i : Instr) (f : Frame) (b : Byte) (reads : Bool) (k : Strand) (s : State),
    requestFrame? i = some f → namedStrand? i = some (b, reads) → s.queueFree →
    (b = 0 → ∃ t, exec i s = .next t ∧ Answered s t f.tag f.kind [0x03] ∧ SameButReply s t) ∧
    (b ≠ 0 → s.configuredCount < b.toNat →
      ∃ t, exec i s = .next t ∧ Answered s t f.tag f.kind [0x0A] ∧ SameButReply s t) ∧
    (b = nameByte k → s.isConfigured k = true → reads = false → (s.strand k).condition.isOffline = true →
      ∃ t, exec i s = .next t ∧ Answered s t f.tag f.kind [0x04] ∧ SameButReply s t)

/-- STATUS, SETTINGS READ and NOTICE POLL report and change nothing (R181, R189, R190, R197).
STRAND READ and FAULT READ report a configured strand, OFFLINE or not, and change nothing; STRAND READ's body ends with
a restart kind 0 outside RESTARTING and never passes 400 bytes (R175, R192, R196, R197).
PLAN READ, MAP READ and ARBITER READ report and change nothing; a read-protected plan keeps its steps to itself (R36,
R39, R46, R100). -/
def Obligations.ReadsReport : Prop :=
  ∀ (tag : Byte) (k : Strand) (n : Fin 32) (m : Fin 8) (p : PoolId) (s : State),
    (s.queueFree →
     (∃ t, exec (.status tag) s = .next t ∧ Answered s t tag 0x01 ([0x00] ++ statusBytes s) ∧ SameButReply s t) ∧
     (statusBytes s).length = 47 ∧
     (statusBytes s)[39 + k.val]? = some (BitVec.ofNat 8 (conditionCode (s.strand k).condition.name)) ∧
     (∃ t, exec (.settingsRead tag) s = .next t ∧
       Answered s t tag 0x02
         ([0x00] ++ u8 s.working.caster.strandCount ++ u16 s.working.caster.openThreshold
           ++ u16 s.working.caster.lowThreshold ++ u16 s.working.caster.rideThrough ++ u8 s.working.caster.settle
           ++ u8 s.working.caster.periodA ++ u8 s.working.caster.periodB ++ u8 s.working.caster.measurement) ∧
       SameButReply s t) ∧
     (∃ t, exec (.noticePoll tag) s = .next t ∧
       Answered s t tag 0x20 ([0x00] ++ pendingBytes s ++ s.working.noticeLevels.toList.map (BitVec.ofNat 8)) ∧
       SameButReply s t) ∧
     (pendingBytes s).length = 4) ∧
    (s.queueFree → s.isConfigured k = true →
     (∃ t, exec (.strandRead tag (nameByte k)) s = .next t ∧
       Answered s t tag 0x05 ([0x00] ++ strandReadBytes k s) ∧ SameButReply s t) ∧
     (s.record? k = none → (strandReadBytes k s).length = 72 ∧ (strandReadBytes k s).getLast? = some 0) ∧
     (settingsLaw s = true → (strandReadBytes k s).length ≤ 399) ∧
     (∃ t, exec (.faultRead tag (nameByte k)) s = .next t ∧
       Answered s t tag 0x0D
         ([0x00, nameByte k] ++ (match s.faults.look k with
           | none => [0]
           | some f => [1, BitVec.ofNat 8 (faultCodeNumber f.code), BitVec.ofNat 8 (conditionCode f.condition),
               (match f.plan with | some p => BitVec.ofNat 8 p.val | none => 0xFF),
               BitVec.ofNat 8 (f.step.getD 0)] ++ u32 f.stamp.toNat ++ u16 f.detail ++ [if f.multiple then 1 else 0])) ∧
       SameButReply s t)) ∧
    (s.queueFree →
     (∃ t, exec (.planRead tag (BitVec.ofNat 8 n.val)) s = .next t ∧
       Answered s t tag 0x10
         ([0x00, BitVec.ofNat 8 n.val] ++ (match s.working.plans.look n with
           | none => [0]
           | some q =>
             [if (s.working.banks.look (bankOf n)).read then 2 else 1, BitVec.ofNat 8 q.name.length] ++ q.name
               ++ [BitVec.ofNat 8 (kindCode q.kind), BitVec.ofNat 8 q.steps.length]
               ++ (if (s.working.banks.look (bankOf n)).read then [] else q.steps.flatMap stepBytes))) ∧
       SameButReply s t) ∧
     (∃ t, exec (.mapRead tag (BitVec.ofNat 8 m.val)) s = .next t ∧
       Answered s t tag 0x14 ([0x00] ++ windowBytes m (s.working.windows.look m)) ∧ SameButReply s t) ∧
     (∃ t, exec (.arbiterRead tag (BitVec.ofNat 8 (poolCode p))) s = .next t ∧
       Answered s t tag 0x17 ([0x00] ++ arbiterBytes p s) ∧ SameButReply s t))

/-! ### The settings and the store -/

/-- An accepted SETTINGS WRITE replaces every caster setting; a class whose period changes loses its runs and is sampled next
one new period later; a changed measurement period moves the next instant; nothing else changes (R166, R168, R191). -/
def Obligations.SettingsWriteStores : Prop :=
  ∀ (tag : Byte) (b : CasterBody) (k : Strand) (s : State), s.queueFree →
    let old := s.working.caster
    (casterInRange (readCasterBody b) = false →
      ∃ t, exec (.settingsWrite tag b) s = .next t ∧ Answered s t tag 0x03 [0x03] ∧ SameButReply s t) ∧
    (casterInRange (readCasterBody b) = true →
      ∃ t, exec (.settingsWrite tag b) s = .next t ∧ Answered s t tag 0x03 [0x00] ∧
        t = { s with
          working := { s.working with
            caster := ⟨b.strandCount.toNat, b.openThreshold.toNat, b.lowThreshold.toNat, b.rideThrough.toNat,
              b.settle.toNat, b.periodA.toNat, b.periodB.toNat, b.measurement.toNat⟩ }
          strandLines := t.strandLines
          casterLines := t.casterLines
          instants :=
            ⟨if b.periodA.toNat = old.periodA then s.instants.classA else b.periodA.toNat,
              if b.periodB.toNat = old.periodB then s.instants.classB else b.periodB.toNat,
              if b.measurement.toNat = old.measurement then s.instants.measurement else b.measurement.toNat⟩
          sending := t.sending
          replies := t.replies } ∧
        (let a := b.periodA.toNat == old.periodA
         let c := b.periodB.toNat == old.periodB
         let x := s.strandLines.look k
         let y := s.casterLines
         t.strandLines.look k = ⟨runAfter a x.breakoutAlarm, runAfter c x.driveReady, runAfter c x.dummyAtMold,
            runAfter c x.steelPresent, runAfter c x.moldWaterOk⟩ ∧
          t.casterLines = ⟨runAfter a y.supplyOk, runAfter c y.tcRequest, runAfter c y.tundishInPlace,
            runAfter c y.hydOk, runAfter c y.maint⟩))

/-- STRAND SETTINGS for a strand in service: a field out of range is BAD_FIELD, a class change while its pool is in use BUSY,
a level set that differs while LEVEL-ON is on LOCKED, each changing nothing (R102, R105, R193). Accepted with no freeze due,
it replaces the strand's settings and level set; a new cooling table reaches the command of a HELD strand, or of one HALTED
for BREAKOUT; nothing else changes (R2, R121).
The model's own reading or choice stands in log 27 (an unchanged freeze limit does not freeze, whatever the hold timer). -/
def Obligations.StrandSettingsStores : Prop :=
  ∀ (tag : Byte) (b : StrandBody) (k j : Strand) (p : StrandSettings) (l : LevelParams) (s : State),
    s.queueFree → s.inService k = true →
    let old := s.settingsOf k
    (readStrandBody b = none →
      ∃ t, exec (.strandSettings tag (nameByte k) b) s = .next t ∧ Answered s t tag 0x06 [0x03] ∧ SameButReply s t) ∧
    (readStrandBody b = some (p, l) →
      ((p.pourClass ≠ old.pourClass ∧ s.pour.inUse = true) ∨ (p.driveClass ≠ old.driveClass ∧ s.drive.inUse = true)) →
      ∃ t, exec (.strandSettings tag (nameByte k) b) s = .next t ∧ Answered s t tag 0x06 [0x01] ∧ SameButReply s t) ∧
    (readStrandBody b = some (p, l) → classBusy k p s = false →
      l ≠ s.levelSet k → (s.unit k).levelOn = true →
      ∃ t, exec (.strandSettings tag (nameByte k) b) s = .next t ∧ Answered s t tag 0x06 [0x06] ∧ SameButReply s t) ∧
    (readStrandBody b = some (p, l) → classBusy k p s = false →
      l = s.levelSet k ∨ (s.unit k).levelOn = false →
      p.freezeLimit = old.freezeLimit ∨ (s.strand k).holdTimer.running = false ∨
        (s.strand k).holdTimer.elapsed < p.freezeLimit * 1000 →
      ∃ t, exec (.strandSettings tag (nameByte k) b) s = .next t ∧ Answered s t tag 0x06 [0x00] ∧
        t = { s with
          working := { s.working with
            strands := s.working.strands.put k p, levels := s.working.levels.put k l }
          units := t.units
          sending := t.sending
          replies := t.replies } ∧
        (j ≠ k → t.unit j = s.unit j) ∧
        t.unit k = { s.unit k with
          cooling :=
            if (s.strand k).condition = .held ∧ p.holdCooling ≠ old.holdCooling then p.holdCooling
            else if (s.strand k).condition = .halted .breakout ∧ p.breakoutCooling ≠ old.breakoutCooling then
              p.breakoutCooling
            else (s.unit k).cooling })

/-! ### Plans, banks and windows -/

/-- PLAN WRITE and PLAN ERASE (R31, R34, R35, R38): a number above 31 is BAD_FIELD, a write-protected bank PROTECTED, a plan
that fails validation BAD_PLAN with the step index and reason readPlan gives (AcceptedPlanIsSound says which); otherwise the whole slot is replaced, or emptied, and nothing
else.
PROTECT and UNPROTECT (R40, R41): a mask above bank 3 is BAD_FIELD; UNPROTECT without MAINT accepted true is NO_MAINT;
otherwise the named settings of the four banks are set, or cleared, and every other setting stays. -/
def Obligations.PlansAndBanksAreWritten : Prop :=
  ∀ (tag number : Byte) (n : Fin 32) (p : RawPlan) (w r : Byte) (s : State),
    (s.queueFree →
     let guarded := (s.working.banks.look (bankOf n)).write
     (31 < number.toNat →
       (∃ t, exec (.planWrite tag number p) s = .next t ∧ Answered s t tag 0x0F [0x03] ∧ SameButReply s t) ∧
       (∃ t, exec (.planErase tag number) s = .next t ∧ Answered s t tag 0x11 [0x03] ∧ SameButReply s t)) ∧
     (number.toNat = n.val → guarded = true →
       (∃ t, exec (.planWrite tag number p) s = .next t ∧ Answered s t tag 0x0F [0x07] ∧ SameButReply s t) ∧
       (∃ t, exec (.planErase tag number) s = .next t ∧ Answered s t tag 0x11 [0x07] ∧ SameButReply s t)) ∧
     (number.toNat = n.val → guarded = false →
       (∃ t, exec (.planWrite tag number p) s = .next t ∧
         match readPlan p with
         | .error e =>
           Answered s t tag 0x0F [0x0E, BitVec.ofNat 8 e.1, BitVec.ofNat 8 e.2.code] ∧ SameButReply s t
         | .ok q =>
           Answered s t tag 0x0F [0x00] ∧
           SameButSettings s t { s.working with plans := s.working.plans.put n (some q) }) ∧
       (∃ t, exec (.planErase tag number) s = .next t ∧ Answered s t tag 0x11 [0x00] ∧
         SameButSettings s t { s.working with plans := s.working.plans.put n none }))) ∧
    (s.queueFree →
     (15 < w.toNat ∨ 15 < r.toNat →
       (∃ t, exec (.protect tag w r) s = .next t ∧ Answered s t tag 0x12 [0x03] ∧ SameButReply s t) ∧
       (∃ t, exec (.unprotect tag w r) s = .next t ∧ Answered s t tag 0x13 [0x03] ∧ SameButReply s t)) ∧
     (w.toNat ≤ 15 → r.toNat ≤ 15 → s.casterLines.maint.accepted ≠ some true →
       ∃ t, exec (.unprotect tag w r) s = .next t ∧ Answered s t tag 0x13 [0x0C] ∧ SameButReply s t) ∧
     (w.toNat ≤ 15 → r.toNat ≤ 15 →
       ∃ t, exec (.protect tag w r) s = .next t ∧ Answered s t tag 0x12 [0x00] ∧
         SameButSettings s t { s.working with banks := t.working.banks } ∧
         ∀ b : Fin 4, t.working.banks.look b =
           ⟨(s.working.banks.look b).write || w.getLsbD b.val, (s.working.banks.look b).read || r.getLsbD b.val⟩) ∧
     (w.toNat ≤ 15 → r.toNat ≤ 15 → s.casterLines.maint.accepted = some true →
       ∃ t, exec (.unprotect tag w r) s = .next t ∧ Answered s t tag 0x13 [0x00] ∧
         SameButSettings s t { s.working with banks := t.working.banks } ∧
         ∀ b : Fin 4, t.working.banks.look b =
           ⟨(s.working.banks.look b).write && !w.getLsbD b.val, (s.working.banks.look b).read && !r.getLsbD b.val⟩))

/-- A plan that passes validation has its fields in range, one OPEN step with a LEVEL step after it and a DRAW step later, one
HANDOVER, last, a DRIVE step before OPEN in a DIP plan, and a CHECK of the dummy bar before OPEN in a COLD plan (R28 to R33).
A plan that does not is refused with the reason and the step index of its first failure: NAME, KIND, STEP_COUNT, then ACTION,
TIME and PARAM step by step and in that order within a step (R32), then OPEN_COUNT, LEVEL_AFTER_OPEN, NO_DRAW, HANDOVER,
DIP_DRIVE and COLD_CHECK (R33). -/
def Obligations.AcceptedPlanIsSound : Prop :=
  ∀ (raw : RawPlan) (p : Plan) (kind : RestartKind) (r : RawStep) (n : Nat),
    (readPlan raw = .ok p →
     planInRange p = true ∧ p.name = raw.name ∧ p.steps.length = raw.steps.length ∧
     ∃ o : Nat,
       actionAt p o isOpenAction = true ∧ (∀ i, actionAt p i isOpenAction = true → i = o) ∧
       actionAt p (o + 1) isLevelAction = true ∧
       (∃ d, o + 1 < d ∧ actionAt p d isDrawAction = true) ∧
       actionAt p (p.steps.length - 1) isHandoverAction = true ∧
       (∀ i, actionAt p i isHandoverAction = true → i = p.steps.length - 1) ∧
       (p.kind = .dip → ∃ i, i < o ∧ actionAt p i isDriveAction = true) ∧
       (p.kind = .cold → ∃ i, i < o ∧ actionAt p i checksDummy = true)) ∧
    (let name := raw.name.length
     let named : Prop := 1 ≤ name ∧ name ≤ 12 ∧ ∀ c ∈ raw.name, 0x20 ≤ c.toNat ∧ c.toNat ≤ 0x7E
     let counted : Prop := 1 ≤ raw.steps.length ∧ raw.steps.length ≤ 24
     let before : Prop := ∀ j x, j < n → raw.steps[j]? = some x → ∃ q, readStep x = .ok q
     let known : Prop := 1 ≤ r.action.toNat ∧ r.action.toNat ≤ 8
     let timed : Prop := 1 ≤ r.time.toNat ∧ r.time.toNat ≤ 36000
     (¬ named → readPlan raw = .error (0, .name)) ∧
     (named → raw.kind = 0 ∨ 3 < raw.kind.toNat → readPlan raw = .error (0, .kind)) ∧
     (named → readKind raw.kind = some kind → ¬ counted → readPlan raw = .error (0, .stepCount)) ∧
     (named → readKind raw.kind = some kind → counted → before → raw.steps[n]? = some r →
       (¬ known → readPlan raw = .error (n + 1, .action)) ∧
       (known → ¬ timed → readPlan raw = .error (n + 1, .time)) ∧
       (known → timed → (∃ f, readAction r = .error f) → readPlan raw = .error (n + 1, .param))) ∧
     (named → readKind raw.kind = some kind → counted → readSteps 1 raw.steps = .ok p.steps →
       let count := p.steps.length
       let first (q : Action → Bool) (o : Nat) : Prop := actionAt p o q = true ∧ ∀ i, i < o → actionAt p i q = false
       let only (q : Action → Bool) (o : Nat) : Prop := actionAt p o q = true ∧ ∀ i, i ≠ o → actionAt p i q = false
       let drawn (o : Nat) : Prop := ∃ d, o + 1 < d ∧ actionAt p d isDrawAction = true
       let ended : Prop := only isHandoverAction (count - 1)
       ((∀ i, actionAt p i isOpenAction = false) → readPlan raw = .error (0, .openCount)) ∧
       (∀ o, first isOpenAction o → o < n → actionAt p n isOpenAction = true →
         (∀ i, o < i → i < n → actionAt p i isOpenAction = false) → readPlan raw = .error (n + 1, .openCount)) ∧
       (only isOpenAction n →
         (n + 1 = count → readPlan raw = .error (n + 1, .levelAfterOpen)) ∧
         (n + 1 < count → actionAt p (n + 1) isLevelAction = false → readPlan raw = .error (n + 2, .levelAfterOpen)) ∧
         (actionAt p (n + 1) isLevelAction = true →
           (¬ drawn n → readPlan raw = .error (n + 2, .noDraw)) ∧
           (drawn n → (∀ i, actionAt p i isHandoverAction = false) → readPlan raw = .error (count, .handover)) ∧
           (∀ h, drawn n → first isHandoverAction h → h + 1 < count → readPlan raw = .error (h + 1, .handover)) ∧
           (drawn n → ended → kind = .dip → (∀ i, i < n → actionAt p i isDriveAction = false) →
             readPlan raw = .error (n + 1, .dipDrive)) ∧
           (drawn n → ended → kind = .cold → (∀ i, i < n → actionAt p i checksDummy = false) →
             readPlan raw = .error (n + 1, .coldCheck))))))

/-- The record layout of R195 loses nothing: the record of every valid plan, written with PLAN WRITE, is read as
that very plan, each parameter of each action included. -/
def Obligations.PlanRecordReadsBack : Prop :=
  ∀ p : Plan, planInRange p = true → structureFault p.kind p.steps = none → readPlan (rawPlanOf p) = .ok p

/-- MAP WRITE (R43, R44): the five refusals keep the window; an accepted write replaces the size exponent, the strand mask and
the plan fields, and with a base also the base, enabling the window.
MAP DISABLE clears the window's enabled setting and keeps every other field; a disabled window takes no part in lookups
(R45). -/
def Obligations.MapWriteAndDisable : Prop :=
  ∀ (tag : Byte) (b : WindowBody) (n : Fin 8) (window : Byte) (grade : Nat) (k : Strand) (s : State),
    (s.queueFree →
     let old := s.working.windows.look n
     let base := if b.mark = 1 then b.base.toNat else old.base
     let planOk (x : Byte) : Prop := x.toNat ≤ 31 ∨ x = 0xFF
     let field (x : Byte) : Option (Fin 32) := if h : x.toNat < 32 then some ⟨x.toNat, h⟩ else none
     let good : Prop := b.sizeExp.toNat ≤ 12 ∧ (b.mark = 0 ∨ b.mark = 1) ∧ planOk b.cold ∧ planOk b.flying ∧ planOk b.dip ∧
       base % 2 ^ b.sizeExp.toNat = 0
     (7 < b.window.toNat →
       ∃ t, exec (.mapWrite tag b) s = .next t ∧ Answered s t tag 0x15 [0x03] ∧ SameButReply s t) ∧
     (b.window.toNat = n.val → ¬ good →
       ∃ t, exec (.mapWrite tag b) s = .next t ∧ Answered s t tag 0x15 [0x03] ∧ SameButReply s t) ∧
     (b.window.toNat = n.val → good →
       ∃ t, exec (.mapWrite tag b) s = .next t ∧ Answered s t tag 0x15 [0x00] ∧
         SameButSettings s t { s.working with
           windows := s.working.windows.put n
             ⟨old.enabled || b.mark == 1, base, b.sizeExp.toNat, Vector.ofFn fun k => b.strands.getLsbD k.val,
               field b.cold, field b.flying, field b.dip⟩ })) ∧
    (s.queueFree →
     (7 < window.toNat →
       ∃ t, exec (.mapDisable tag window) s = .next t ∧ Answered s t tag 0x16 [0x03] ∧ SameButReply s t) ∧
     (window.toNat = n.val →
       ∃ t, exec (.mapDisable tag window) s = .next t ∧ Answered s t tag 0x16 [0x00] ∧
         SameButSettings s t { s.working with
           windows := s.working.windows.put n { s.working.windows.look n with enabled := false } } ∧
         windowCovers (t.working.windows.look n) grade k = false))

/-- The lookup (R47): the lowest-numbered enabled window that covers the grade code and names the strand decides alone, by
its field for the kind, the slot that field names and that plan's kind. -/
def Obligations.LookupTakesLowestWindow : Prop :=
  ∀ (w : Settings) (k : Strand) (kind : RestartKind) (n : Fin 32) (p : Plan),
    let grade := (w.strands.look k).grade
    let covers (i : Fin 8) : Prop := (w.windows.look i).enabled = true ∧ (w.windows.look i).base ≤ grade ∧
      grade < (w.windows.look i).base + 2 ^ (w.windows.look i).sizeExp ∧ (w.windows.look i).strands.look k = true
    lookupPlan w k kind = some (n, p) ↔
      ∃ i : Fin 8, covers i ∧ (∀ j : Fin 8, j < i → ¬ covers j) ∧
        (match kind with
          | .cold => (w.windows.look i).cold
          | .flying => (w.windows.look i).flying
          | .dip => (w.windows.look i).dip) = some n ∧
        w.plans.look n = some p ∧ p.kind = kind

/-! ### The Slot Arbiter -/

/-- ARBITER WRITE (R101): a pool that is neither is BAD_FIELD, a setting out of range BAD_FIELD, a pool in use BUSY; otherwise
every setting of the pool is replaced and nothing else. -/
def Obligations.ArbiterWriteStores : Prop :=
  ∀ (tag pool cap mon resp rise pol sel : Byte) (pre inrush : Half) (pp : PourSettings) (dp : DriveSettings) (s : State),
    s.queueFree →
    let pw : Instr := .arbiterWrite tag (.pour cap mon resp rise pre pol sel)
    let dw : Instr := .arbiterWrite tag (.drive cap mon resp inrush)
    (∃ t, exec (.arbiterWrite tag (.other pool)) s = .next t ∧ Answered s t tag 0x18 [0x03] ∧ SameButReply s t) ∧
    (readPour cap mon resp rise pre pol sel = none →
      ∃ t, exec pw s = .next t ∧ Answered s t tag 0x18 [0x03] ∧ SameButReply s t) ∧
    (readDrive cap mon resp inrush = none →
      ∃ t, exec dw s = .next t ∧ Answered s t tag 0x18 [0x03] ∧ SameButReply s t) ∧
    (readPour cap mon resp rise pre pol sel = some pp → s.pour.inUse = true →
      ∃ t, exec pw s = .next t ∧ Answered s t tag 0x18 [0x01] ∧ SameButReply s t) ∧
    (readDrive cap mon resp inrush = some dp → s.drive.inUse = true →
      ∃ t, exec dw s = .next t ∧ Answered s t tag 0x18 [0x01] ∧ SameButReply s t) ∧
    (readPour cap mon resp rise pre pol sel = some pp → s.pour.inUse = false →
      pourInRange pp = true ∧ pp.capacity = cap.toNat ∧ pp.responseTime = resp.toNat ∧ pp.riseThreshold = rise.toNat ∧
      pp.preCharge = pre.toNat ∧
      ∃ t, exec pw s = .next t ∧ Answered s t tag 0x18 [0x00] ∧ SameButSettings s t { s.working with pour := pp }) ∧
    (readDrive cap mon resp inrush = some dp → s.drive.inUse = false →
      driveInRange dp = true ∧ dp.capacity = cap.toNat ∧ dp.responseTime = resp.toNat ∧ dp.inrushHold = inrush.toNat ∧
      ∃ t, exec dw s = .next t ∧ Answered s t tag 0x18 [0x00] ∧ SameButSettings s t { s.working with drive := dp })

/-- INCLUDE (R99): a strand above the configured count is NOT_FITTED, an OFFLINE one WRONG_STATE, a mask that names neither
pool, or more, BAD_FIELD; accepted in every condition, it removes the strand from each named exclusion set in which it stands,
makes the ARBITER notice pending where that changed a set, and asks for no slot. -/
def Obligations.IncludeRemovesExclusion : Prop :=
  ∀ (tag pools b : Byte) (k : Strand) (s : State), s.queueFree →
    (b ≠ 0 → s.configuredCount < b.toNat →
      ∃ t, exec (.includeStrand tag b pools) s = .next t ∧ Answered s t tag 0x19 [0x0A] ∧ SameButReply s t) ∧
    (s.isConfigured k = true → (s.strand k).condition.isOffline = true →
      ∃ t, exec (.includeStrand tag (nameByte k) pools) s = .next t ∧ Answered s t tag 0x19 [0x04] ∧ SameButReply s t) ∧
    (s.inService k = true → pools = 0 ∨ 3 < pools.toNat →
      ∃ t, exec (.includeStrand tag (nameByte k) pools) s = .next t ∧ Answered s t tag 0x19 [0x03] ∧ SameButReply s t) ∧
    (s.inService k = true → 1 ≤ pools.toNat → pools.toNat ≤ 3 →
      let p := pools.getLsbD 0 && s.pour.excluded.look k
      let d := pools.getLsbD 1 && s.drive.excluded.look k
      ∃ t, exec (.includeStrand tag (nameByte k) pools) s = .next t ∧ Answered s t tag 0x19 [0x00] ∧
        t = { s with
          pour := { s.pour with excluded := if p then s.pour.excluded.put k false else s.pour.excluded }
          drive := { s.drive with excluded := if d then s.drive.excluded.put k false else s.drive.excluded }
          noticePending := if p || d then s.noticePending.put 4 true else s.noticePending
          sending := t.sending
          replies := t.replies })

/-- The grant choice (R83, R84, R91): at a closed pool, without a free slot or with nobody waiting it ends; otherwise the
first entry leaves the list, its strand holds a slot, at POUR it becomes last granted, and the choice is made again.
The grant's response is OFF with the monitor OFF, else IDLE at POUR and RUNNING with the whole response time at DRIVE (R92).
The step takes the grant in SLOT_WAIT alone. DRIVE (R61, R62, R95): drive run on, and STARTING; with DRIVE_READY accepted
true INRUSH with its hold, which ends at once at 0, the response ANSWERED. OPEN (R65, R66, R93): with the park mark and HYD_OK
accepted true, or a pre-charge time of 0, the fill opening in force, POURING and the response RUNNING; else PRE_CHARGE with
its time. No other strand's condition, unit or grant changes. -/
def Obligations.GrantChoiceServesFirst : Prop :=
  ∀ (p : PoolId) (e : WaitEntry) (rest : List WaitEntry) (r : RestartRecord) (fill start attempts dwell : Nat) (s : State),
    ((s.pool p).isOpen = false ∨ capacity s p ≤ (s.pool p).holderCount ∨ (s.pool p).waits = [] →
      grantPass p s = (s, [])) ∧
    ((s.pool p).isOpen = true → (s.pool p).holderCount < capacity s p → (s.pool p).waits = e :: rest →
      let k := e.strand
      let t := (grantPass p s).1
      let mark := match p with
        | .pour => parkTarget s == some k
        | .drive => false
      let waiting : Response := match p with
        | .pour => if s.working.pour.monitor then .idle else .off
        | .drive => if s.working.drive.monitor then .running (s.working.drive.responseTime * 1000) else .off
      let granted (response : Response) (own : List Task) : Prop :=
        (t.pool p).grant? k = some ⟨s.now, mark, response⟩ ∧ (grantPass p s).2 = own ++ [.grantChoice p]
      let taken (ph : Phase) (timer : Option Nat) : Prop :=
        t.strand k = { s.strand k with
          condition := .restarting { r with phase := ph, phaseTimer := timer, riseReference := none } }
      (t.pool p = { s.pool p with waits := rest, holders := (t.pool p).holders } ∧
       t.lastGranted = (match p with | .pour => some k | .drive => s.lastGranted) ∧
       t = { s with
         strands := t.strands, units := t.units, pour := t.pour, drive := t.drive, lastGranted := t.lastGranted } ∧
       (∀ q, q ≠ p → t.pool q = s.pool q) ∧
       ∀ j, j ≠ k → (t.pool p).grant? j = (s.pool p).grant? j ∧ t.strand j = s.strand j ∧ t.unit j = s.unit j) ∧
      (s.phase k ≠ .slotWait → granted waiting [] ∧ t.strand k = s.strand k ∧ t.unit k = s.unit k) ∧
      (p = .drive → s.record? k = some r → r.phase = .slotWait →
        t.unit k = { s.unit k with driveRun := true } ∧
        let hold := s.working.drive.inrushHold
        if (s.strandLines.look k).driveReady.accepted = some true then
          granted (if s.working.drive.monitor then .answered else .off) (if hold = 0 then [.inrushEnd k] else []) ∧
          taken .inrush (if hold = 0 then none else some hold)
        else granted waiting [] ∧ taken .starting none) ∧
      (p = .pour → s.record? k = some r → r.phase = .slotWait →
        s.action? k = some (.opening fill start attempts dwell) →
        if s.working.pour.preCharge = 0 ∨ (mark = true ∧ s.casterLines.hydOk.accepted = some true) then
          granted (if s.working.pour.monitor then .running (s.working.pour.responseTime * 1000) else .off) [] ∧
          taken .pouring none ∧ t.unit k = { s.unit k with stopper := .fill fill }
        else
          granted waiting [] ∧ taken .preCharge (some s.working.pour.preCharge) ∧ t.unit k = s.unit k))

/-- The bound on an action's tasks is never reached: any larger one gives the same state, so every completion, beginning and
grant of an action is carried out (R53, R54, R83), each task's own tasks before those behind it. -/
def Obligations.CascadeBoundIsEnough : Prop :=
  ∀ (x : Task) (l : List Task) (s : State) (n : Nat),
    (cascadeBound l s ≤ n → drainFuel n l s = drain l s) ∧ drain [] s = s ∧
    drain (x :: l) s =
      let d := match x with
        | .enterStep k => beginStep k s
        | .completeStep k => finishStep k s
        | .grantChoice p => grantPass p s
        | .inrushEnd k => endInrush k s
      drain (d.2 ++ l) d.1

/-! ### The requests that change a condition -/

/-- START (R22): the first check that fails gives the code, in the rule's order; when every check passes the strand is
RESTARTING on a snapshot of the plan found, kind COLD, its hold timer and steel as they were, step 1 begun and no other strand
touched. A first step that waits shows step 1 in its phase with its timer loaded (R49, R53).
A step's beginning loads its timer, and then begins its action: CHECK, COOL, DRIVE, OPEN, LEVEL, WAIT, DRAW and HANDOVER each
as its section gives (BeginsAs; R53, R58 to R60, R64, R70, R72, R73, R75, R118). A step's completion cancels its timers and
begins the next step, or after the last claims the restart complete (R54). -/
def Obligations.StartBeginsRestart : Prop :=
  ∀ (tag : Byte) (k : Strand) (n : Fin 32) (p : Plan) (r : RestartRecord) (q : Step) (s : State),
   (s.queueFree → s.inService k = true →
    let c := s.strand k
    let found := lookupPlan s.working k .cold
    let excluded := s.pour.excluded.look k || s.drive.excluded.look k
    let code : Byte :=
      if c.check = .pending then 0x01 else if s.trip.latched = true then 0x0B else if c.condition ≠ .dry then 0x04
      else if s.faults.look k ≠ none then 0x08 else if excluded = true then 0x0D else if found = none then 0x09 else 0x00
    (code ≠ 0x00 →
      ∃ t, exec (.start tag (nameByte k)) s = .next t ∧ Answered s t tag 0x07 [code] ∧ SameButReply s t) ∧
    (code = 0x00 → found = some (n, p) →
      ∃ t, exec (.start tag (nameByte k)) s = .next t ∧ Answered s t tag 0x07 [0x00] ∧
        LocalTo s t k ∧ t.coordinator = s.coordinator ∧ Noticed t (.state k) ∧
        (t.strand k).holdTimer = c.holdTimer ∧ (t.strand k).steel = c.steel ∧ t.faults.look k = none ∧
        ∃ r, t.record? k = some r ∧ r.serial = s.nextSerial ∧ r.kind = .cold ∧ r.planNumber = n ∧
          r.snapshot = ⟨p, (s.working.banks.look (bankOf n)).read⟩ ∧ 1 ≤ r.stepIndex ∧
          (∀ m time, p.steps[0]? = some ⟨.check m, time⟩ → maskEmpty (missingLines s k m) = false →
            r.stepIndex = 1 ∧ r.phase = .waiting ∧ r.stepTimer = some (time * 100) ∧ t.units = s.units) ∧
          let fresh : RestartRecord :=
            ⟨s.nextSerial, .cold, n, ⟨p, (s.working.banks.look (bankOf n)).read⟩, 1, none, .noPhase, none, none, none⟩
          let begun := pend (.state k) (withRecord k fresh { s with nextSerial := s.nextSerial + 1 })
          t = { drain [.enterStep k] begun with
            sending := t.sending, replies := t.replies, noticePending := t.noticePending })) ∧
   (s.record? k = some r →
    (r.step? = some q → BeginsAs s k r q (beginStep k s).1 (beginStep k s).2) ∧
    (let stopped := { r with stepTimer := none, phase := .noPhase, phaseTimer := none, riseReference := none }
     if r.stepIndex < r.snapshot.plan.steps.length then
       finishStep k s =
         (pend (.state k) (withRecord k { stopped with stepIndex := r.stepIndex + 1, attempt := none } s), [.enterStep k])
     else
       finishStep k s =
         ({ withRecord k stopped s with inFlight := s.inFlight ++ [.restartCompleteClaim k r.serial] }, [])))

/-- ABORT (R23): DRY and HALTED are WRONG_STATE; a CASTING or HELD strand, or one RESTARTING with steel, is HALTED ABORT, one
RESTARTING without steel goes to DRY; the fault is written with code ABORT and detail 0, the slots and entries go, and a
member of the release set leaves it. -/
def Obligations.AbortStops : Prop :=
  ∀ (tag : Byte) (k : Strand) (s : State), s.queueFree → s.inService k = true → slotLaw s = true →
    ((s.strand k).condition.name = .dry ∨ (s.strand k).condition.name = .halted →
      ∃ t, exec (.abort tag (nameByte k)) s = .next t ∧ Answered s t tag 0x08 [0x04] ∧ SameButReply s t) ∧
    ((s.strand k).condition.name ≠ .dry → (s.strand k).condition.name ≠ .halted →
      ∃ t, exec (.abort tag (nameByte k)) s = .next t ∧ Answered s t tag 0x08 [0x00] ∧
        Ends s t k .abort ∧ t.faults.look k = some (faultAfter k .abort 0 s) ∧ Noticed t (.fault k) ∧
        LocalTo s t k ∧ (s.coordinator.state = .releasing → t.coordinator.releaseSet.look k = false))

/-- RESUME (R24, R16): refused with TRIPPED while latched, with WRONG_STATE without an operator hold. Accepted, it clears
held_by_operator: with another flag left the strand stays HELD; with none it is RESTARTING, DIP by drive_lost and else FLYING,
its hold timer as it was, or, without a plan, HALTED NO_PLAN with that fault. -/
def Obligations.ResumeReleases : Prop :=
  ∀ (tag : Byte) (k : Strand) (s : State), s.queueFree → s.inService k = true →
    let c := s.strand k
    let kind : RestartKind := if c.driveLost then .dip else .flying
    (s.trip.latched = true →
      ∃ t, exec (.resume tag (nameByte k)) s = .next t ∧ Answered s t tag 0x0A [0x0B] ∧ SameButReply s t) ∧
    (s.trip.latched = false → c.condition ≠ .held ∨ c.heldByOperator = false →
      ∃ t, exec (.resume tag (nameByte k)) s = .next t ∧ Answered s t tag 0x0A [0x04] ∧ SameButReply s t) ∧
    (s.trip.latched = false → c.condition = .held → c.heldByOperator = true →
      ∃ t, exec (.resume tag (nameByte k)) s = .next t ∧ Answered s t tag 0x0A [0x00] ∧
        LocalTo s t k ∧ Noticed t (.state k) ∧ (t.strand k).heldByOperator = false ∧
        (c.heldForTundish = true ∨ c.heldForDip = true →
          t.strand k = { c with heldByOperator := false } ∧ t.units = s.units ∧ t.faults = s.faults) ∧
        (c.heldForTundish = false → c.heldForDip = false →
          match lookupPlan s.working k kind with
          | some (n, p) =>
            (t.strand k).holdTimer = c.holdTimer ∧ (t.strand k).steel = c.steel ∧ t.faults = s.faults ∧
            (t.record? k).map (fun r => (r.kind, r.planNumber, r.snapshot)) =
              some (kind, n, ⟨p, (s.working.banks.look (bankOf n)).read⟩)
          | none =>
            (t.strand k).condition = .halted .noPlan ∧ AtRest t k ⟨0, 0, 0, 0⟩ ∧ Noticed t (.fault k) ∧
            (t.strand k).holdTimer = ⟨c.holdTimer.elapsed, false⟩ ∧ (t.strand k).steel = c.steel ∧
            t.faults.look k = some (faultAfter k .noPlan (kindCode kind) s)))

/-- CLEAR STRAND and SERVICE (R25, R26): a pending start-up check is BUSY; CLEAR STRAND dries a HALTED strand whose record is
invalid and whose STEEL_PRESENT is not accepted true; SERVICE OFF takes a DRY or HALTED strand OFFLINE and keeps its steel;
SERVICE ON brings an OFFLINE one back, to DRY, or with STEEL_PRESENT accepted true to HALTED RESET with its fault. -/
def Obligations.ClearAndService : Prop :=
  ∀ (tag on : Byte) (k : Strand) (s : State), s.queueFree → s.isConfigured k = true →
    slotLaw s = true → holdLaw s = true →
    let c := s.strand k
    let clear : Instr := .clearStrand tag (nameByte k)
    let service : Instr := .service tag (nameByte k) on
    let code : Byte :=
      if c.condition.isOffline then 0x04 else if c.check = .pending then 0x01
      else if c.condition.name ≠ .halted then 0x04 else if s.faults.look k ≠ none then 0x08
      else if s.steelPresent k then 0x04 else 0x00
    (code ≠ 0x00 → ∃ t, exec clear s = .next t ∧ Answered s t tag 0x0B [code] ∧ SameButReply s t) ∧
    (code = 0x00 → ∃ t, exec clear s = .next t ∧ Answered s t tag 0x0B [0x00] ∧ LocalTo s t k ∧
      Stopped t k .dry ⟨0, 0, 0, 0⟩ ∧ (t.strand k).steel = false ∧ (t.strand k).driveLost = false ∧
      t.faults = s.faults) ∧
    (on ≠ 0 → on ≠ 1 → ∃ t, exec service s = .next t ∧ Answered s t tag 0x0C [0x03] ∧ SameButReply s t) ∧
    (on = 0 ∨ on = 1 → c.check = .pending →
      ∃ t, exec service s = .next t ∧ Answered s t tag 0x0C [0x01] ∧ SameButReply s t) ∧
    (on = 0 → c.check = .done → c.condition.heldOrRestarting = true ∨ c.condition = .casting →
      ∃ t, exec service s = .next t ∧ Answered s t tag 0x0C [0x04] ∧ SameButReply s t) ∧
    ((on = 0 ∧ c.condition.isOffline = true) ∨ (on = 1 ∧ c.condition.isOffline = false) → c.check = .done →
      ∃ t, exec service s = .next t ∧ Answered s t tag 0x0C [0x00] ∧ SameButReply s t) ∧
    (on = 0 → c.check = .done → c.condition.name = .dry ∨ c.condition.name = .halted →
      ∃ t, exec service s = .next t ∧ Answered s t tag 0x0C [0x00] ∧ LocalTo s t k ∧
        Stopped t k (.offline .service) ⟨0, 0, 0, 0⟩ ∧ (t.strand k).steel = c.steel ∧
        (t.strand k).driveLost = c.driveLost ∧ t.faults = s.faults ∧
        t.lastGranted = if s.lastGranted = some k then none else s.lastGranted) ∧
    (on = 1 → c.check = .done → c.condition.isOffline = true →
      ∃ t, exec service s = .next t ∧ Answered s t tag 0x0C [0x00] ∧ LocalTo s t k ∧
        (t.strand k).driveLost = false ∧
        (if s.steelPresent k = true then
          Stopped t k (.halted .reset) ⟨0, 0, 0, 0⟩ ∧ (t.strand k).steel = true ∧ Noticed t (.fault k) ∧
          t.faults.look k = some (faultAfter k .resetWithSteel 0 s)
        else Stopped t k .dry ⟨0, 0, 0, 0⟩ ∧ (t.strand k).steel = false ∧ t.faults = s.faults))

/-- STRAND CONTROL on a CASTING strand (R122, R123, R114, R115): a field outside its list is BAD_FIELD, a level field OFF is
INTERLOCK; accepted, the choice and the mode are taken, a changed mode clears LOCK, and DISENGAGE makes the strand HELD by
the operator with DRAW and LEVEL-ON off and drive run kept. In any other condition it is WRONG_STATE. -/
def Obligations.StrandControlActs : Prop :=
  ∀ (tag level draw mode choice : Byte) (k : Strand) (s : State), s.queueFree → s.inService k = true →
    let c := s.strand k
    let u := s.unit k
    let cmd : Instr := .strandControl tag (nameByte k) level draw mode choice
    let fields := level.toNat ≤ 2 ∧ draw.toNat ≤ 2 ∧ mode.toNat ≤ 2 ∧ choice.toNat ≤ 2
    let newMode : ControlMode := if mode = 1 then .auto else if mode = 2 then .manual else u.controlMode
    let newChoice : Supervision := if choice = 1 then .acquire else if choice = 2 then .track else u.manualChoice
    (¬ fields → ∃ t, exec cmd s = .next t ∧ Answered s t tag 0x09 [0x03] ∧ SameButReply s t) ∧
    (fields → c.condition ≠ .casting →
      ∃ t, exec cmd s = .next t ∧ Answered s t tag 0x09 [0x04] ∧ SameButReply s t) ∧
    (fields → c.condition = .casting → u.levelOn = true → u.draw = true → (s.levelSet k).lockBand ≠ 0 → level = 2 →
      ∃ t, exec cmd s = .next t ∧ Answered s t tag 0x09 [0x05] ∧ SameButReply s t) ∧
    (fields → c.condition = .casting → u.levelOn = true → u.draw = true → (s.levelSet k).lockBand ≠ 0 → level ≠ 2 →
      ∃ t, exec cmd s = .next t ∧ Answered s t tag 0x09 [0x00] ∧ LocalTo s t k ∧ t.faults = s.faults ∧
        t.coordinator = s.coordinator ∧ t.pour = s.pour ∧ t.drive = s.drive ∧ (∀ j, j ≠ k → t.unit j = s.unit j) ∧
        (t.unit k).controlMode = newMode ∧ (t.unit k).manualChoice = newChoice ∧
        (newMode ≠ u.controlMode → Noticed t (.lock k)) ∧
        (draw ≠ 2 → t.strands = s.strands ∧
          t.unit k = { u with
            controlMode := newMode
            manualChoice := newChoice
            lock := if newMode = u.controlMode then u.lock else false
            inCount := if newMode = u.controlMode then u.inCount else 0
            outCount := if newMode = u.controlMode then u.outCount else 0 }) ∧
        (draw = 2 →
          t.strand k = { c with
            condition := .held
            heldByOperator := true
            holdTimer := if c.holdTimer.running then c.holdTimer else ⟨0, true⟩ } ∧
          t.outputs k = ⟨.opening 0, false, newMode = .auto ∨ newChoice = .acquire, u.driveRun, 0,
            (s.settingsOf k).holdCooling⟩ ∧
          (t.unit k).draw = false ∧ (t.unit k).lock = false ∧ Noticed t (.state k)))

/-! ### Fault records -/

/-- The fault record (R172): the first fault is written whole, with the condition, plan, step and time as the claim found
them; a later one only sets multiple.
FAULT CLEAR (R176): a strand above the configured count is NOT_FITTED, an OFFLINE one WRONG_STATE; in every other
condition a valid record becomes invalid with its FAULT notice pending, an invalid one stays so without a notice, and nothing
else changes. -/
def Obligations.FaultRecordIsWrittenAndCleared : Prop :=
  ∀ (k : Strand) (code : FaultCode) (detail : Nat) (f : FaultRecord) (tag b : Byte) (s : State),
    ((s.faults.look k = some f →
       (writeFault k code detail s).faults = s.faults.put k (some { f with multiple := true })) ∧
     (s.faults.look k = none →
       (writeFault k code detail s).faults = s.faults.put k (some
         ⟨code, (s.strand k).condition.name, (s.record? k).map (·.planNumber), (s.record? k).map (·.stepIndex), s.now,
           detail, false⟩)) ∧
     (s.isConfigured k = true → (writeFault k code detail s).noticePending.look (Source.fault k).number = true) ∧
     (writeFault k code detail s).strands = s.strands) ∧
    (s.queueFree →
     (b ≠ 0 → s.configuredCount < b.toNat →
       ∃ t, exec (.faultClear tag b) s = .next t ∧ Answered s t tag 0x0E [0x0A] ∧ SameButReply s t) ∧
     (s.isConfigured k = true → (s.strand k).condition.isOffline = true →
       ∃ t, exec (.faultClear tag (nameByte k)) s = .next t ∧ Answered s t tag 0x0E [0x04] ∧ SameButReply s t) ∧
     (s.inService k = true → s.faults.look k = none →
       ∃ t, exec (.faultClear tag (nameByte k)) s = .next t ∧ Answered s t tag 0x0E [0x00] ∧ SameButReply s t) ∧
     (s.inService k = true → s.faults.look k ≠ none →
       ∃ t, exec (.faultClear tag (nameByte k)) s = .next t ∧ Answered s t tag 0x0E [0x00] ∧
         t = { s with
           faults := s.faults.put k none
           noticePending := s.noticePending.put (Source.fault k).number true
           sending := t.sending
           replies := t.replies }))

/-! ### Events at a strand -/

/-- A rising BREAKOUT_ALARM at a strand in service (R18): the fault is written; DRY stays DRY; HALTED becomes HALTED BREAKOUT
with the breakout cooling; any other condition ends as R12 and R13 give. At an OFFLINE strand it is discarded.
The first accepted level of STEEL_PRESENT ends the start-up check (R4): true halts the strand for RESET with steel and its
fault, false leaves it as it is; either way its STATE notice is owed. Once the check is DONE it has no effect.
The model's own reading or choice stands in log 11. -/
def Obligations.BreakoutAndSteelLevelsAct : Prop :=
  ∀ (k : Strand) (s : State),
    ((s.inService k = false → exec (.breakoutAlarmRise k) s = .next (noticeChoice s)) ∧
     (s.inService k = true → slotLaw s = true →
       ∃ t, exec (.breakoutAlarmRise k) s = .next t ∧ LocalTo s t k ∧
         t.faults.look k = some (faultAfter k .breakout 0 s) ∧ Noticed t (.fault k) ∧
         match (s.strand k).condition with
         | .dry => t.strands = s.strands ∧ t.units = s.units
         | .halted h =>
           t.strand k = { s.strand k with condition := .halted .breakout } ∧ (h ≠ .breakout → Noticed t (.state k)) ∧
           t.unit k = { s.unit k with cooling := (s.settingsOf k).breakoutCooling }
         | _ => Ends s t k .breakout)) ∧
    (slotLaw s = true →
     (s.isConfigured k = false ∨ (s.strand k).check = .done →
       ∀ b, exec (.steelPresentFirstLevel k b) s = .next (noticeChoice s)) ∧
     (s.isConfigured k = true → (s.strand k).check = .pending →
       (∃ t, exec (.steelPresentFirstLevel k false) s = .next t ∧ Noticed t (.state k) ∧
         t = { s with
           strands := s.strands.put k { s.strand k with check := .done }
           noticePending := t.noticePending
           sending := t.sending
           replies := t.replies }) ∧
       (∃ t, exec (.steelPresentFirstLevel k true) s = .next t ∧ (t.strand k).check = .done ∧
         Stopped t k (.halted .reset) ⟨0, 0, 0, 0⟩ ∧ (t.strand k).steel = true ∧
         t.faults.look k = some (faultAfter k .resetWithSteel 0 s) ∧ Noticed t (.fault k) ∧
         SameOutside s t ∧ SameSettings s t ∧ OtherStrands s t k)))

/-- DRIVE_READY's edges (R19, R62, R63). A fall while SUPPLIED ends a CASTING strand, and one RESTARTING with drive run on and
no DRIVE step current, with fault DRIVE_LOST, and marks a HELD one; in every state a DRIVE step in INRUSH goes back to
STARTING and keeps its slot; otherwise nothing happens. A rise ends STARTING: the response is ANSWERED and INRUSH begins.
The model's own reading or choice stands in log 11, 32 (a DRIVE step that has stopped is current until its claim is
taken). -/
def Obligations.DriveReadyEdgesAct : Prop :=
  ∀ (k : Strand) (s : State), s.inService k = true → slotLaw s = true →
    let c := (s.strand k).condition
    let supplied := s.supply.state = .supplied
    let run := (s.unit k).driveRun = true
    let inStep := s.action? k = some .drive
    (c = .casting ∨ (c.name = .restarting ∧ ¬ inStep ∧ run) → supplied →
      ∃ t, exec (.driveReadyFall k) s = .next t ∧ LocalTo s t k ∧ Ends s t k .driveLost ∧
        t.faults.look k = some (faultAfter k .driveLost 0 s) ∧ Noticed t (.fault k)) ∧
    (c = .held → run → supplied →
      ∃ t, exec (.driveReadyFall k) s = .next t ∧
        t = noticeChoice { s with strands := s.strands.put k { s.strand k with driveLost := true } }) ∧
    (inStep → s.phase k = .inrush →
      ∃ t, exec (.driveReadyFall k) s = .next t ∧ s.drive.grant? k = t.drive.grant? k ∧
        (t.record? k).map (fun r => (r.phase, r.phaseTimer, r.stepTimer)) =
          (s.record? k).map (fun r => (.starting, none, r.stepTimer)) ∧
        LocalTo s t k ∧ t.units = s.units ∧ t.faults = s.faults) ∧
    ((¬ supplied ∨ c = .dry ∨ c.name = .halted ∨ (c = .held ∧ ¬ run) ∨ (c.name = .restarting ∧ ¬ run) ∨ inStep) →
      ¬ (inStep ∧ s.phase k = .inrush) →
      exec (.driveReadyFall k) s = .next (noticeChoice s)) ∧
    (¬ (inStep ∧ s.phase k = .starting) → exec (.driveReadyRise k) s = .next (noticeChoice s)) ∧
    (inStep → s.phase k = .starting → s.working.drive.inrushHold ≠ 0 →
      ∃ t, exec (.driveReadyRise k) s = .next t ∧ LocalTo s t k ∧ t.units = s.units ∧
        (t.record? k).map (fun r => (r.phase, r.phaseTimer)) = some (.inrush, some s.working.drive.inrushHold) ∧
        (∀ n, (s.drive.grant? k).map (·.response) = some (.running n) →
          (t.drive.grant? k).map (·.response) = some .answered)) ∧
    (inStep → s.phase k = .starting → s.working.drive.inrushHold = 0 →
      ∃ t, exec (.driveReadyRise k) s = .next t ∧ LocalTo s t k ∧ (t.strand k).driveLost = false)

/-- The hold timer's expiry halts the strand FROZEN, with the held time in whole seconds as detail (R10); with the timer
stopped there is nothing to expire. STRAND SETTINGS with a freeze limit already reached does the same at acceptance (R2).
The model's own reading or choice stands in log 9, 11. -/
def Obligations.HoldTimerFreezes : Prop :=
  ∀ (tag : Byte) (b : StrandBody) (p : StrandSettings) (l : LevelParams) (k : Strand) (s : State), slotLaw s = true →
    let c := s.strand k
    (c.holdTimer.running = false → exec (.holdTimerExpiry k) s = .next (noticeChoice s)) ∧
    (c.holdTimer.running = true → s.isConfigured k = true →
      (s.settingsOf k).freezeLimit * 1000 ≤ c.holdTimer.elapsed → s.faults.look k = none →
      ∃ t, exec (.holdTimerExpiry k) s = .next t ∧ Stopped t k (.halted .frozen) ⟨0, 0, 0, 0⟩ ∧
        (t.strand k).steel = c.steel ∧ (t.strand k).holdTimer = ⟨c.holdTimer.elapsed, false⟩ ∧
        t.faults.look k = some (faultAfter k .frozen (c.holdTimer.elapsed / 1000) s) ∧ Noticed t (.fault k) ∧
        LocalTo s t k) ∧
    (s.queueFree → s.inService k = true → readStrandBody b = some (p, l) → classBusy k p s = false →
      l = s.levelSet k ∨ (s.unit k).levelOn = false → p.freezeLimit ≠ (s.settingsOf k).freezeLimit →
      c.holdTimer.running = true → p.freezeLimit * 1000 ≤ c.holdTimer.elapsed →
      ∃ t, exec (.strandSettings tag (nameByte k) b) s = .next t ∧ Answered s t tag 0x06 [0x00] ∧
        Stopped t k (.halted .frozen) ⟨0, 0, 0, 0⟩ ∧ (t.strand k).steel = c.steel ∧
        (t.faults.look k).map (·.code) = some ((s.faults.look k).elim FaultCode.frozen (·.code)) ∧
        t.settingsOf k = p ∧ t.levelSet k = l)

/-- The Restart Sequencer's claims (R17, R56): a failure claim of the standing restart writes its fault and ends the restart,
FAULT with steel and DRY without; a restart-complete claim makes the strand CASTING with its outputs kept; a claim of another
restart is discarded.
The model's own reading or choice stands in log 6, 11. -/
def Obligations.ClaimsEndTheRestart : Prop :=
  ∀ (k : Strand) (c : FailureClaim) (n : Nat) (r : RestartRecord) (s : State),
    (s.record? k = none → exec (.stepFailureClaim k c) s = .next (noticeChoice s) ∧
      exec (.restartCompleteClaim k n) s = .next (noticeChoice s)) ∧
    (s.record? k = some r → r.serial ≠ c.restart → exec (.stepFailureClaim k c) s = .next (noticeChoice s)) ∧
    (s.record? k = some r → r.serial ≠ n → exec (.restartCompleteClaim k n) s = .next (noticeChoice s)) ∧
    (s.isConfigured k = true → s.record? k = some r → r.serial = c.restart →
      ∃ t, exec (.stepFailureClaim k c) s = .next t ∧ LocalTo s t k ∧ Ends s t k .fault ∧
        t.faults.look k = some (faultAfter k (failureCode c.failure) (failureDetail c.failure) s) ∧
        Noticed t (.fault k)) ∧
    (s.isConfigured k = true → s.record? k = some r → r.serial = n →
      ∃ t, exec (.restartCompleteClaim k n) s = .next t ∧ LocalTo s t k ∧ Noticed t (.state k) ∧ Withdrawn t k ∧
        t.strand k = { s.strand k with
          condition := .casting, holdTimer := ⟨(s.strand k).holdTimer.elapsed, false⟩ } ∧
        (s.coordinator.state = .releasing → t.coordinator.releaseSet.look k = false) ∧ t.faults = s.faults ∧
        (s.pour.holds k = false → s.drive.holds k = false → (s.unit k).ramp = none →
          (∀ o, (s.unit k).stopper ≠ .fill o) → t.units = s.units))

/-! ### The tundish change -/

/-- The hold claims (R15, R129, R146): TUNDISH CHANGE and a rising TC_REQUEST in STEADY, and the ride-through's expiry in
RIDING, hold every configured strand with steel that was CASTING or RESTARTING, add the flag to a HELD one, cancel a
RESTARTING one without steel to DRY without a fault, and pass the others by; no slot is held and none waited for after.
A strand whose HANDOVER has completed is CASTING first and then held from there, its hold timer started from 0 and its place in
the release set given up (R124, R134). A strand that waits for a DRIVE slot while the inrush hold is 0 may be passed the slot of
a strand held before it, and its drive_lost is then cleared before its own claim (R62, R86).
The model's own reading or choice stands in log 9, 11, 29. -/
def Obligations.HoldClaimsReachEveryStrand : Prop :=
  ∀ (tag : Byte) (k : Strand) (s : State), slotLaw s = true → unfittedLaw s = true → s.isConfigured k = true →
    let c := s.strand k
    let completed : Bool := (s.record? k).any fun r => s.inFlight.contains (.restartCompleteClaim k r.serial)
    let effect (t : State) (f : HoldFlag) : Prop :=
      SameOutside s t ∧ SameSettings s t ∧ t.faults = s.faults ∧ t.trip = s.trip ∧
      t.pour.holderCount = 0 ∧ t.drive.holderCount = 0 ∧ t.pour.waits = [] ∧ t.drive.waits = [] ∧
      (c.condition = .casting ∨ (c.condition.name = .restarting ∧ c.steel = true) →
        (t.strand k).condition = .held ∧ (t.strand k).flag f = true ∧ Noticed t (.state k) ∧
        (t.strand k).steel = c.steel ∧
        t.outputs k = ⟨.opening 0, false, (t.unit k).wide, (t.unit k).driveRun, 0, (s.settingsOf k).holdCooling⟩ ∧
        (t.unit k).draw = false ∧ (t.unit k).lock = false ∧
        (completed = false → s.drive.waiting k = false ∨ s.inDriveStep k = true →
          (t.strand k).holdTimer = if c.holdTimer.running then c.holdTimer else ⟨0, true⟩) ∧
        (handoverDone s k = true → s.drive.waiting k = false →
          (t.strand k).holdTimer = ⟨0, true⟩ ∧
          (s.coordinator.state = .releasing → t.coordinator.releaseSet.look k = false)) ∧
        (s.drive.waiting k = false ∨ s.working.drive.inrushHold ≠ 0 ∨ f = .dip →
          (t.strand k).driveLost = (c.driveLost || f == .dip)) ∧
        (s.drive.waiting k = false → (t.unit k).driveRun = ((s.unit k).driveRun && f != .dip))) ∧
      (c.condition = .held →
        (t.strand k).condition = .held ∧ (t.strand k).flag f = true ∧ (t.strand k).holdTimer = c.holdTimer ∧
        (t.strand k).driveLost = (c.driveLost || f == .dip) ∧
        (t.unit k).driveRun = ((s.unit k).driveRun && f != .dip) ∧ (c.flag f = false → Noticed t (.state k))) ∧
      (c.condition.name = .restarting → c.steel = false → Stopped t k .dry ⟨0, 0, 0, 0⟩) ∧
      (c.condition.waitsForHost = true → t.strand k = c ∧ t.unit k = s.unit k)
    let changed (t : State) : Prop :=
      effect t .tundish ∧ t.coordinator.state = .holding ∧ t.coordinator.lowWeight = false ∧ t.pour.isOpen = false ∧
      t.drive.isOpen = s.drive.isOpen ∧ t.supply = s.supply ∧ Noticed t .tundish
    (s.queueFree → s.coordinator.state = .steady →
      ∃ t, exec (.tundishChange tag) s = .next t ∧ Answered s t tag 0x1A [0x00] ∧ changed t) ∧
    (s.queueFree → s.coordinator.state ≠ .steady →
      ∃ t, exec (.tundishChange tag) s = .next t ∧ Answered s t tag 0x1A [0x01] ∧ SameButReply s t) ∧
    (s.coordinator.state = .steady → ∃ t, exec .tcRequestRise s = .next t ∧ changed t) ∧
    (s.coordinator.state ≠ .steady → exec .tcRequestRise s = .next (noticeChoice s)) ∧
    (s.supply.state = .riding → s.drive.isOpen = false →
      ∃ t, exec .rideThroughExpiry s = .next t ∧ effect t .dip ∧ Noticed t .power ∧
        t.supply = { s.supply with state := .down, rideTimer := none } ∧
        (s.coordinator.state ≠ .releasing → t.coordinator.state = s.coordinator.state) ∧
        t.pour.isOpen = s.pour.isOpen ∧ t.drive.isOpen = false) ∧
    (s.supply.state ≠ .riding → exec .rideThroughExpiry s = .next (noticeChoice s))

/-- TUNDISH IN PLACE, by request and by line (R130, R131): HOLDING becomes FILLING, the TUNDISH notice is owed and nothing
else changes; in any other state the request is WRONG_STATE and the edge ignored.
A tundish weight sample (R132, R136): an invalid one is ignored; a valid one sets last weight in every state; in STEADY it
judges the low-weight flag; below the open threshold in FILLING, in HOLDING and in RELEASING it does no more.
The model's own reading or choice stands in log 11. -/
def Obligations.TundishInPlaceAndWeights : Prop :=
  ∀ (tag : Byte) (w : Nat) (s : State),
    ((s.queueFree → s.coordinator.state = .holding →
       ∃ t, exec (.tundishInPlace tag) s = .next t ∧ Answered s t tag 0x1B [0x00] ∧ Noticed t .tundish ∧
         SameButNotices { s with coordinator := { s.coordinator with state := .filling } } t) ∧
     (s.queueFree → s.coordinator.state ≠ .holding →
       ∃ t, exec (.tundishInPlace tag) s = .next t ∧ Answered s t tag 0x1B [0x04] ∧ SameButReply s t) ∧
     (s.coordinator.state = .holding →
       ∃ t, exec .tundishInPlaceRise s = .next t ∧ Noticed t .tundish ∧
         SameButNotices { s with coordinator := { s.coordinator with state := .filling } } t) ∧
     (s.coordinator.state ≠ .holding → exec .tundishInPlaceRise s = .next (noticeChoice s))) ∧
    (let low : Bool := w < s.working.caster.lowThreshold
     exec (.weightSample .invalid) s = .next (noticeChoice s) ∧
     (s.coordinator.state = .steady →
       ∃ t, exec (.weightSample (.valid w)) s = .next t ∧
         SameButNotices { s with coordinator := { s.coordinator with lastWeight := some w, lowWeight := low } } t ∧
         (s.coordinator.lowWeight ≠ low → Noticed t .tundish)) ∧
     (s.coordinator.state = .holding ∨ s.coordinator.state = .releasing ∨
       (s.coordinator.state = .filling ∧ w < s.working.caster.openThreshold) →
       exec (.weightSample (.valid w)) s =
         .next (noticeChoice { s with coordinator := { s.coordinator with lastWeight := some w } })))

/-- TUNDISH ABORT (R137): WRONG_STATE in STEADY; otherwise every strand HELD for the tundish, and every release set member
HELD or RESTARTING, is HALTED ABORT with detail 1, every other strand keeps its condition, the set is empty, the state STEADY
and the POUR pool open. -/
def Obligations.TundishAbortHalts : Prop :=
  ∀ (tag : Byte) (k : Strand) (s : State), s.queueFree → slotLaw s = true → s.isConfigured k = true →
    let c := s.strand k
    let halted := (c.condition = .held ∧ c.heldForTundish = true) ∨
      (s.coordinator.releaseSet.look k = true ∧ c.condition.heldOrRestarting = true)
    (s.coordinator.state = .steady →
      ∃ t, exec (.tundishAbort tag) s = .next t ∧ Answered s t tag 0x1C [0x04] ∧ SameButReply s t) ∧
    (s.coordinator.state ≠ .steady →
      ∃ t, exec (.tundishAbort tag) s = .next t ∧ Answered s t tag 0x1C [0x00] ∧ Noticed t .tundish ∧
        SameOutside s t ∧ SameSettings s t ∧ t.supply = s.supply ∧ t.trip = s.trip ∧
        t.coordinator.state = .steady ∧ t.coordinator.releaseSet = StrandSet.none ∧ t.pour.isOpen = true ∧
        (halted →
          (t.strand k).condition = .halted .abort ∧ (t.strand k).anyHold = false ∧ AtRest t k ⟨0, 0, 0, 0⟩ ∧
          Noticed t (.state k) ∧ Noticed t (.fault k) ∧ (t.strand k).steel = c.steel ∧
          (s.faults.look k = none →
            (t.faults.look k).map (fun f => (f.code, f.detail, f.multiple)) = some (.abort, 1, false))) ∧
        (¬ halted → SameStrand s t k ∧ t.faults.look k = s.faults.look k))

/-- A weight at or above the open threshold in FILLING releases the strands (R133, R16): the flag is cleared on every strand;
one HELD for the tundish alone is RESTARTING by its drive_lost, or has ended where it found no plan or its first step failed;
one held for more stays HELD; the set holds those of them still HELD or RESTARTING; the POUR pool is open; with the set empty
the state is STEADY.
The model's own reading or choice stands in log 13. -/
def Obligations.WeightReleasesTheStrands : Prop :=
  ∀ (w : Nat) (k : Strand) (s : State), s.coordinator.state = .filling → s.working.caster.openThreshold ≤ w →
    s.isConfigured k = true →
    let c := s.strand k
    let alone := c.heldForTundish = true ∧ c.heldForDip = false ∧ c.heldByOperator = false
    ∃ t, exec (.weightSample (.valid w)) s = .next t ∧ Noticed t .tundish ∧ SameOutside s t ∧ SameSettings s t ∧
      t.supply = s.supply ∧ t.trip = s.trip ∧ t.coordinator.lastWeight = some w ∧ t.pour.isOpen = true ∧
      t.coordinator.state = (if t.coordinator.releaseSet.isEmpty then .steady else .releasing) ∧
      (t.strand k).heldForTundish = false ∧
      t.coordinator.releaseSet.look k =
        (c.condition == .held && c.heldForTundish && (t.strand k).condition.heldOrRestarting) ∧
      (c.condition = .held → alone →
        (∀ r, t.record? k = some r → r.kind = (if c.driveLost then .dip else .flying) ∧ s.nextSerial ≤ r.serial) ∧
        ((t.strand k).condition.name = .restarting ∨ (t.strand k).condition = .halted .noPlan ∨
          (t.strand k).condition = .halted .fault ∨ ((t.strand k).condition = .dry ∧ c.steel = false)) ∧
        (lookupPlan s.working k (if c.driveLost then .dip else .flying) = none →
          (t.strand k).condition = .halted .noPlan)) ∧
      (c.condition = .held → c.heldForDip = true ∨ c.heldByOperator = true →
        t.strand k = { c with heldForTundish := false } ∧ t.unit k = s.unit k) ∧
      (c.condition ≠ .held → (t.strand k).condition.name = c.condition.name ∧ (t.strand k).steel = c.steel)

/-! ### The Trip Latch -/

/-- Latching, by TRIP ARM on an asserted line or by an asserted sample while armed (R20, R154 to R156, R138): no configured
strand stays CASTING, HELD or RESTARTING; those with steel are HALTED TRIP with that fault, the others DRY without one; a
HALTED strand keeps its cause; every output is safe; both pools are empty; the Coordinator is STEADY and POUR open.
Where nothing latches (R154, R156): TRIP ARM sets armed once; a sample takes the line's level, owing a notice when it
differs while latched.
That a sample which comes as a command also sets the kept input of the port, and stands beside the part's own, is the model's
choice (log 5, 30). -/
def Obligations.TripArmsAndLatches : Prop :=
  ∀ (tag : Byte) (k : Strand) (b : Bool) (s : State),
    (slotLaw s = true → s.isConfigured k = true → s.trip.latched = false →
     let c := s.strand k
     let effect (t : State) : Prop :=
       SameOutside { s with port := t.port } t ∧ SameSettings s t ∧ t.supply = s.supply ∧
       t.trip = ⟨true, true, true⟩ ∧ Noticed t .trip ∧
       t.coordinator.state = .steady ∧ t.coordinator.releaseSet = StrandSet.none ∧
       t.coordinator.lowWeight = s.coordinator.lowWeight ∧ t.coordinator.lastWeight = s.coordinator.lastWeight ∧
       t.pour.isOpen = true ∧ t.drive.isOpen = s.drive.isOpen ∧
       t.pour.holderCount = 0 ∧ t.drive.holderCount = 0 ∧ t.pour.waits = [] ∧ t.drive.waits = [] ∧
       AtRest t k ⟨0, 0, 0, 0⟩ ∧
       (c.condition = .casting ∨ c.condition = .held ∨ (c.condition.name = .restarting ∧ c.steel = true) →
         (t.strand k).condition = .halted .trip ∧ (t.strand k).anyHold = false ∧ (t.strand k).steel = c.steel ∧
         Noticed t (.state k) ∧ Noticed t (.fault k) ∧
         (s.faults.look k = none →
           (t.faults.look k).map (fun f => (f.code, f.detail, f.multiple)) = some (.trip, 0, false))) ∧
       (c.condition.name = .restarting → c.steel = false →
         (t.strand k).condition = .dry ∧ t.faults.look k = s.faults.look k ∧ Noticed t (.state k)) ∧
       (c.condition.waitsForHost = true → t.strand k = c ∧ t.faults.look k = s.faults.look k)
     (s.queueFree → s.trip.armed = false → s.trip.line = true →
       ∃ t, exec (.tripArm tag) s = .next t ∧ Answered s t tag 0x1D [0x00] ∧ effect t) ∧
     (s.trip.armed = true → ∃ t, exec (.tripSample true) s = .next t ∧ effect t ∧ t.port = { s.port with trip := true })) ∧
    ((s.queueFree → s.trip.armed = true →
       ∃ t, exec (.tripArm tag) s = .next t ∧ Answered s t tag 0x1D [0x00] ∧ SameButReply s t) ∧
     (s.queueFree → s.trip.armed = false → s.trip.line = false →
       ∃ t, exec (.tripArm tag) s = .next t ∧ Answered s t tag 0x1D [0x00] ∧ Noticed t .trip ∧
         SameButNotices { s with trip := { s.trip with armed := true } } t) ∧
     (b = false ∨ s.trip.armed = false ∨ s.trip.latched = true →
       ∃ t, exec (.tripSample b) s = .next t ∧
         SameButNotices { s with trip := { s.trip with line := b }, port := { s.port with trip := b } } t ∧
         (s.trip.latched = true → s.trip.line ≠ b → Noticed t .trip)))

/-- TRIP RESET (R157): WRONG_STATE on an asserted line, latched or not; on a line that is not asserted it clears latched, with
the TRIP notice, and changes nothing where latched is clear. Armed, the strands, their outputs and records, the Coordinator and
the pools stay as they are. -/
def Obligations.TripResetClears : Prop :=
  ∀ (tag : Byte) (s : State),
    (s.queueFree → s.trip.line = true →
      ∃ t, exec (.tripReset tag) s = .next t ∧ Answered s t tag 0x1E [0x04] ∧ SameButReply s t) ∧
    (s.queueFree → s.trip.line = false → s.trip.latched = false →
      ∃ t, exec (.tripReset tag) s = .next t ∧ Answered s t tag 0x1E [0x00] ∧ SameButReply s t) ∧
    (s.queueFree → s.trip.line = false → s.trip.latched = true →
      ∃ t, exec (.tripReset tag) s = .next t ∧ Answered s t tag 0x1E [0x00] ∧ Noticed t .trip ∧
        SameButNotices { s with trip := { s.trip with latched := false } } t)

/-! ### The Supply Monitor -/

/-- Falls and returns of the supply that hold and release no strand (R143, R144, R147, R148): SUPPLIED falls to RIDING with the
ride-through timer and the DRIVE pool closed; SETTLING falls back to DOWN; DOWN rises to SETTLING for the settle time; in the
other states an edge is discarded. A first level false while the start-up check is PENDING ends the check in DOWN and begins the
outage, and a first level once it is DONE is discarded (R143).
The model's own reading or choice stands in log 9, 11, 14. -/
def Obligations.SupplyEdgesMoveTheMonitor : Prop :=
  ∀ (stamp : Stamp) (s : State),
    let m := s.supply
    (m.state = .supplied →
      ∃ t, exec (.supplyOkFall stamp) s = .next t ∧ Noticed t .power ∧
        SameButNotices { s with
          supply := { m with
            state := .riding, outageStart := some stamp, rideTimer := some s.working.caster.rideThrough }
          drive := { s.drive with isOpen := false } } t) ∧
    (m.state = .settling →
      ∃ t, exec (.supplyOkFall stamp) s = .next t ∧ Noticed t .power ∧
        SameButNotices { s with
          supply := { m with state := .down, settleTimer := none, settleStart := none } } t) ∧
    (m.state = .riding ∨ m.state = .down → exec (.supplyOkFall stamp) s = .next (noticeChoice s)) ∧
    (m.state = .down → m.check = .done → s.working.caster.settle ≠ 0 →
      ∃ t, exec (.supplyOkRise stamp) s = .next t ∧ Noticed t .power ∧
        SameButNotices { s with
          supply := { m with
            state := .settling, settleStart := some stamp
            settleTimer := some (s.working.caster.settle * 1000) } } t) ∧
    (m.state = .supplied ∨ m.state = .settling → exec (.supplyOkRise stamp) s = .next (noticeChoice s)) ∧
    (m.check = .pending →
      ∃ t, exec (.supplyOkFirstLevel false stamp) s = .next t ∧ Noticed t .power ∧
        SameButNotices { s with supply := { m with check := .done, outageStart := some stamp } } t) ∧
    (∀ b, m.check = .done → exec (.supplyOkFirstLevel b stamp) s = .next (noticeChoice s)) ∧
    (m.state ≠ .settling → exec .settleExpiry s = .next (noticeChoice s))

/-- Entry into SUPPLIED (R143, R149 to R151): from RIDING by the rise, from SETTLING by its timer, from start-up by the first
level true. The outage is recorded from its start to the rise, or to settle start, and not at start-up; the DRIVE pool opens;
from SETTLING alone held_for_dip is cleared on every strand, and one HELD for the dip alone restarts or ends; a CASTING strand
whose DRIVE_READY is accepted false is HALTED DRIVE_LOST.
The model's own reading or choice stands in log 9. -/
def Obligations.SupplyReturns : Prop :=
  ∀ (stamp a b : Stamp) (k : Strand) (s : State), slotLaw s = true → holdLaw s = true → s.isConfigured k = true →
    let m := s.supply
    let c := s.strand k
    let lost := (s.strandLines.look k).driveReady.accepted = some false
    let entered (t : State) (outage : Option Stamp) : Prop :=
      SameOutside s t ∧ SameSettings s t ∧ t.trip = s.trip ∧ Noticed t .power ∧ t.drive.isOpen = true ∧
      t.supply = ⟨.supplied, .done, none, none, none, none, outage⟩ ∧
      (c.condition = .casting → lost →
        (t.strand k).condition = .halted .driveLost ∧ AtRest t k ⟨0, 0, 0, 0⟩ ∧ Noticed t (.fault k)) ∧
      (c.condition = .casting → ¬ lost → t.strand k = c) ∧
      (c.condition.waitsForHost = true → SameStrand s t k ∧ t.faults.look k = s.faults.look k)
    (m.state = .riding → m.check = .done → m.outageStart = some a →
      ∃ t, exec (.supplyOkRise stamp) s = .next t ∧ entered t (some (stamp - a)) ∧
        (c.condition = .held → (t.strand k).condition = .held ∧ (t.strand k).heldForDip = c.heldForDip)) ∧
    (m.check = .pending → m.outageStart = none →
      ∃ t, exec (.supplyOkFirstLevel true stamp) s = .next t ∧ entered t m.lastOutage) ∧
    (m.state = .down → m.check = .done → m.outageStart = some a → s.working.caster.settle = 0 →
      ∃ t, exec (.supplyOkRise stamp) s = .next t ∧ entered t (some (stamp - a)) ∧ (t.strand k).heldForDip = false) ∧
    (m.state = .settling → m.check = .done → m.outageStart = some a → m.settleStart = some b →
      ∃ t, exec .settleExpiry s = .next t ∧ entered t (some (b - a)) ∧ (t.strand k).heldForDip = false ∧
        (c.condition = .held → c.heldForTundish = true ∨ c.heldByOperator = true →
          (t.strand k).condition = .held ∧ (t.strand k).holdTimer = c.holdTimer) ∧
        (c.condition = .held → c.heldForDip = true → c.heldForTundish = false → c.heldByOperator = false →
          (t.strand k).condition.name = .restarting ∨ (t.strand k).condition = .halted .noPlan))

/-! ### Notices -/

/-- NOTICE LEVELS replaces every level, a level above 7 being BAD_FIELD, and NOTICE CLEAR clears the flags its mask names,
bits 29 to 31 being BAD_FIELD; neither touches the other (R180, R182). -/
def Obligations.NoticeRequestsAct : Prop :=
  ∀ (tag : Byte) (levels : Tab 29 Byte) (mask : BitVec 32) (n : Fin 29) (s : State), s.queueFree →
    (7 < (levels.look n).toNat →
      ∃ t, exec (.noticeLevels tag levels) s = .next t ∧ Answered s t tag 0x1F [0x03] ∧ SameButReply s t) ∧
    (levels.every (·.toNat ≤ 7) = true →
      ∃ t, exec (.noticeLevels tag levels) s = .next t ∧ Answered s t tag 0x1F [0x00] ∧
        SameButSettings s t { s.working with noticeLevels := t.working.noticeLevels } ∧
        t.working.noticeLevels.look n = (levels.look n).toNat) ∧
    (2 ^ 29 ≤ mask.toNat →
      ∃ t, exec (.noticeClear tag mask) s = .next t ∧ Answered s t tag 0x21 [0x03] ∧ SameButReply s t) ∧
    (mask.toNat < 2 ^ 29 →
      ∃ t, exec (.noticeClear tag mask) s = .next t ∧ Answered s t tag 0x21 [0x00] ∧ SameButNotices s t ∧
        t.noticePending.look n = (s.noticePending.look n && !mask.getLsbD n.val))

/-- The choice (R178, R179): nothing while a frame is being sent; else the oldest reply; else, of the pending sources with a
level of 1 or more, the one of highest level and then lowest number, its flag cleared and its notice composed from the state
as it stands; else the transmitter stays free. A transmission's end frees the transmitter and makes the choice.
The model's own reading or choice stands in log 11. -/
def Obligations.ChoiceTakesBestSource : Prop :=
  ∀ (f : Frame) (n m : Fin 29) (s : State),
    let owed (i : Fin 29) : Prop := s.noticePending.look i = true ∧ s.working.noticeLevels.look i ≠ 0
    let free := noticeChoice { s with sending := none }
    exec .transmissionEnd s = .next free ∧
    (s.sending ≠ none → noticeChoice s = s) ∧
    (s.replies = f :: s.replies.tail → free = { s with replies := s.replies.tail, sending := some f }) ∧
    (s.replies = [] → owed n →
      (owed m → s.working.noticeLevels.look m < s.working.noticeLevels.look n ∨
        (s.working.noticeLevels.look m = s.working.noticeLevels.look n ∧ n ≤ m)) ∨
      (bestSource s ≠ some n)) ∧
    (s.replies = [] → bestSource s = some n →
      owed n ∧
      (owed m → s.working.noticeLevels.look m < s.working.noticeLevels.look n ∨
        (s.working.noticeLevels.look m = s.working.noticeLevels.look n ∧ n ≤ m)) ∧
      free = { s with noticePending := s.noticePending.put n false, sending := some (noticeFrame s n) }) ∧
    (s.replies = [] → bestSource s = none → ¬ owed n ∧ free = { s with sending := none })

/-- A command that is no request sends no reply: what is on its way to the host is what was, or, where nothing was, one notice
composed at its end (R178, R186).
The model's own reading or choice stands in log 11 (one choice, at the command's end). -/
def Obligations.EventsSendNoReply : Prop :=
  ∀ (i : Instr) (s : State), requestFrame? i = none →
    (∀ b, i ≠ .receivedByte b) → i ≠ .reset → i ≠ .transmissionEnd →
    ∃ t, exec i s = .next t ∧ t.pending = s.pending ∧ t.working.noticeLevels = s.working.noticeLevels ∧
      (t.outgoing = s.outgoing ∨ (s.outgoing = [] ∧ ∃ n, t.outgoing = [noticeFrame t n]))

/-! ### Samples -/

/-- A line's sample (R161, R162): a level begins or lengthens its run, and is accepted at a run of 3; NO_DATA breaks the run
and keeps the accepted level. -/
def Obligations.LineTakesSample : Prop :=
  ∀ (l : Line) (b : Bool),
    l.sample .noData = ⟨l.accepted, none, 0, .noData⟩ ∧
    (let n := if l.runLevel = some b then min 3 (l.runLength + 1) else 1
     l.sample (.level b) = ⟨if n = 3 then some b else l.accepted, some b, n, .ok⟩)

/-- A class instant samples every line of its class and no other (R160). What it delivers is spelled out line by line (R163,
R164): a BREAKOUT_ALARM accepted true, first or on an edge; a first level of STEEL_PRESENT and of SUPPLY_OK; each edge of
DRIVE_READY and of SUPPLY_OK, the latter with the time stamp; a rising TC_REQUEST and TUNDISH_IN_PLACE; every change of a
permissive line's accepted level, its first among them; and nothing else.
A measurement instant (R167 to R169): a sample is VALID only with an answer, the station's own mark and a value in its
channel's range; a strand in service is sent its depth and its speed reference, and its OPEN step a copy of the depth; one out
of service is sent nothing; the weight goes to the Coordinator.
After each kind of instant the next one falls a full period later, also where this one came as a command before it was due (the
model's choice, log 28).
The model's own reading or choice stands in log 5, 6, 11, 28. -/
def Obligations.InstantsSampleAndRoute : Prop :=
  ∀ (a : ClassALevels) (b : ClassBLevels) (k : Strand) (p : MeasurementLevels) (limit : Nat) (v : Int) (mark : Bool) (s : State),
    (let x := s.strandLines.look k
     let y := s.casterLines
     let first (o n : Option Bool) (e : Bool → Instr) : List Instr :=
       if o = none then (n.map e).toList else []
     let edge (o n : Option Bool) (v : Bool) (e : Instr) : List Instr := if o = some (!v) ∧ n = some v then [e] else []
     let change (o n : Option Bool) (e : Instr) : List Instr := if n ≠ none ∧ o ≠ n then [e] else []
     let alarm (o n : Option Bool) (e : Instr) : List Instr := if o ≠ some true ∧ n = some true then [e] else []
     let sentA (j : Strand) (o n : StrandLines) : List Instr :=
       alarm o.breakoutAlarm.accepted n.breakoutAlarm.accepted (.breakoutAlarmRise j)
     let sentB (j : Strand) (o n : StrandLines) : List Instr :=
       edge o.driveReady.accepted n.driveReady.accepted true (.driveReadyRise j)
         ++ edge o.driveReady.accepted n.driveReady.accepted false (.driveReadyFall j)
         ++ change o.driveReady.accepted n.driveReady.accepted (.permissiveLevelChange (.driveReady j))
         ++ change o.dummyAtMold.accepted n.dummyAtMold.accepted (.permissiveLevelChange (.dummyAtMold j))
         ++ first o.steelPresent.accepted n.steelPresent.accepted (.steelPresentFirstLevel j)
         ++ change o.moldWaterOk.accepted n.moldWaterOk.accepted (.permissiveLevelChange (.moldWaterOk j))
     (∃ t, exec (.filterSample (.classA a)) s = .next t ∧
       t.strandLines.look k = { x with breakoutAlarm := x.breakoutAlarm.sample (a.breakoutAlarm.look k) } ∧
       t.casterLines = { y with supplyOk := y.supplyOk.sample a.supplyOk } ∧
       SameButNotices { s with
         strandLines := t.strandLines
         casterLines := t.casterLines
         port := { s.port with classA := a }
         instants := { s.instants with classA := s.working.caster.periodA }
         inFlight := t.inFlight } t ∧
       t.inFlight = s.inFlight
         ++ allStrands.flatMap (fun j => sentA j (s.strandLines.look j) (t.strandLines.look j))
         ++ first y.supplyOk.accepted t.casterLines.supplyOk.accepted (.supplyOkFirstLevel · s.now)
         ++ edge y.supplyOk.accepted t.casterLines.supplyOk.accepted true (.supplyOkRise s.now)
         ++ edge y.supplyOk.accepted t.casterLines.supplyOk.accepted false (.supplyOkFall s.now)) ∧
     (∃ t, exec (.filterSample (.classB b)) s = .next t ∧
       t.strandLines.look k = ⟨x.breakoutAlarm, x.driveReady.sample (b.strands.look k).driveReady,
         x.dummyAtMold.sample (b.strands.look k).dummyAtMold, x.steelPresent.sample (b.strands.look k).steelPresent,
         x.moldWaterOk.sample (b.strands.look k).moldWaterOk⟩ ∧
       t.casterLines = ⟨y.supplyOk, y.tcRequest.sample b.tcRequest, y.tundishInPlace.sample b.tundishInPlace,
         y.hydOk.sample b.hydOk, y.maint.sample b.maint⟩ ∧
       SameButNotices { s with
         strandLines := t.strandLines
         casterLines := t.casterLines
         port := { s.port with classB := b }
         instants := { s.instants with classB := s.working.caster.periodB }
         inFlight := t.inFlight } t ∧
       t.inFlight = s.inFlight
         ++ allStrands.flatMap (fun j => sentB j (s.strandLines.look j) (t.strandLines.look j))
         ++ edge y.tcRequest.accepted t.casterLines.tcRequest.accepted true .tcRequestRise
         ++ edge y.tundishInPlace.accepted t.casterLines.tundishInPlace.accepted true .tundishInPlaceRise
         ++ change y.hydOk.accepted t.casterLines.hydOk.accepted (.permissiveLevelChange .hydOk))) ∧
    (markSample limit .noAnswer = .invalid ∧
     (mark = false ∨ v < 0 ∨ (limit : Int) < v → markSample limit (.present v mark) = .invalid) ∧
     (mark = true → 0 ≤ v → v ≤ (limit : Int) → markSample limit (.present v mark) = .valid v.toNat) ∧
     ∃ t, exec (.measurementInstant p) s = .next t ∧
       SameButNotices { s with
         port := { s.port with channels := p }
         instants := { s.instants with measurement := s.working.caster.measurement }
         inFlight := t.inFlight } t ∧
       t.inFlight = s.inFlight ++ allStrands.flatMap (routeStrand p s) ++ [.weightSample (markSample 800 p.weight)] ∧
       routeStrand p s k =
         if s.inService k = false then []
         else if s.inOpenStep k then
           [.depthSampleUnit k (markSample 300 (p.depth.look k)), .depthSampleOpenStep k (markSample 300 (p.depth.look k)),
             .speedReferenceSample k (markSample 600 (p.speed.look k))]
         else
           [.depthSampleUnit k (markSample 300 (p.depth.look k)),
             .speedReferenceSample k (markSample 600 (p.speed.look k))])

/-- The lock detector with LOCK clear (R111): a valid sample within the lock band counts, and at the lock count in effect sets
LOCK with both counts 0; any other sample breaks the run.
The lock detector with LOCK set (R112): a valid sample within the unlock band in effect clears the out-count; any other,
an invalid one too, counts, and at the unlock count in effect clears LOCK and both counts. -/
def Obligations.LockDetectorMovesLock : Prop :=
  ∀ (p : LevelParams) (u : UnitState) (d : Nat),
    (u.levelOn = true → u.controlMode = .auto → p.lockBand ≠ 0 → u.lock = false →
     let need := if p.lockCount = 0 then 1 else p.lockCount
     let near := d ≤ p.target + p.lockBand ∧ p.target ≤ d + p.lockBand
     (near → u.inCount + 1 < need →
       u.takeDepth p (.valid d) = { u with lastDepth := some d, inCount := u.inCount + 1 }) ∧
     (near → need ≤ u.inCount + 1 →
       u.takeDepth p (.valid d) = { u with lastDepth := some d, lock := true, inCount := 0, outCount := 0 }) ∧
     (¬ near → u.takeDepth p (.valid d) = { u with lastDepth := some d, inCount := 0 }) ∧
     u.takeDepth p .invalid = { u with inCount := 0 }) ∧
    (u.levelOn = true → u.controlMode = .auto → p.lockBand ≠ 0 → u.lock = true →
     let need := if p.unlockCount = 0 then 1 else p.unlockCount
     let band := max p.unlockBand p.lockBand
     let near := d ≤ p.target + band ∧ p.target ≤ d + band
     (near → u.takeDepth p (.valid d) = { u with lastDepth := some d, outCount := 0 }) ∧
     (¬ near → u.outCount + 1 < need →
       u.takeDepth p (.valid d) = { u with lastDepth := some d, outCount := u.outCount + 1 }) ∧
     (¬ near → need ≤ u.outCount + 1 →
       u.takeDepth p (.valid d) = { u with lastDepth := some d, lock := false, inCount := 0, outCount := 0 }) ∧
     (u.outCount + 1 < need → u.takeDepth p .invalid = { u with outCount := u.outCount + 1 }) ∧
     (need ≤ u.outCount + 1 → u.takeDepth p .invalid = { u with lock := false, inCount := 0, outCount := 0 }))

/-- A depth sample at the unit (R110, R113): it sets last depth and moves the lock detector of that strand alone, an inactive
detector counting nothing; where it sets LOCK the LOCK notice is owed and a LEVEL step in LOCKING completes. LOCK then stays
set with both counts 0, unless a later LEVEL step of the plan, begun in the same action, wrote a new set and cleared it (R70,
R113); and no other strand's unit changes, unless a pool had a free slot and a strand waiting.
The model's own reading or choice stands in log 11. -/
def Obligations.DepthSampleReachesTheUnit : Prop :=
  ∀ (k : Strand) (x : Sample) (s : State),
    let u := s.unit k
    let v := u.takeDepth (s.levelSet k) x
    (s.inService k = false → exec (.depthSampleUnit k x) s = .next (noticeChoice s)) ∧
    (s.inService k = true → u.lock = true ∨ v.lock = false ∨ s.phase k ≠ .locking →
      ∃ t, exec (.depthSampleUnit k x) s = .next t ∧ SameButNotices { s with units := s.units.put k v } t ∧
        (v.lock ≠ u.lock → Noticed t (.lock k))) ∧
    (detectorActive (s.levelSet k) u = false →
      v = { u with lastDepth := match x with | .valid d => some d | .invalid => u.lastDepth }) ∧
    (s.inService k = true → u.lock = false → v.lock = true → s.phase k = .locking →
      (∃ r, s.record? k = some r ∧ r.stepIndex < r.snapshot.plan.steps.length) →
      ∃ t, exec (.depthSampleUnit k x) s = .next t ∧ LocalTo s t k ∧ Advanced s t k ∧ Noticed t (.state k) ∧
        Noticed t (.lock k) ∧ t.faults = s.faults ∧
        (t.unit k).lastDepth = v.lastDepth ∧ (t.unit k).inCount = 0 ∧ (t.unit k).outCount = 0 ∧
        ((t.unit k).lock = true ↔ t.phase k ≠ .locking) ∧
        (t.unit k).levelOn = true ∧ (t.unit k).controlMode = .auto ∧ (t.unit k).manualChoice = u.manualChoice ∧
        (t.unit k).lastReference = u.lastReference ∧
        (servedLaw s = true → ∀ j, j ≠ k → t.unit j = s.unit j))

/-- A valid depth sample at an OPEN step (R66, R67). In POURING it sets the reference while that is absent or below it;
a fall of the rise threshold below the reference confirms the rise: steel true, hold timer stopped, response ANSWERED, and
FILLING with the opening kept, unless the depth is already at the start depth. In FILLING a depth at or below it completes the
step, and above it does nothing. An invalid sample, and one in another phase, is discarded.
At completion the POUR slot is given back and the fill opening ends (R67, R85, R116), to stay so in a plan without a further
OPEN step; a LEVEL step that follows has the regulator take the stopper (R70).
The model's own reading or choice stands in log 11. -/
def Obligations.OpenStepTakesDepth : Prop :=
  ∀ (k : Strand) (d ref fill start attempts dwell : Nat) (r : RestartRecord) (s : State),
    s.inService k = true → s.record? k = some r → s.action? k = some (.opening fill start attempts dwell) →
    let threshold := s.working.pour.riseThreshold
    exec (.depthSampleOpenStep k .invalid) s = .next (noticeChoice s) ∧
    (r.phase ≠ .pouring → r.phase ≠ .filling →
      exec (.depthSampleOpenStep k (.valid d)) s = .next (noticeChoice s)) ∧
    (r.phase = .pouring → r.riseReference = none ∨ (r.riseReference = some ref ∧ ref < d) →
      ∃ t, exec (.depthSampleOpenStep k (.valid d)) s = .next t ∧
        SameButNotices { s with
          strands := s.strands.put k
            { s.strand k with condition := .restarting { r with riseReference := some d } } } t) ∧
    (r.phase = .pouring → r.riseReference = some ref → d ≤ ref → ref - d < threshold →
      exec (.depthSampleOpenStep k (.valid d)) s = .next (noticeChoice s)) ∧
    (r.phase = .pouring → r.riseReference = some ref → d ≤ ref → threshold ≤ ref - d → start < d →
      ∃ t, exec (.depthSampleOpenStep k (.valid d)) s = .next t ∧ t.units = s.units ∧ t.drive = s.drive ∧
        t.strand k = { s.strand k with
          condition := .restarting { r with phase := .filling, phaseTimer := none, riseReference := none }
          steel := true
          holdTimer := ⟨(s.strand k).holdTimer.elapsed, false⟩ } ∧
        ((s.strand k).steel = false → Noticed t (.state k)) ∧
        (∀ n, (s.pour.grant? k).map (·.response) = some (.running n) →
          (t.pour.grant? k).map (·.response) = some .answered) ∧
        (∀ j, j ≠ k → t.strand j = s.strand j) ∧ SameOutside s t ∧ t.working = s.working ∧ t.faults = s.faults) ∧
    (r.phase = .filling → start < d → exec (.depthSampleOpenStep k (.valid d)) s = .next (noticeChoice s)) ∧
    (r.phase = .filling ∨ (r.phase = .pouring ∧ r.riseReference = some ref ∧ d ≤ ref ∧ threshold ≤ ref - d) →
      d ≤ start → r.stepIndex < r.snapshot.plan.steps.length →
      ∃ t, exec (.depthSampleOpenStep k (.valid d)) s = .next t ∧ Advanced s t k ∧ Noticed t (.state k) ∧
        SameOutside s t ∧ SameSettings s t ∧ t.faults = s.faults ∧
        (r.phase = .pouring → (t.strand k).steel = true ∧ (t.strand k).holdTimer.running = false) ∧
        (∀ j, j ≠ k → SameStrand s t j) ∧
        (s.pour.waiting k = false → (r.snapshot.plan.steps.drop r.stepIndex).all (!isOpenAction ·.action) = true →
          t.pour.holds k = false ∧ t.pour.waiting k = false ∧ ∀ n, (t.unit k).stopper ≠ .fill n) ∧
        (∀ src time, r.snapshot.plan.steps[r.stepIndex]? = some ⟨.level src, time⟩ → (s.unit k).levelOn = false →
          (match src with | .plan p => p.lockBand | .strand => (s.levelSet k).lockBand) ≠ 0 →
          t.phase k = .locking ∧ (t.unit k).stopper = .regulator ∧ (t.unit k).levelOn = true))

/-- A speed reference sample (R75, R120): a valid one sets last reference, and the setpoint where the source is REFERENCE;
in REFERENCE_WAIT it switches the source, the setpoint takes it without a ramp, and the last step's completion claims the end
of the restart. An invalid one, and one for a strand out of service, changes nothing.
The model's own reading or choice stands in log 11, 12. -/
def Obligations.SpeedReferenceIsTaken : Prop :=
  ∀ (k : Strand) (v : Nat) (r : RestartRecord) (s : State),
    let u := s.unit k
    exec (.speedReferenceSample k .invalid) s = .next (noticeChoice s) ∧
    (s.inService k = false → exec (.speedReferenceSample k (.valid v)) s = .next (noticeChoice s)) ∧
    (s.inService k = true → s.phase k ≠ .referenceWait →
      exec (.speedReferenceSample k (.valid v)) s = .next (noticeChoice { s with
        units := s.units.put k { u with
          lastReference := some v, setpoint := if u.speedSource = .reference then v else u.setpoint } })) ∧
    (s.inService k = true → s.record? k = some r → r.phase = .referenceWait →
      r.stepIndex = r.snapshot.plan.steps.length →
      ∃ t, exec (.speedReferenceSample k (.valid v)) s = .next t ∧
        t.inFlight = s.inFlight ++ [.restartCompleteClaim k r.serial] ∧
        SameButNotices { s with
          units := s.units.put k { u with lastReference := some v, speedSource := .reference, setpoint := v }
          strands := s.strands.put k { s.strand k with condition := .restarting { r with
            stepTimer := none, phase := .noPhase, phaseTimer := none, riseReference := none } }
          inFlight := t.inFlight } t)

/-! ### Timers of a step -/

/-- The step timer's expiry (R55, R56): WAIT completes; CHECK fails with the lines of its mask not accepted true; every other
action fails STEP_TIMEOUT with the action; the step is stopped and the claim sent, and nothing else changes. A strand that is
not RESTARTING, or whose timer was cancelled, takes nothing.
The inrush hold's end releases the DRIVE slot, clears drive_lost and completes the step (R62, R85): a slot the strand holds
afterwards is one that a further DRIVE step was granted in the same action. The ramp's end leaves the setpoint at the target,
without a ramp, and completes a DRAW step in RAMPING (R74, R119): a ramp afterwards is one that a further DRAW step gave,
starting from that setpoint. Elsewhere each finds nothing.
A change of a permissive line's level (R58): a CHECK step in WAITING whose mask names the line completes when no line of
its mask is missing; where no strand waits on the line, or every one that does still misses a line, nothing changes. HYD_OK may find several
strands, taken in a free order (R164, log 4).
The model's own reading or choice stands in log 4, 9, 11, 12. -/
def Obligations.StepTimersAndPermissivesAct : Prop :=
  ∀ (k : Strand) (r : RestartRecord) (a : Action) (x : Ramp) (line : PermissiveLine) (m : PermissiveMask) (s : State),
    (let f : StepFailure := match a with
       | .check m => .permissive (missingLines s k m)
       | _ => .stepTimeout a
     (s.record? k = none → exec (.stepTimerExpiry k) s = .next (noticeChoice s)) ∧
     (s.record? k = some r → r.stepTimer = none → exec (.stepTimerExpiry k) s = .next (noticeChoice s)) ∧
     (s.record? k = some r → r.stepTimer ≠ none → s.action? k = some a → a ≠ .wait →
       ∃ t, exec (.stepTimerExpiry k) s = .next t ∧ Failed s t k f ∧
         SameButNotices { s with strands := t.strands, inFlight := s.inFlight ++ [.stepFailureClaim k ⟨r.serial, f⟩] } t ∧
         ∀ j, j ≠ k → t.strand j = s.strand j) ∧
     (s.record? k = some r → r.stepTimer ≠ none → s.action? k = some .wait →
       r.stepIndex < r.snapshot.plan.steps.length → s.isConfigured k = true →
       ∃ t, exec (.stepTimerExpiry k) s = .next t ∧ LocalTo s t k ∧ Advanced s t k ∧ Noticed t (.state k))) ∧
    (s.isConfigured k = true →
     let later (r : RestartRecord) : List Action := (r.snapshot.plan.steps.drop r.stepIndex).map (·.action)
     (s.phase k ≠ .inrush → exec (.inrushHoldEnd k) s = .next (noticeChoice s)) ∧
     (s.record? k = some r → r.phase = .inrush → r.stepIndex < r.snapshot.plan.steps.length →
       ∃ t, exec (.inrushHoldEnd k) s = .next t ∧ LocalTo s t k ∧ Advanced s t k ∧ (t.strand k).driveLost = false ∧
         Noticed t (.state k) ∧ t.faults = s.faults ∧
         (∀ g, t.drive.grant? k = some g → g.time = s.now) ∧
         (s.drive.waiting k = false → (later r).all (· != .drive) = true → t.drive.holds k = false)) ∧
     ((s.unit k).ramp = none → exec (.rampTargetReached k) s = .next (noticeChoice s)) ∧
     ((s.unit k).ramp = some x → s.phase k ≠ .ramping →
       exec (.rampTargetReached k) s = .next (noticeChoice { s with
         units := s.units.put k { s.unit k with setpoint := x.target, ramp := none } })) ∧
     ((s.unit k).ramp = some x → s.record? k = some r → r.phase = .ramping →
       r.stepIndex < r.snapshot.plan.steps.length →
       ∃ t, exec (.rampTargetReached k) s = .next t ∧ LocalTo s t k ∧ Advanced s t k ∧ Noticed t (.state k) ∧
         t.faults = s.faults ∧
         ((later r).all (!isDrawAction ·) = true → (t.unit k).setpoint = x.target ∧ (t.unit k).ramp = none) ∧
         ((s.unit k).draw = true → (t.unit k).setpoint = x.target ∧
           ∀ y, (t.unit k).ramp = some y → y.start = x.target))) ∧
    ((lineStrands line s = [] → exec (.permissiveLevelChange line) s = .next (noticeChoice s)) ∧
     (k ∈ lineStrands line s ↔
       s.phase k = .waiting ∧ ∃ m, s.action? k = some (.check m) ∧
         match line with
         | .hydOk => m.hydOk = true
         | .driveReady j => j = k ∧ m.driveReady = true
         | .dummyAtMold j => j = k ∧ m.dummyAtMold = true
         | .moldWaterOk j => j = k ∧ m.moldWater = true) ∧
     ((∀ j ∈ lineStrands line s, ∀ m', s.action? j = some (.check m') → maskEmpty (missingLines s j m') = false) →
       exec (.permissiveLevelChange line) s =
         .next (noticeChoice { s with choices := s.choices + ((lineStrands line s).length - 1) })) ∧
     (k ∈ lineStrands line s → s.isConfigured k = true → s.record? k = some r → s.action? k = some (.check m) →
       maskEmpty (missingLines s k m) = true → r.stepIndex < r.snapshot.plan.steps.length →
       ∃ t, exec (.permissiveLevelChange line) s = .next t ∧ Advanced s t k ∧ Noticed t (.state k) ∧
         SameOutside s t ∧ SameSettings s t ∧ t.faults = s.faults ∧ ∀ j, SameStrand s t j))

/-- The stopper opens at the end of pre-charge and of the retry dwell (R65, R66, R68, R93): the fill opening is in force, the
phase is POURING without a reference, and an IDLE response runs for the whole response time; in another phase, at
another action and without a restart nothing happens.
A response timer that runs out (R68, R94, R96). POUR with attempts left: the stopper leaves the fill opening, the attempt
rises by one, the retry dwell runs and the slot is kept, IDLE. On the last attempt, and at a DRIVE step in STARTING: the slot
is given back, the strand excluded, the ARBITER notice owed, and the failure claimed. Without a running timer nothing
happens. A timer that runs out where no such step stands, as between a step's stop and its claim: at POUR the response becomes
IDLE and nothing else; at DRIVE the slot is given back, the strand excluded and no failure claimed (log 26).
The model's own reading or choice stands in log 9, 11, 12, 16, 26. -/
def Obligations.AttemptsOpenAndExpire : Prop :=
  ∀ (k : Strand) (fill start attempts dwell : Nat) (r : RestartRecord) (n i : Nat) (s : State),
    (s.record? k = some r → s.action? k = some (.opening fill start attempts dwell) →
     let opened (t : State) : Prop :=
       t.outputs k = { s.outputs k with stopper := .opening fill } ∧
       t.strands = s.strands.put k { s.strand k with
         condition := .restarting { r with phase := .pouring, phaseTimer := none, riseReference := none } } ∧
       ((s.pour.grant? k).map (·.response) = some .idle →
         (t.pour.grant? k).map (·.response) = some (.running (s.working.pour.responseTime * 1000))) ∧
       SameButNotices { s with strands := t.strands, units := t.units, pour := t.pour } t ∧
       (∀ j, j ≠ k → t.unit j = s.unit j ∧ t.pour.grant? j = s.pour.grant? j)
     (r.phase = .preCharge → ∃ t, exec (.preChargeEnd k) s = .next t ∧ opened t) ∧
     (r.phase = .retryDwell → ∃ t, exec (.retryDwellEnd k) s = .next t ∧ opened t)) ∧
    (let opens : Prop := ∃ a b c d, s.action? k = some (.opening a b c d)
     (s.phase k ≠ .preCharge ∨ ¬ opens → exec (.preChargeEnd k) s = .next (noticeChoice s)) ∧
     (s.phase k ≠ .retryDwell ∨ ¬ opens → exec (.retryDwellEnd k) s = .next (noticeChoice s)) ∧
     (responseRunning .pour k s = true → s.phase k ≠ .pouring ∨ ¬ opens →
       ∃ t, exec (.pourResponseExpiry k) s = .next t ∧
         SameButNotices { s with pour := { s.pour with
           holders := s.pour.holders.put k ((s.pour.grant? k).map fun g => { g with response := .idle }) } } t) ∧
     (responseRunning .drive k s = true → s.phase k ≠ .starting ∨ s.action? k ≠ some .drive →
       ∃ t, exec (.driveResponseExpiry k) s = .next t ∧ SameOutside s t ∧ SameSettings s t ∧ t.faults = s.faults ∧
         (∀ j, SameStrand s t j) ∧ Noticed t .arbiter ∧ t.drive.excluded = s.drive.excluded.put k true ∧
         t.pour.excluded = s.pour.excluded ∧
         (s.drive.waiting k = false → s.pour.waiting k = false →
           t.drive.holds k = false ∧ t.strand k = s.strand k ∧ t.unit k = s.unit k ∧
           ∀ f, Instr.stepFailureClaim k f ∈ t.inFlight → Instr.stepFailureClaim k f ∈ s.inFlight))) ∧
    (let excluded (t : State) (f : StepFailure) : Prop :=
       Failed s t k f ∧ Noticed t .arbiter ∧ SameOutside s t ∧ SameSettings s t ∧ t.faults = s.faults ∧
       ∀ j, j ≠ k → SameStrand s t j
     ((s.pour.grant? k).map (·.response) ≠ some (.running n) → responseRunning .pour k s = false →
       exec (.pourResponseExpiry k) s = .next (noticeChoice s)) ∧
     (responseRunning .drive k s = false → exec (.driveResponseExpiry k) s = .next (noticeChoice s)) ∧
     (responseRunning .pour k s = true → s.record? k = some r →
       s.action? k = some (.opening fill start attempts dwell) → r.phase = .pouring → r.attempt = some i → i < attempts →
       ∃ t, exec (.pourResponseExpiry k) s = .next t ∧
         (t.pour.grant? k) = (s.pour.grant? k).map (fun g => { g with response := .idle }) ∧
         t.strands = s.strands.put k { s.strand k with condition := .restarting { r with
           attempt := some (i + 1), phase := .retryDwell, phaseTimer := some (dwell * 100), riseReference := none } } ∧
         t.unit k = (s.unit k).endFill ∧ t.pour.excluded = s.pour.excluded ∧ t.inFlight = s.inFlight ∧
         SameOutside s t ∧ t.working = s.working ∧ t.faults = s.faults) ∧
     (responseRunning .pour k s = true → s.pour.waiting k = false → s.record? k = some r →
       s.action? k = some (.opening fill start attempts dwell) → r.phase = .pouring → r.attempt = some i → attempts ≤ i →
       ∃ t, exec (.pourResponseExpiry k) s = .next t ∧ excluded t (.noFlow attempts) ∧
         t.pour.holds k = false ∧ t.pour.excluded = s.pour.excluded.put k true ∧ t.drive.excluded = s.drive.excluded) ∧
     (responseRunning .drive k s = true → s.drive.waiting k = false → s.record? k = some r →
       s.action? k = some .drive → r.phase = .starting →
       ∃ t, exec (.driveResponseExpiry k) s = .next t ∧ excluded t .driveTimeout ∧
         t.drive.holds k = false ∧ t.drive.excluded = s.drive.excluded.put k true ∧ t.pour.excluded = s.pour.excluded))

/-! ### Laws that every step keeps -/

/-- HEADLINE. The link's law: at most four replies wait, and a free transmitter has nothing to send (R178, R186). -/
def Obligations.StepKeepsLinkLaw : Prop :=
  ∀ s t : State, linkLaw s = true → step s = .next t → linkLaw t = true

/-- HEADLINE. The unit's law: DRAW engaged implies LEVEL-ON on and the strand RESTARTING or CASTING; LEVEL-ON goes with a lock
band that is not 0; an inactive detector has LOCK clear and counts 0; the stopper is the regulator's exactly with LEVEL-ON on
and no fill opening (R106, R107, R110, R116).
The model's own reading or choice stands in log 16. -/
def Obligations.StepKeepsUnitLaw : Prop :=
  ∀ s t : State, unitLaw s = true → step s = .next t → unitLaw t = true

/-- HEADLINE. The pools' law: each pool is open exactly in its owner's states, and never has more holders than slots (R83,
R126, R141). -/
def Obligations.StepKeepsPoolLaw : Prop :=
  ∀ s t : State, poolLaw s = true → step s = .next t → poolLaw t = true

/-- HEADLINE. A strand whose fault record is valid is DRY, HALTED or OFFLINE (R12, R171). -/
def Obligations.StepKeepsFaultLaw : Prop :=
  ∀ s t : State, faultLaw s = true → step s = .next t → faultLaw t = true

/-- HEADLINE. A strand is HELD exactly with a hold flag, and its hold timer runs in HELD and otherwise only in RESTARTING (R7,
R9). -/
def Obligations.StepKeepsHoldLaw : Prop :=
  ∀ s t : State, holdLaw s = true → step s = .next t → holdLaw t = true

/-- HEADLINE. The Supply Monitor's timers and time stamps are present exactly in their states (R141), and every filtered line
keeps a run of at most 3, accepted at 3 (R159, R161). -/
def Obligations.StepKeepsSupplyAndFilterLaws : Prop :=
  ∀ s t : State, step s = .next t →
    (supplyLaw s = true → supplyLaw t = true) ∧ (filterLaw s = true → filterLaw t = true)

/-- HEADLINE. Every setting of the working copy, and every plan in a snapshot, stays in its range (R198).
The model's own reading or choice stands in log 23. -/
def Obligations.StepKeepsSettingsLaw : Prop :=
  ∀ s t : State, settingsLaw s = true → step s = .next t → settingsLaw t = true

/-- HEADLINE. The release set is empty unless the Coordinator is RELEASING, and holds only HELD and RESTARTING strands
(R134). -/
def Obligations.StepKeepsReleaseLaw : Prop :=
  ∀ s t : State, releaseLaw s = true → step s = .next t → releaseLaw t = true

/-- HEADLINE. A strand above the configured count stays OFFLINE UNCONFIGURED at its reset values, without a fault record and
without a notice (R3, R104). -/
def Obligations.StepKeepsUnfittedLaw : Prop :=
  ∀ s t : State, unfittedLaw s = true → step s = .next t → unfittedLaw t = true

/-- HEADLINE. A strand waits for a slot, or holds one, only while it is RESTARTING (R81).
The grant choice leaves no free slot of an open pool with a strand waiting, and keeps every wait list in grant
order (R81, R83). -/
def Obligations.StepKeepsSlotAndWaitLaws : Prop :=
  ∀ (s t : State),
    (slotLaw s = true → step s = .next t → slotLaw t = true) ∧
    (step s = .next t →
     (waitLaw s = true → waitLaw t = true) ∧ (servedLaw s = true → servedLaw t = true))
end

