-- ==== Sys2Proof/Laws/State.lean ====
section
/-! SUPPORT. What each update of State leaves alone: one lemma per update and field, and the value read back of what it
changes. No later proof unfolds an update to see that a field is the same. -/

namespace Sys2Proof.Machine

/-! ### Tables -/

@[simp] theorem look_put_same {n : Nat} {α : Type} (t : Tab n α) (i : Fin n) (x : α) : (t.put i x).look i = x := by
  simp [Tab.look, Tab.put]

@[simp] theorem look_put_ne {n : Nat} {α : Type} (t : Tab n α) (i j : Fin n) (x : α) (h : j ≠ i) :
    (t.put i x).look j = t.look j := by
  have : i.val ≠ j.val := fun e => h (Fin.ext e.symm)
  simp [Tab.look, Tab.put, this]

theorem look_put {n : Nat} {α : Type} (t : Tab n α) (i j : Fin n) (x : α) :
    (t.put i x).look j = if j = i then x else t.look j := by
  by_cases h : j = i
  · subst h; simp
  · simp [h]

@[simp] theorem look_all {n : Nat} {α : Type} (i : Fin n) (x : α) : (Tab.all n x).look i = x := by
  simp [Tab.look, Tab.all]

@[simp] theorem look_ofFn {n : Nat} {α : Type} (f : Fin n → α) (i : Fin n) :
    Tab.look (Vector.ofFn f) i = f i := by
  simp [Tab.look]

@[simp] theorem look_map {n : Nat} {α β : Type} (f : α → β) (t : Tab n α) (i : Fin n) :
    Tab.look (Vector.map f t) i = f (t.look i) := by
  simp [Tab.look]

theorem put_look {n : Nat} {α : Type} (t : Tab n α) (i : Fin n) : t.put i (t.look i) = t := by
  simp [Tab.put, Tab.look]

theorem every_iff {n : Nat} {α : Type} (t : Tab n α) (p : α → Bool) :
    t.every p = true ↔ ∀ i, p (t.look i) = true := by
  simp only [Tab.every, Tab.look, Vector.all_eq_true]
  exact ⟨fun h i => h i.val i.isLt, fun h i hi => h ⟨i, hi⟩⟩

@[simp] theorem mem_allStrands (k : Strand) : k ∈ allStrands := by
  revert k; decide

/-! ### Fields an update leaves alone -/

variable (k : Strand) (s : State)

/-! `modStrand` -/
@[simp] theorem modStrand_pending (f : StrandContext → StrandContext) : (modStrand k f s).pending = s.pending := rfl
@[simp] theorem modStrand_inFlight (f : StrandContext → StrandContext) : (modStrand k f s).inFlight = s.inFlight := rfl
@[simp] theorem modStrand_now (f : StrandContext → StrandContext) : (modStrand k f s).now = s.now := rfl
@[simp] theorem modStrand_configuredCount (f : StrandContext → StrandContext) : (modStrand k f s).configuredCount = s.configuredCount := rfl
@[simp] theorem modStrand_units (f : StrandContext → StrandContext) : (modStrand k f s).units = s.units := rfl
@[simp] theorem modStrand_pour (f : StrandContext → StrandContext) : (modStrand k f s).pour = s.pour := rfl
@[simp] theorem modStrand_drive (f : StrandContext → StrandContext) : (modStrand k f s).drive = s.drive := rfl
@[simp] theorem modStrand_lastGranted (f : StrandContext → StrandContext) : (modStrand k f s).lastGranted = s.lastGranted := rfl
@[simp] theorem modStrand_coordinator (f : StrandContext → StrandContext) : (modStrand k f s).coordinator = s.coordinator := rfl
@[simp] theorem modStrand_supply (f : StrandContext → StrandContext) : (modStrand k f s).supply = s.supply := rfl
@[simp] theorem modStrand_trip (f : StrandContext → StrandContext) : (modStrand k f s).trip = s.trip := rfl
@[simp] theorem modStrand_strandLines (f : StrandContext → StrandContext) : (modStrand k f s).strandLines = s.strandLines := rfl
@[simp] theorem modStrand_casterLines (f : StrandContext → StrandContext) : (modStrand k f s).casterLines = s.casterLines := rfl
@[simp] theorem modStrand_instants (f : StrandContext → StrandContext) : (modStrand k f s).instants = s.instants := rfl
@[simp] theorem modStrand_port (f : StrandContext → StrandContext) : (modStrand k f s).port = s.port := rfl
@[simp] theorem modStrand_faults (f : StrandContext → StrandContext) : (modStrand k f s).faults = s.faults := rfl
@[simp] theorem modStrand_noticePending (f : StrandContext → StrandContext) : (modStrand k f s).noticePending = s.noticePending := rfl
@[simp] theorem modStrand_receiver (f : StrandContext → StrandContext) : (modStrand k f s).receiver = s.receiver := rfl
@[simp] theorem modStrand_replies (f : StrandContext → StrandContext) : (modStrand k f s).replies = s.replies := rfl
@[simp] theorem modStrand_sending (f : StrandContext → StrandContext) : (modStrand k f s).sending = s.sending := rfl
@[simp] theorem modStrand_working (f : StrandContext → StrandContext) : (modStrand k f s).working = s.working := rfl
@[simp] theorem modStrand_image (f : StrandContext → StrandContext) : (modStrand k f s).image = s.image := rfl
@[simp] theorem modStrand_defaulted (f : StrandContext → StrandContext) : (modStrand k f s).defaulted = s.defaulted := rfl
@[simp] theorem modStrand_storeState (f : StrandContext → StrandContext) : (modStrand k f s).storeState = s.storeState := rfl
@[simp] theorem modStrand_nextSerial (f : StrandContext → StrandContext) : (modStrand k f s).nextSerial = s.nextSerial := rfl
@[simp] theorem modStrand_choices (f : StrandContext → StrandContext) : (modStrand k f s).choices = s.choices := rfl

/-! `setCondition` -/
@[simp] theorem setCondition_pending (c : Condition) : (setCondition k c s).pending = s.pending := rfl
@[simp] theorem setCondition_inFlight (c : Condition) : (setCondition k c s).inFlight = s.inFlight := rfl
@[simp] theorem setCondition_now (c : Condition) : (setCondition k c s).now = s.now := rfl
@[simp] theorem setCondition_configuredCount (c : Condition) : (setCondition k c s).configuredCount = s.configuredCount := rfl
@[simp] theorem setCondition_units (c : Condition) : (setCondition k c s).units = s.units := rfl
@[simp] theorem setCondition_pour (c : Condition) : (setCondition k c s).pour = s.pour := rfl
@[simp] theorem setCondition_drive (c : Condition) : (setCondition k c s).drive = s.drive := rfl
@[simp] theorem setCondition_lastGranted (c : Condition) : (setCondition k c s).lastGranted = s.lastGranted := rfl
@[simp] theorem setCondition_coordinator (c : Condition) : (setCondition k c s).coordinator = s.coordinator := rfl
@[simp] theorem setCondition_supply (c : Condition) : (setCondition k c s).supply = s.supply := rfl
@[simp] theorem setCondition_trip (c : Condition) : (setCondition k c s).trip = s.trip := rfl
@[simp] theorem setCondition_strandLines (c : Condition) : (setCondition k c s).strandLines = s.strandLines := rfl
@[simp] theorem setCondition_casterLines (c : Condition) : (setCondition k c s).casterLines = s.casterLines := rfl
@[simp] theorem setCondition_instants (c : Condition) : (setCondition k c s).instants = s.instants := rfl
@[simp] theorem setCondition_port (c : Condition) : (setCondition k c s).port = s.port := rfl
@[simp] theorem setCondition_faults (c : Condition) : (setCondition k c s).faults = s.faults := rfl
@[simp] theorem setCondition_noticePending (c : Condition) : (setCondition k c s).noticePending = s.noticePending := rfl
@[simp] theorem setCondition_receiver (c : Condition) : (setCondition k c s).receiver = s.receiver := rfl
@[simp] theorem setCondition_replies (c : Condition) : (setCondition k c s).replies = s.replies := rfl
@[simp] theorem setCondition_sending (c : Condition) : (setCondition k c s).sending = s.sending := rfl
@[simp] theorem setCondition_working (c : Condition) : (setCondition k c s).working = s.working := rfl
@[simp] theorem setCondition_image (c : Condition) : (setCondition k c s).image = s.image := rfl
@[simp] theorem setCondition_defaulted (c : Condition) : (setCondition k c s).defaulted = s.defaulted := rfl
@[simp] theorem setCondition_storeState (c : Condition) : (setCondition k c s).storeState = s.storeState := rfl
@[simp] theorem setCondition_nextSerial (c : Condition) : (setCondition k c s).nextSerial = s.nextSerial := rfl
@[simp] theorem setCondition_choices (c : Condition) : (setCondition k c s).choices = s.choices := rfl

/-! `modRecord` -/
@[simp] theorem modRecord_pending (f : RestartRecord → RestartRecord) : (modRecord k f s).pending = s.pending := by
  unfold modRecord; split <;> rfl
@[simp] theorem modRecord_inFlight (f : RestartRecord → RestartRecord) : (modRecord k f s).inFlight = s.inFlight := by
  unfold modRecord; split <;> rfl
@[simp] theorem modRecord_now (f : RestartRecord → RestartRecord) : (modRecord k f s).now = s.now := by
  unfold modRecord; split <;> rfl
@[simp] theorem modRecord_configuredCount (f : RestartRecord → RestartRecord) : (modRecord k f s).configuredCount = s.configuredCount := by
  unfold modRecord; split <;> rfl
@[simp] theorem modRecord_units (f : RestartRecord → RestartRecord) : (modRecord k f s).units = s.units := by
  unfold modRecord; split <;> rfl
@[simp] theorem modRecord_pour (f : RestartRecord → RestartRecord) : (modRecord k f s).pour = s.pour := by
  unfold modRecord; split <;> rfl
@[simp] theorem modRecord_drive (f : RestartRecord → RestartRecord) : (modRecord k f s).drive = s.drive := by
  unfold modRecord; split <;> rfl
@[simp] theorem modRecord_lastGranted (f : RestartRecord → RestartRecord) : (modRecord k f s).lastGranted = s.lastGranted := by
  unfold modRecord; split <;> rfl
@[simp] theorem modRecord_coordinator (f : RestartRecord → RestartRecord) : (modRecord k f s).coordinator = s.coordinator := by
  unfold modRecord; split <;> rfl
@[simp] theorem modRecord_supply (f : RestartRecord → RestartRecord) : (modRecord k f s).supply = s.supply := by
  unfold modRecord; split <;> rfl
@[simp] theorem modRecord_trip (f : RestartRecord → RestartRecord) : (modRecord k f s).trip = s.trip := by
  unfold modRecord; split <;> rfl
@[simp] theorem modRecord_strandLines (f : RestartRecord → RestartRecord) : (modRecord k f s).strandLines = s.strandLines := by
  unfold modRecord; split <;> rfl
@[simp] theorem modRecord_casterLines (f : RestartRecord → RestartRecord) : (modRecord k f s).casterLines = s.casterLines := by
  unfold modRecord; split <;> rfl
@[simp] theorem modRecord_instants (f : RestartRecord → RestartRecord) : (modRecord k f s).instants = s.instants := by
  unfold modRecord; split <;> rfl
@[simp] theorem modRecord_port (f : RestartRecord → RestartRecord) : (modRecord k f s).port = s.port := by
  unfold modRecord; split <;> rfl
@[simp] theorem modRecord_faults (f : RestartRecord → RestartRecord) : (modRecord k f s).faults = s.faults := by
  unfold modRecord; split <;> rfl
@[simp] theorem modRecord_noticePending (f : RestartRecord → RestartRecord) : (modRecord k f s).noticePending = s.noticePending := by
  unfold modRecord; split <;> rfl
@[simp] theorem modRecord_receiver (f : RestartRecord → RestartRecord) : (modRecord k f s).receiver = s.receiver := by
  unfold modRecord; split <;> rfl
@[simp] theorem modRecord_replies (f : RestartRecord → RestartRecord) : (modRecord k f s).replies = s.replies := by
  unfold modRecord; split <;> rfl
@[simp] theorem modRecord_sending (f : RestartRecord → RestartRecord) : (modRecord k f s).sending = s.sending := by
  unfold modRecord; split <;> rfl
@[simp] theorem modRecord_working (f : RestartRecord → RestartRecord) : (modRecord k f s).working = s.working := by
  unfold modRecord; split <;> rfl
@[simp] theorem modRecord_image (f : RestartRecord → RestartRecord) : (modRecord k f s).image = s.image := by
  unfold modRecord; split <;> rfl
@[simp] theorem modRecord_defaulted (f : RestartRecord → RestartRecord) : (modRecord k f s).defaulted = s.defaulted := by
  unfold modRecord; split <;> rfl
@[simp] theorem modRecord_storeState (f : RestartRecord → RestartRecord) : (modRecord k f s).storeState = s.storeState := by
  unfold modRecord; split <;> rfl
@[simp] theorem modRecord_nextSerial (f : RestartRecord → RestartRecord) : (modRecord k f s).nextSerial = s.nextSerial := by
  unfold modRecord; split <;> rfl
@[simp] theorem modRecord_choices (f : RestartRecord → RestartRecord) : (modRecord k f s).choices = s.choices := by
  unfold modRecord; split <;> rfl

/-! `modUnit` -/
@[simp] theorem modUnit_pending (f : UnitState → UnitState) : (modUnit k f s).pending = s.pending := rfl
@[simp] theorem modUnit_inFlight (f : UnitState → UnitState) : (modUnit k f s).inFlight = s.inFlight := rfl
@[simp] theorem modUnit_now (f : UnitState → UnitState) : (modUnit k f s).now = s.now := rfl
@[simp] theorem modUnit_configuredCount (f : UnitState → UnitState) : (modUnit k f s).configuredCount = s.configuredCount := rfl
@[simp] theorem modUnit_strands (f : UnitState → UnitState) : (modUnit k f s).strands = s.strands := rfl
@[simp] theorem modUnit_pour (f : UnitState → UnitState) : (modUnit k f s).pour = s.pour := rfl
@[simp] theorem modUnit_drive (f : UnitState → UnitState) : (modUnit k f s).drive = s.drive := rfl
@[simp] theorem modUnit_lastGranted (f : UnitState → UnitState) : (modUnit k f s).lastGranted = s.lastGranted := rfl
@[simp] theorem modUnit_coordinator (f : UnitState → UnitState) : (modUnit k f s).coordinator = s.coordinator := rfl
@[simp] theorem modUnit_supply (f : UnitState → UnitState) : (modUnit k f s).supply = s.supply := rfl
@[simp] theorem modUnit_trip (f : UnitState → UnitState) : (modUnit k f s).trip = s.trip := rfl
@[simp] theorem modUnit_strandLines (f : UnitState → UnitState) : (modUnit k f s).strandLines = s.strandLines := rfl
@[simp] theorem modUnit_casterLines (f : UnitState → UnitState) : (modUnit k f s).casterLines = s.casterLines := rfl
@[simp] theorem modUnit_instants (f : UnitState → UnitState) : (modUnit k f s).instants = s.instants := rfl
@[simp] theorem modUnit_port (f : UnitState → UnitState) : (modUnit k f s).port = s.port := rfl
@[simp] theorem modUnit_faults (f : UnitState → UnitState) : (modUnit k f s).faults = s.faults := rfl
@[simp] theorem modUnit_noticePending (f : UnitState → UnitState) : (modUnit k f s).noticePending = s.noticePending := rfl
@[simp] theorem modUnit_receiver (f : UnitState → UnitState) : (modUnit k f s).receiver = s.receiver := rfl
@[simp] theorem modUnit_replies (f : UnitState → UnitState) : (modUnit k f s).replies = s.replies := rfl
@[simp] theorem modUnit_sending (f : UnitState → UnitState) : (modUnit k f s).sending = s.sending := rfl
@[simp] theorem modUnit_working (f : UnitState → UnitState) : (modUnit k f s).working = s.working := rfl
@[simp] theorem modUnit_image (f : UnitState → UnitState) : (modUnit k f s).image = s.image := rfl
@[simp] theorem modUnit_defaulted (f : UnitState → UnitState) : (modUnit k f s).defaulted = s.defaulted := rfl
@[simp] theorem modUnit_storeState (f : UnitState → UnitState) : (modUnit k f s).storeState = s.storeState := rfl
@[simp] theorem modUnit_nextSerial (f : UnitState → UnitState) : (modUnit k f s).nextSerial = s.nextSerial := rfl
@[simp] theorem modUnit_choices (f : UnitState → UnitState) : (modUnit k f s).choices = s.choices := rfl

/-! `pend` -/
@[simp] theorem pend_pending (src : Source) : (pend src s).pending = s.pending := by
  unfold pend; split <;> rfl
@[simp] theorem pend_inFlight (src : Source) : (pend src s).inFlight = s.inFlight := by
  unfold pend; split <;> rfl
@[simp] theorem pend_now (src : Source) : (pend src s).now = s.now := by
  unfold pend; split <;> rfl
@[simp] theorem pend_configuredCount (src : Source) : (pend src s).configuredCount = s.configuredCount := by
  unfold pend; split <;> rfl
@[simp] theorem pend_strands (src : Source) : (pend src s).strands = s.strands := by
  unfold pend; split <;> rfl
@[simp] theorem pend_units (src : Source) : (pend src s).units = s.units := by
  unfold pend; split <;> rfl
@[simp] theorem pend_pour (src : Source) : (pend src s).pour = s.pour := by
  unfold pend; split <;> rfl
@[simp] theorem pend_drive (src : Source) : (pend src s).drive = s.drive := by
  unfold pend; split <;> rfl
@[simp] theorem pend_lastGranted (src : Source) : (pend src s).lastGranted = s.lastGranted := by
  unfold pend; split <;> rfl
@[simp] theorem pend_coordinator (src : Source) : (pend src s).coordinator = s.coordinator := by
  unfold pend; split <;> rfl
@[simp] theorem pend_supply (src : Source) : (pend src s).supply = s.supply := by
  unfold pend; split <;> rfl
@[simp] theorem pend_trip (src : Source) : (pend src s).trip = s.trip := by
  unfold pend; split <;> rfl
@[simp] theorem pend_strandLines (src : Source) : (pend src s).strandLines = s.strandLines := by
  unfold pend; split <;> rfl
@[simp] theorem pend_casterLines (src : Source) : (pend src s).casterLines = s.casterLines := by
  unfold pend; split <;> rfl
@[simp] theorem pend_instants (src : Source) : (pend src s).instants = s.instants := by
  unfold pend; split <;> rfl
@[simp] theorem pend_port (src : Source) : (pend src s).port = s.port := by
  unfold pend; split <;> rfl
@[simp] theorem pend_faults (src : Source) : (pend src s).faults = s.faults := by
  unfold pend; split <;> rfl
@[simp] theorem pend_receiver (src : Source) : (pend src s).receiver = s.receiver := by
  unfold pend; split <;> rfl
@[simp] theorem pend_replies (src : Source) : (pend src s).replies = s.replies := by
  unfold pend; split <;> rfl
@[simp] theorem pend_sending (src : Source) : (pend src s).sending = s.sending := by
  unfold pend; split <;> rfl
@[simp] theorem pend_working (src : Source) : (pend src s).working = s.working := by
  unfold pend; split <;> rfl
@[simp] theorem pend_image (src : Source) : (pend src s).image = s.image := by
  unfold pend; split <;> rfl
@[simp] theorem pend_defaulted (src : Source) : (pend src s).defaulted = s.defaulted := by
  unfold pend; split <;> rfl
@[simp] theorem pend_storeState (src : Source) : (pend src s).storeState = s.storeState := by
  unfold pend; split <;> rfl
@[simp] theorem pend_nextSerial (src : Source) : (pend src s).nextSerial = s.nextSerial := by
  unfold pend; split <;> rfl
@[simp] theorem pend_choices (src : Source) : (pend src s).choices = s.choices := by
  unfold pend; split <;> rfl

/-! `updUnit` -/
@[simp] theorem updUnit_pending (f : UnitState → UnitState) : (updUnit k f s).pending = s.pending := by
  unfold updUnit; split <;> simp
@[simp] theorem updUnit_inFlight (f : UnitState → UnitState) : (updUnit k f s).inFlight = s.inFlight := by
  unfold updUnit; split <;> simp
@[simp] theorem updUnit_now (f : UnitState → UnitState) : (updUnit k f s).now = s.now := by
  unfold updUnit; split <;> simp
@[simp] theorem updUnit_configuredCount (f : UnitState → UnitState) : (updUnit k f s).configuredCount = s.configuredCount := by
  unfold updUnit; split <;> simp
@[simp] theorem updUnit_strands (f : UnitState → UnitState) : (updUnit k f s).strands = s.strands := by
  unfold updUnit; split <;> simp
@[simp] theorem updUnit_pour (f : UnitState → UnitState) : (updUnit k f s).pour = s.pour := by
  unfold updUnit; split <;> simp
@[simp] theorem updUnit_drive (f : UnitState → UnitState) : (updUnit k f s).drive = s.drive := by
  unfold updUnit; split <;> simp
@[simp] theorem updUnit_lastGranted (f : UnitState → UnitState) : (updUnit k f s).lastGranted = s.lastGranted := by
  unfold updUnit; split <;> simp
@[simp] theorem updUnit_coordinator (f : UnitState → UnitState) : (updUnit k f s).coordinator = s.coordinator := by
  unfold updUnit; split <;> simp
@[simp] theorem updUnit_supply (f : UnitState → UnitState) : (updUnit k f s).supply = s.supply := by
  unfold updUnit; split <;> simp
@[simp] theorem updUnit_trip (f : UnitState → UnitState) : (updUnit k f s).trip = s.trip := by
  unfold updUnit; split <;> simp
@[simp] theorem updUnit_strandLines (f : UnitState → UnitState) : (updUnit k f s).strandLines = s.strandLines := by
  unfold updUnit; split <;> simp
@[simp] theorem updUnit_casterLines (f : UnitState → UnitState) : (updUnit k f s).casterLines = s.casterLines := by
  unfold updUnit; split <;> simp
@[simp] theorem updUnit_instants (f : UnitState → UnitState) : (updUnit k f s).instants = s.instants := by
  unfold updUnit; split <;> simp
@[simp] theorem updUnit_port (f : UnitState → UnitState) : (updUnit k f s).port = s.port := by
  unfold updUnit; split <;> simp
@[simp] theorem updUnit_faults (f : UnitState → UnitState) : (updUnit k f s).faults = s.faults := by
  unfold updUnit; split <;> simp
@[simp] theorem updUnit_receiver (f : UnitState → UnitState) : (updUnit k f s).receiver = s.receiver := by
  unfold updUnit; split <;> simp
@[simp] theorem updUnit_replies (f : UnitState → UnitState) : (updUnit k f s).replies = s.replies := by
  unfold updUnit; split <;> simp
@[simp] theorem updUnit_sending (f : UnitState → UnitState) : (updUnit k f s).sending = s.sending := by
  unfold updUnit; split <;> simp
@[simp] theorem updUnit_working (f : UnitState → UnitState) : (updUnit k f s).working = s.working := by
  unfold updUnit; split <;> simp
@[simp] theorem updUnit_image (f : UnitState → UnitState) : (updUnit k f s).image = s.image := by
  unfold updUnit; split <;> simp
@[simp] theorem updUnit_defaulted (f : UnitState → UnitState) : (updUnit k f s).defaulted = s.defaulted := by
  unfold updUnit; split <;> simp
@[simp] theorem updUnit_storeState (f : UnitState → UnitState) : (updUnit k f s).storeState = s.storeState := by
  unfold updUnit; split <;> simp
@[simp] theorem updUnit_nextSerial (f : UnitState → UnitState) : (updUnit k f s).nextSerial = s.nextSerial := by
  unfold updUnit; split <;> simp
@[simp] theorem updUnit_choices (f : UnitState → UnitState) : (updUnit k f s).choices = s.choices := by
  unfold updUnit; split <;> simp

/-! `modReported` -/
@[simp] theorem modReported_pending (f : StrandContext → StrandContext) : (modReported k f s).pending = s.pending := by
  unfold modReported; split <;> simp
@[simp] theorem modReported_inFlight (f : StrandContext → StrandContext) : (modReported k f s).inFlight = s.inFlight := by
  unfold modReported; split <;> simp
@[simp] theorem modReported_now (f : StrandContext → StrandContext) : (modReported k f s).now = s.now := by
  unfold modReported; split <;> simp
@[simp] theorem modReported_configuredCount (f : StrandContext → StrandContext) : (modReported k f s).configuredCount = s.configuredCount := by
  unfold modReported; split <;> simp
@[simp] theorem modReported_units (f : StrandContext → StrandContext) : (modReported k f s).units = s.units := by
  unfold modReported; split <;> simp
@[simp] theorem modReported_pour (f : StrandContext → StrandContext) : (modReported k f s).pour = s.pour := by
  unfold modReported; split <;> simp
@[simp] theorem modReported_drive (f : StrandContext → StrandContext) : (modReported k f s).drive = s.drive := by
  unfold modReported; split <;> simp
@[simp] theorem modReported_lastGranted (f : StrandContext → StrandContext) : (modReported k f s).lastGranted = s.lastGranted := by
  unfold modReported; split <;> simp
@[simp] theorem modReported_coordinator (f : StrandContext → StrandContext) : (modReported k f s).coordinator = s.coordinator := by
  unfold modReported; split <;> simp
@[simp] theorem modReported_supply (f : StrandContext → StrandContext) : (modReported k f s).supply = s.supply := by
  unfold modReported; split <;> simp
@[simp] theorem modReported_trip (f : StrandContext → StrandContext) : (modReported k f s).trip = s.trip := by
  unfold modReported; split <;> simp
@[simp] theorem modReported_strandLines (f : StrandContext → StrandContext) : (modReported k f s).strandLines = s.strandLines := by
  unfold modReported; split <;> simp
@[simp] theorem modReported_casterLines (f : StrandContext → StrandContext) : (modReported k f s).casterLines = s.casterLines := by
  unfold modReported; split <;> simp
@[simp] theorem modReported_instants (f : StrandContext → StrandContext) : (modReported k f s).instants = s.instants := by
  unfold modReported; split <;> simp
@[simp] theorem modReported_port (f : StrandContext → StrandContext) : (modReported k f s).port = s.port := by
  unfold modReported; split <;> simp
@[simp] theorem modReported_faults (f : StrandContext → StrandContext) : (modReported k f s).faults = s.faults := by
  unfold modReported; split <;> simp
@[simp] theorem modReported_receiver (f : StrandContext → StrandContext) : (modReported k f s).receiver = s.receiver := by
  unfold modReported; split <;> simp
@[simp] theorem modReported_replies (f : StrandContext → StrandContext) : (modReported k f s).replies = s.replies := by
  unfold modReported; split <;> simp
@[simp] theorem modReported_sending (f : StrandContext → StrandContext) : (modReported k f s).sending = s.sending := by
  unfold modReported; split <;> simp
@[simp] theorem modReported_working (f : StrandContext → StrandContext) : (modReported k f s).working = s.working := by
  unfold modReported; split <;> simp
@[simp] theorem modReported_image (f : StrandContext → StrandContext) : (modReported k f s).image = s.image := by
  unfold modReported; split <;> simp
@[simp] theorem modReported_defaulted (f : StrandContext → StrandContext) : (modReported k f s).defaulted = s.defaulted := by
  unfold modReported; split <;> simp
@[simp] theorem modReported_storeState (f : StrandContext → StrandContext) : (modReported k f s).storeState = s.storeState := by
  unfold modReported; split <;> simp
@[simp] theorem modReported_nextSerial (f : StrandContext → StrandContext) : (modReported k f s).nextSerial = s.nextSerial := by
  unfold modReported; split <;> simp
@[simp] theorem modReported_choices (f : StrandContext → StrandContext) : (modReported k f s).choices = s.choices := by
  unfold modReported; split <;> simp

/-! `writeFault` -/
@[simp] theorem writeFault_pending (c : FaultCode) (d : Nat) : (writeFault k c d s).pending = s.pending := by
  simp [writeFault]
@[simp] theorem writeFault_inFlight (c : FaultCode) (d : Nat) : (writeFault k c d s).inFlight = s.inFlight := by
  simp [writeFault]
@[simp] theorem writeFault_now (c : FaultCode) (d : Nat) : (writeFault k c d s).now = s.now := by
  simp [writeFault]
@[simp] theorem writeFault_configuredCount (c : FaultCode) (d : Nat) : (writeFault k c d s).configuredCount = s.configuredCount := by
  simp [writeFault]
@[simp] theorem writeFault_strands (c : FaultCode) (d : Nat) : (writeFault k c d s).strands = s.strands := by
  simp [writeFault]
@[simp] theorem writeFault_units (c : FaultCode) (d : Nat) : (writeFault k c d s).units = s.units := by
  simp [writeFault]
@[simp] theorem writeFault_pour (c : FaultCode) (d : Nat) : (writeFault k c d s).pour = s.pour := by
  simp [writeFault]
@[simp] theorem writeFault_drive (c : FaultCode) (d : Nat) : (writeFault k c d s).drive = s.drive := by
  simp [writeFault]
@[simp] theorem writeFault_lastGranted (c : FaultCode) (d : Nat) : (writeFault k c d s).lastGranted = s.lastGranted := by
  simp [writeFault]
@[simp] theorem writeFault_coordinator (c : FaultCode) (d : Nat) : (writeFault k c d s).coordinator = s.coordinator := by
  simp [writeFault]
@[simp] theorem writeFault_supply (c : FaultCode) (d : Nat) : (writeFault k c d s).supply = s.supply := by
  simp [writeFault]
@[simp] theorem writeFault_trip (c : FaultCode) (d : Nat) : (writeFault k c d s).trip = s.trip := by
  simp [writeFault]
@[simp] theorem writeFault_strandLines (c : FaultCode) (d : Nat) : (writeFault k c d s).strandLines = s.strandLines := by
  simp [writeFault]
@[simp] theorem writeFault_casterLines (c : FaultCode) (d : Nat) : (writeFault k c d s).casterLines = s.casterLines := by
  simp [writeFault]
@[simp] theorem writeFault_instants (c : FaultCode) (d : Nat) : (writeFault k c d s).instants = s.instants := by
  simp [writeFault]
@[simp] theorem writeFault_port (c : FaultCode) (d : Nat) : (writeFault k c d s).port = s.port := by
  simp [writeFault]
@[simp] theorem writeFault_receiver (c : FaultCode) (d : Nat) : (writeFault k c d s).receiver = s.receiver := by
  simp [writeFault]
@[simp] theorem writeFault_replies (c : FaultCode) (d : Nat) : (writeFault k c d s).replies = s.replies := by
  simp [writeFault]
@[simp] theorem writeFault_sending (c : FaultCode) (d : Nat) : (writeFault k c d s).sending = s.sending := by
  simp [writeFault]
@[simp] theorem writeFault_working (c : FaultCode) (d : Nat) : (writeFault k c d s).working = s.working := by
  simp [writeFault]
@[simp] theorem writeFault_image (c : FaultCode) (d : Nat) : (writeFault k c d s).image = s.image := by
  simp [writeFault]
@[simp] theorem writeFault_defaulted (c : FaultCode) (d : Nat) : (writeFault k c d s).defaulted = s.defaulted := by
  simp [writeFault]
@[simp] theorem writeFault_storeState (c : FaultCode) (d : Nat) : (writeFault k c d s).storeState = s.storeState := by
  simp [writeFault]
@[simp] theorem writeFault_nextSerial (c : FaultCode) (d : Nat) : (writeFault k c d s).nextSerial = s.nextSerial := by
  simp [writeFault]
@[simp] theorem writeFault_choices (c : FaultCode) (d : Nat) : (writeFault k c d s).choices = s.choices := by
  simp [writeFault]

/-! `setPool` -/
@[simp] theorem setPool_pending (p : PoolId) (x : Pool) : (setPool p x s).pending = s.pending := by
  cases p <;> rfl
@[simp] theorem setPool_inFlight (p : PoolId) (x : Pool) : (setPool p x s).inFlight = s.inFlight := by
  cases p <;> rfl
@[simp] theorem setPool_now (p : PoolId) (x : Pool) : (setPool p x s).now = s.now := by
  cases p <;> rfl
@[simp] theorem setPool_configuredCount (p : PoolId) (x : Pool) : (setPool p x s).configuredCount = s.configuredCount := by
  cases p <;> rfl
@[simp] theorem setPool_strands (p : PoolId) (x : Pool) : (setPool p x s).strands = s.strands := by
  cases p <;> rfl
@[simp] theorem setPool_units (p : PoolId) (x : Pool) : (setPool p x s).units = s.units := by
  cases p <;> rfl
@[simp] theorem setPool_lastGranted (p : PoolId) (x : Pool) : (setPool p x s).lastGranted = s.lastGranted := by
  cases p <;> rfl
@[simp] theorem setPool_coordinator (p : PoolId) (x : Pool) : (setPool p x s).coordinator = s.coordinator := by
  cases p <;> rfl
@[simp] theorem setPool_supply (p : PoolId) (x : Pool) : (setPool p x s).supply = s.supply := by
  cases p <;> rfl
@[simp] theorem setPool_trip (p : PoolId) (x : Pool) : (setPool p x s).trip = s.trip := by
  cases p <;> rfl
@[simp] theorem setPool_strandLines (p : PoolId) (x : Pool) : (setPool p x s).strandLines = s.strandLines := by
  cases p <;> rfl
@[simp] theorem setPool_casterLines (p : PoolId) (x : Pool) : (setPool p x s).casterLines = s.casterLines := by
  cases p <;> rfl
@[simp] theorem setPool_instants (p : PoolId) (x : Pool) : (setPool p x s).instants = s.instants := by
  cases p <;> rfl
@[simp] theorem setPool_port (p : PoolId) (x : Pool) : (setPool p x s).port = s.port := by
  cases p <;> rfl
@[simp] theorem setPool_faults (p : PoolId) (x : Pool) : (setPool p x s).faults = s.faults := by
  cases p <;> rfl
@[simp] theorem setPool_noticePending (p : PoolId) (x : Pool) : (setPool p x s).noticePending = s.noticePending := by
  cases p <;> rfl
@[simp] theorem setPool_receiver (p : PoolId) (x : Pool) : (setPool p x s).receiver = s.receiver := by
  cases p <;> rfl
@[simp] theorem setPool_replies (p : PoolId) (x : Pool) : (setPool p x s).replies = s.replies := by
  cases p <;> rfl
@[simp] theorem setPool_sending (p : PoolId) (x : Pool) : (setPool p x s).sending = s.sending := by
  cases p <;> rfl
@[simp] theorem setPool_working (p : PoolId) (x : Pool) : (setPool p x s).working = s.working := by
  cases p <;> rfl
@[simp] theorem setPool_image (p : PoolId) (x : Pool) : (setPool p x s).image = s.image := by
  cases p <;> rfl
@[simp] theorem setPool_defaulted (p : PoolId) (x : Pool) : (setPool p x s).defaulted = s.defaulted := by
  cases p <;> rfl
@[simp] theorem setPool_storeState (p : PoolId) (x : Pool) : (setPool p x s).storeState = s.storeState := by
  cases p <;> rfl
@[simp] theorem setPool_nextSerial (p : PoolId) (x : Pool) : (setPool p x s).nextSerial = s.nextSerial := by
  cases p <;> rfl
@[simp] theorem setPool_choices (p : PoolId) (x : Pool) : (setPool p x s).choices = s.choices := by
  cases p <;> rfl

/-! `modPool` -/
@[simp] theorem modPool_pending (p : PoolId) (f : Pool → Pool) : (modPool p f s).pending = s.pending := by
  cases p <;> rfl
@[simp] theorem modPool_inFlight (p : PoolId) (f : Pool → Pool) : (modPool p f s).inFlight = s.inFlight := by
  cases p <;> rfl
@[simp] theorem modPool_now (p : PoolId) (f : Pool → Pool) : (modPool p f s).now = s.now := by
  cases p <;> rfl
@[simp] theorem modPool_configuredCount (p : PoolId) (f : Pool → Pool) : (modPool p f s).configuredCount = s.configuredCount := by
  cases p <;> rfl
@[simp] theorem modPool_strands (p : PoolId) (f : Pool → Pool) : (modPool p f s).strands = s.strands := by
  cases p <;> rfl
@[simp] theorem modPool_units (p : PoolId) (f : Pool → Pool) : (modPool p f s).units = s.units := by
  cases p <;> rfl
@[simp] theorem modPool_lastGranted (p : PoolId) (f : Pool → Pool) : (modPool p f s).lastGranted = s.lastGranted := by
  cases p <;> rfl
@[simp] theorem modPool_coordinator (p : PoolId) (f : Pool → Pool) : (modPool p f s).coordinator = s.coordinator := by
  cases p <;> rfl
@[simp] theorem modPool_supply (p : PoolId) (f : Pool → Pool) : (modPool p f s).supply = s.supply := by
  cases p <;> rfl
@[simp] theorem modPool_trip (p : PoolId) (f : Pool → Pool) : (modPool p f s).trip = s.trip := by
  cases p <;> rfl
@[simp] theorem modPool_strandLines (p : PoolId) (f : Pool → Pool) : (modPool p f s).strandLines = s.strandLines := by
  cases p <;> rfl
@[simp] theorem modPool_casterLines (p : PoolId) (f : Pool → Pool) : (modPool p f s).casterLines = s.casterLines := by
  cases p <;> rfl
@[simp] theorem modPool_instants (p : PoolId) (f : Pool → Pool) : (modPool p f s).instants = s.instants := by
  cases p <;> rfl
@[simp] theorem modPool_port (p : PoolId) (f : Pool → Pool) : (modPool p f s).port = s.port := by
  cases p <;> rfl
@[simp] theorem modPool_faults (p : PoolId) (f : Pool → Pool) : (modPool p f s).faults = s.faults := by
  cases p <;> rfl
@[simp] theorem modPool_noticePending (p : PoolId) (f : Pool → Pool) : (modPool p f s).noticePending = s.noticePending := by
  cases p <;> rfl
@[simp] theorem modPool_receiver (p : PoolId) (f : Pool → Pool) : (modPool p f s).receiver = s.receiver := by
  cases p <;> rfl
@[simp] theorem modPool_replies (p : PoolId) (f : Pool → Pool) : (modPool p f s).replies = s.replies := by
  cases p <;> rfl
@[simp] theorem modPool_sending (p : PoolId) (f : Pool → Pool) : (modPool p f s).sending = s.sending := by
  cases p <;> rfl
@[simp] theorem modPool_working (p : PoolId) (f : Pool → Pool) : (modPool p f s).working = s.working := by
  cases p <;> rfl
@[simp] theorem modPool_image (p : PoolId) (f : Pool → Pool) : (modPool p f s).image = s.image := by
  cases p <;> rfl
@[simp] theorem modPool_defaulted (p : PoolId) (f : Pool → Pool) : (modPool p f s).defaulted = s.defaulted := by
  cases p <;> rfl
@[simp] theorem modPool_storeState (p : PoolId) (f : Pool → Pool) : (modPool p f s).storeState = s.storeState := by
  cases p <;> rfl
@[simp] theorem modPool_nextSerial (p : PoolId) (f : Pool → Pool) : (modPool p f s).nextSerial = s.nextSerial := by
  cases p <;> rfl
@[simp] theorem modPool_choices (p : PoolId) (f : Pool → Pool) : (modPool p f s).choices = s.choices := by
  cases p <;> rfl

/-! `modGrant` -/
@[simp] theorem modGrant_pending (p : PoolId) (f : Grant → Grant) : (modGrant p k f s).pending = s.pending := by
  unfold modGrant; split <;> simp
@[simp] theorem modGrant_inFlight (p : PoolId) (f : Grant → Grant) : (modGrant p k f s).inFlight = s.inFlight := by
  unfold modGrant; split <;> simp
@[simp] theorem modGrant_now (p : PoolId) (f : Grant → Grant) : (modGrant p k f s).now = s.now := by
  unfold modGrant; split <;> simp
@[simp] theorem modGrant_configuredCount (p : PoolId) (f : Grant → Grant) : (modGrant p k f s).configuredCount = s.configuredCount := by
  unfold modGrant; split <;> simp
@[simp] theorem modGrant_strands (p : PoolId) (f : Grant → Grant) : (modGrant p k f s).strands = s.strands := by
  unfold modGrant; split <;> simp
@[simp] theorem modGrant_units (p : PoolId) (f : Grant → Grant) : (modGrant p k f s).units = s.units := by
  unfold modGrant; split <;> simp
@[simp] theorem modGrant_lastGranted (p : PoolId) (f : Grant → Grant) : (modGrant p k f s).lastGranted = s.lastGranted := by
  unfold modGrant; split <;> simp
@[simp] theorem modGrant_coordinator (p : PoolId) (f : Grant → Grant) : (modGrant p k f s).coordinator = s.coordinator := by
  unfold modGrant; split <;> simp
@[simp] theorem modGrant_supply (p : PoolId) (f : Grant → Grant) : (modGrant p k f s).supply = s.supply := by
  unfold modGrant; split <;> simp
@[simp] theorem modGrant_trip (p : PoolId) (f : Grant → Grant) : (modGrant p k f s).trip = s.trip := by
  unfold modGrant; split <;> simp
@[simp] theorem modGrant_strandLines (p : PoolId) (f : Grant → Grant) : (modGrant p k f s).strandLines = s.strandLines := by
  unfold modGrant; split <;> simp
@[simp] theorem modGrant_casterLines (p : PoolId) (f : Grant → Grant) : (modGrant p k f s).casterLines = s.casterLines := by
  unfold modGrant; split <;> simp
@[simp] theorem modGrant_instants (p : PoolId) (f : Grant → Grant) : (modGrant p k f s).instants = s.instants := by
  unfold modGrant; split <;> simp
@[simp] theorem modGrant_port (p : PoolId) (f : Grant → Grant) : (modGrant p k f s).port = s.port := by
  unfold modGrant; split <;> simp
@[simp] theorem modGrant_faults (p : PoolId) (f : Grant → Grant) : (modGrant p k f s).faults = s.faults := by
  unfold modGrant; split <;> simp
@[simp] theorem modGrant_noticePending (p : PoolId) (f : Grant → Grant) : (modGrant p k f s).noticePending = s.noticePending := by
  unfold modGrant; split <;> simp
@[simp] theorem modGrant_receiver (p : PoolId) (f : Grant → Grant) : (modGrant p k f s).receiver = s.receiver := by
  unfold modGrant; split <;> simp
@[simp] theorem modGrant_replies (p : PoolId) (f : Grant → Grant) : (modGrant p k f s).replies = s.replies := by
  unfold modGrant; split <;> simp
@[simp] theorem modGrant_sending (p : PoolId) (f : Grant → Grant) : (modGrant p k f s).sending = s.sending := by
  unfold modGrant; split <;> simp
@[simp] theorem modGrant_working (p : PoolId) (f : Grant → Grant) : (modGrant p k f s).working = s.working := by
  unfold modGrant; split <;> simp
@[simp] theorem modGrant_image (p : PoolId) (f : Grant → Grant) : (modGrant p k f s).image = s.image := by
  unfold modGrant; split <;> simp
@[simp] theorem modGrant_defaulted (p : PoolId) (f : Grant → Grant) : (modGrant p k f s).defaulted = s.defaulted := by
  unfold modGrant; split <;> simp
@[simp] theorem modGrant_storeState (p : PoolId) (f : Grant → Grant) : (modGrant p k f s).storeState = s.storeState := by
  unfold modGrant; split <;> simp
@[simp] theorem modGrant_nextSerial (p : PoolId) (f : Grant → Grant) : (modGrant p k f s).nextSerial = s.nextSerial := by
  unfold modGrant; split <;> simp
@[simp] theorem modGrant_choices (p : PoolId) (f : Grant → Grant) : (modGrant p k f s).choices = s.choices := by
  unfold modGrant; split <;> simp

/-! `emit` -/
@[simp] theorem emit_pending (i : Instr) : (emit i s).pending = s.pending := rfl
@[simp] theorem emit_now (i : Instr) : (emit i s).now = s.now := rfl
@[simp] theorem emit_configuredCount (i : Instr) : (emit i s).configuredCount = s.configuredCount := rfl
@[simp] theorem emit_strands (i : Instr) : (emit i s).strands = s.strands := rfl
@[simp] theorem emit_units (i : Instr) : (emit i s).units = s.units := rfl
@[simp] theorem emit_pour (i : Instr) : (emit i s).pour = s.pour := rfl
@[simp] theorem emit_drive (i : Instr) : (emit i s).drive = s.drive := rfl
@[simp] theorem emit_lastGranted (i : Instr) : (emit i s).lastGranted = s.lastGranted := rfl
@[simp] theorem emit_coordinator (i : Instr) : (emit i s).coordinator = s.coordinator := rfl
@[simp] theorem emit_supply (i : Instr) : (emit i s).supply = s.supply := rfl
@[simp] theorem emit_trip (i : Instr) : (emit i s).trip = s.trip := rfl
@[simp] theorem emit_strandLines (i : Instr) : (emit i s).strandLines = s.strandLines := rfl
@[simp] theorem emit_casterLines (i : Instr) : (emit i s).casterLines = s.casterLines := rfl
@[simp] theorem emit_instants (i : Instr) : (emit i s).instants = s.instants := rfl
@[simp] theorem emit_port (i : Instr) : (emit i s).port = s.port := rfl
@[simp] theorem emit_faults (i : Instr) : (emit i s).faults = s.faults := rfl
@[simp] theorem emit_noticePending (i : Instr) : (emit i s).noticePending = s.noticePending := rfl
@[simp] theorem emit_receiver (i : Instr) : (emit i s).receiver = s.receiver := rfl
@[simp] theorem emit_replies (i : Instr) : (emit i s).replies = s.replies := rfl
@[simp] theorem emit_sending (i : Instr) : (emit i s).sending = s.sending := rfl
@[simp] theorem emit_working (i : Instr) : (emit i s).working = s.working := rfl
@[simp] theorem emit_image (i : Instr) : (emit i s).image = s.image := rfl
@[simp] theorem emit_defaulted (i : Instr) : (emit i s).defaulted = s.defaulted := rfl
@[simp] theorem emit_storeState (i : Instr) : (emit i s).storeState = s.storeState := rfl
@[simp] theorem emit_nextSerial (i : Instr) : (emit i s).nextSerial = s.nextSerial := rfl
@[simp] theorem emit_choices (i : Instr) : (emit i s).choices = s.choices := rfl

/-! `emitAll` -/
@[simp] theorem emitAll_pending (l : List Instr) : (emitAll l s).pending = s.pending := rfl
@[simp] theorem emitAll_now (l : List Instr) : (emitAll l s).now = s.now := rfl
@[simp] theorem emitAll_configuredCount (l : List Instr) : (emitAll l s).configuredCount = s.configuredCount := rfl
@[simp] theorem emitAll_strands (l : List Instr) : (emitAll l s).strands = s.strands := rfl
@[simp] theorem emitAll_units (l : List Instr) : (emitAll l s).units = s.units := rfl
@[simp] theorem emitAll_pour (l : List Instr) : (emitAll l s).pour = s.pour := rfl
@[simp] theorem emitAll_drive (l : List Instr) : (emitAll l s).drive = s.drive := rfl
@[simp] theorem emitAll_lastGranted (l : List Instr) : (emitAll l s).lastGranted = s.lastGranted := rfl
@[simp] theorem emitAll_coordinator (l : List Instr) : (emitAll l s).coordinator = s.coordinator := rfl
@[simp] theorem emitAll_supply (l : List Instr) : (emitAll l s).supply = s.supply := rfl
@[simp] theorem emitAll_trip (l : List Instr) : (emitAll l s).trip = s.trip := rfl
@[simp] theorem emitAll_strandLines (l : List Instr) : (emitAll l s).strandLines = s.strandLines := rfl
@[simp] theorem emitAll_casterLines (l : List Instr) : (emitAll l s).casterLines = s.casterLines := rfl
@[simp] theorem emitAll_instants (l : List Instr) : (emitAll l s).instants = s.instants := rfl
@[simp] theorem emitAll_port (l : List Instr) : (emitAll l s).port = s.port := rfl
@[simp] theorem emitAll_faults (l : List Instr) : (emitAll l s).faults = s.faults := rfl
@[simp] theorem emitAll_noticePending (l : List Instr) : (emitAll l s).noticePending = s.noticePending := rfl
@[simp] theorem emitAll_receiver (l : List Instr) : (emitAll l s).receiver = s.receiver := rfl
@[simp] theorem emitAll_replies (l : List Instr) : (emitAll l s).replies = s.replies := rfl
@[simp] theorem emitAll_sending (l : List Instr) : (emitAll l s).sending = s.sending := rfl
@[simp] theorem emitAll_working (l : List Instr) : (emitAll l s).working = s.working := rfl
@[simp] theorem emitAll_image (l : List Instr) : (emitAll l s).image = s.image := rfl
@[simp] theorem emitAll_defaulted (l : List Instr) : (emitAll l s).defaulted = s.defaulted := rfl
@[simp] theorem emitAll_storeState (l : List Instr) : (emitAll l s).storeState = s.storeState := rfl
@[simp] theorem emitAll_nextSerial (l : List Instr) : (emitAll l s).nextSerial = s.nextSerial := rfl
@[simp] theorem emitAll_choices (l : List Instr) : (emitAll l s).choices = s.choices := rfl

/-! `modCoordinator` -/
@[simp] theorem modCoordinator_pending (f : Coordinator → Coordinator) : (modCoordinator f s).pending = s.pending := rfl
@[simp] theorem modCoordinator_inFlight (f : Coordinator → Coordinator) : (modCoordinator f s).inFlight = s.inFlight := rfl
@[simp] theorem modCoordinator_now (f : Coordinator → Coordinator) : (modCoordinator f s).now = s.now := rfl
@[simp] theorem modCoordinator_configuredCount (f : Coordinator → Coordinator) : (modCoordinator f s).configuredCount = s.configuredCount := rfl
@[simp] theorem modCoordinator_strands (f : Coordinator → Coordinator) : (modCoordinator f s).strands = s.strands := rfl
@[simp] theorem modCoordinator_units (f : Coordinator → Coordinator) : (modCoordinator f s).units = s.units := rfl
@[simp] theorem modCoordinator_pour (f : Coordinator → Coordinator) : (modCoordinator f s).pour = s.pour := rfl
@[simp] theorem modCoordinator_drive (f : Coordinator → Coordinator) : (modCoordinator f s).drive = s.drive := rfl
@[simp] theorem modCoordinator_lastGranted (f : Coordinator → Coordinator) : (modCoordinator f s).lastGranted = s.lastGranted := rfl
@[simp] theorem modCoordinator_supply (f : Coordinator → Coordinator) : (modCoordinator f s).supply = s.supply := rfl
@[simp] theorem modCoordinator_trip (f : Coordinator → Coordinator) : (modCoordinator f s).trip = s.trip := rfl
@[simp] theorem modCoordinator_strandLines (f : Coordinator → Coordinator) : (modCoordinator f s).strandLines = s.strandLines := rfl
@[simp] theorem modCoordinator_casterLines (f : Coordinator → Coordinator) : (modCoordinator f s).casterLines = s.casterLines := rfl
@[simp] theorem modCoordinator_instants (f : Coordinator → Coordinator) : (modCoordinator f s).instants = s.instants := rfl
@[simp] theorem modCoordinator_port (f : Coordinator → Coordinator) : (modCoordinator f s).port = s.port := rfl
@[simp] theorem modCoordinator_faults (f : Coordinator → Coordinator) : (modCoordinator f s).faults = s.faults := rfl
@[simp] theorem modCoordinator_noticePending (f : Coordinator → Coordinator) : (modCoordinator f s).noticePending = s.noticePending := rfl
@[simp] theorem modCoordinator_receiver (f : Coordinator → Coordinator) : (modCoordinator f s).receiver = s.receiver := rfl
@[simp] theorem modCoordinator_replies (f : Coordinator → Coordinator) : (modCoordinator f s).replies = s.replies := rfl
@[simp] theorem modCoordinator_sending (f : Coordinator → Coordinator) : (modCoordinator f s).sending = s.sending := rfl
@[simp] theorem modCoordinator_working (f : Coordinator → Coordinator) : (modCoordinator f s).working = s.working := rfl
@[simp] theorem modCoordinator_image (f : Coordinator → Coordinator) : (modCoordinator f s).image = s.image := rfl
@[simp] theorem modCoordinator_defaulted (f : Coordinator → Coordinator) : (modCoordinator f s).defaulted = s.defaulted := rfl
@[simp] theorem modCoordinator_storeState (f : Coordinator → Coordinator) : (modCoordinator f s).storeState = s.storeState := rfl
@[simp] theorem modCoordinator_nextSerial (f : Coordinator → Coordinator) : (modCoordinator f s).nextSerial = s.nextSerial := rfl
@[simp] theorem modCoordinator_choices (f : Coordinator → Coordinator) : (modCoordinator f s).choices = s.choices := rfl

/-! `modSupply` -/
@[simp] theorem modSupply_pending (f : SupplyMonitor → SupplyMonitor) : (modSupply f s).pending = s.pending := rfl
@[simp] theorem modSupply_inFlight (f : SupplyMonitor → SupplyMonitor) : (modSupply f s).inFlight = s.inFlight := rfl
@[simp] theorem modSupply_now (f : SupplyMonitor → SupplyMonitor) : (modSupply f s).now = s.now := rfl
@[simp] theorem modSupply_configuredCount (f : SupplyMonitor → SupplyMonitor) : (modSupply f s).configuredCount = s.configuredCount := rfl
@[simp] theorem modSupply_strands (f : SupplyMonitor → SupplyMonitor) : (modSupply f s).strands = s.strands := rfl
@[simp] theorem modSupply_units (f : SupplyMonitor → SupplyMonitor) : (modSupply f s).units = s.units := rfl
@[simp] theorem modSupply_pour (f : SupplyMonitor → SupplyMonitor) : (modSupply f s).pour = s.pour := rfl
@[simp] theorem modSupply_drive (f : SupplyMonitor → SupplyMonitor) : (modSupply f s).drive = s.drive := rfl
@[simp] theorem modSupply_lastGranted (f : SupplyMonitor → SupplyMonitor) : (modSupply f s).lastGranted = s.lastGranted := rfl
@[simp] theorem modSupply_coordinator (f : SupplyMonitor → SupplyMonitor) : (modSupply f s).coordinator = s.coordinator := rfl
@[simp] theorem modSupply_trip (f : SupplyMonitor → SupplyMonitor) : (modSupply f s).trip = s.trip := rfl
@[simp] theorem modSupply_strandLines (f : SupplyMonitor → SupplyMonitor) : (modSupply f s).strandLines = s.strandLines := rfl
@[simp] theorem modSupply_casterLines (f : SupplyMonitor → SupplyMonitor) : (modSupply f s).casterLines = s.casterLines := rfl
@[simp] theorem modSupply_instants (f : SupplyMonitor → SupplyMonitor) : (modSupply f s).instants = s.instants := rfl
@[simp] theorem modSupply_port (f : SupplyMonitor → SupplyMonitor) : (modSupply f s).port = s.port := rfl
@[simp] theorem modSupply_faults (f : SupplyMonitor → SupplyMonitor) : (modSupply f s).faults = s.faults := rfl
@[simp] theorem modSupply_noticePending (f : SupplyMonitor → SupplyMonitor) : (modSupply f s).noticePending = s.noticePending := rfl
@[simp] theorem modSupply_receiver (f : SupplyMonitor → SupplyMonitor) : (modSupply f s).receiver = s.receiver := rfl
@[simp] theorem modSupply_replies (f : SupplyMonitor → SupplyMonitor) : (modSupply f s).replies = s.replies := rfl
@[simp] theorem modSupply_sending (f : SupplyMonitor → SupplyMonitor) : (modSupply f s).sending = s.sending := rfl
@[simp] theorem modSupply_working (f : SupplyMonitor → SupplyMonitor) : (modSupply f s).working = s.working := rfl
@[simp] theorem modSupply_image (f : SupplyMonitor → SupplyMonitor) : (modSupply f s).image = s.image := rfl
@[simp] theorem modSupply_defaulted (f : SupplyMonitor → SupplyMonitor) : (modSupply f s).defaulted = s.defaulted := rfl
@[simp] theorem modSupply_storeState (f : SupplyMonitor → SupplyMonitor) : (modSupply f s).storeState = s.storeState := rfl
@[simp] theorem modSupply_nextSerial (f : SupplyMonitor → SupplyMonitor) : (modSupply f s).nextSerial = s.nextSerial := rfl
@[simp] theorem modSupply_choices (f : SupplyMonitor → SupplyMonitor) : (modSupply f s).choices = s.choices := rfl

/-! `modTrip` -/
@[simp] theorem modTrip_pending (f : TripLatch → TripLatch) : (modTrip f s).pending = s.pending := rfl
@[simp] theorem modTrip_inFlight (f : TripLatch → TripLatch) : (modTrip f s).inFlight = s.inFlight := rfl
@[simp] theorem modTrip_now (f : TripLatch → TripLatch) : (modTrip f s).now = s.now := rfl
@[simp] theorem modTrip_configuredCount (f : TripLatch → TripLatch) : (modTrip f s).configuredCount = s.configuredCount := rfl
@[simp] theorem modTrip_strands (f : TripLatch → TripLatch) : (modTrip f s).strands = s.strands := rfl
@[simp] theorem modTrip_units (f : TripLatch → TripLatch) : (modTrip f s).units = s.units := rfl
@[simp] theorem modTrip_pour (f : TripLatch → TripLatch) : (modTrip f s).pour = s.pour := rfl
@[simp] theorem modTrip_drive (f : TripLatch → TripLatch) : (modTrip f s).drive = s.drive := rfl
@[simp] theorem modTrip_lastGranted (f : TripLatch → TripLatch) : (modTrip f s).lastGranted = s.lastGranted := rfl
@[simp] theorem modTrip_coordinator (f : TripLatch → TripLatch) : (modTrip f s).coordinator = s.coordinator := rfl
@[simp] theorem modTrip_supply (f : TripLatch → TripLatch) : (modTrip f s).supply = s.supply := rfl
@[simp] theorem modTrip_strandLines (f : TripLatch → TripLatch) : (modTrip f s).strandLines = s.strandLines := rfl
@[simp] theorem modTrip_casterLines (f : TripLatch → TripLatch) : (modTrip f s).casterLines = s.casterLines := rfl
@[simp] theorem modTrip_instants (f : TripLatch → TripLatch) : (modTrip f s).instants = s.instants := rfl
@[simp] theorem modTrip_port (f : TripLatch → TripLatch) : (modTrip f s).port = s.port := rfl
@[simp] theorem modTrip_faults (f : TripLatch → TripLatch) : (modTrip f s).faults = s.faults := rfl
@[simp] theorem modTrip_noticePending (f : TripLatch → TripLatch) : (modTrip f s).noticePending = s.noticePending := rfl
@[simp] theorem modTrip_receiver (f : TripLatch → TripLatch) : (modTrip f s).receiver = s.receiver := rfl
@[simp] theorem modTrip_replies (f : TripLatch → TripLatch) : (modTrip f s).replies = s.replies := rfl
@[simp] theorem modTrip_sending (f : TripLatch → TripLatch) : (modTrip f s).sending = s.sending := rfl
@[simp] theorem modTrip_working (f : TripLatch → TripLatch) : (modTrip f s).working = s.working := rfl
@[simp] theorem modTrip_image (f : TripLatch → TripLatch) : (modTrip f s).image = s.image := rfl
@[simp] theorem modTrip_defaulted (f : TripLatch → TripLatch) : (modTrip f s).defaulted = s.defaulted := rfl
@[simp] theorem modTrip_storeState (f : TripLatch → TripLatch) : (modTrip f s).storeState = s.storeState := rfl
@[simp] theorem modTrip_nextSerial (f : TripLatch → TripLatch) : (modTrip f s).nextSerial = s.nextSerial := rfl
@[simp] theorem modTrip_choices (f : TripLatch → TripLatch) : (modTrip f s).choices = s.choices := rfl

/-! `makeGrant` -/
@[simp] theorem makeGrant_pending (p : PoolId) (l : List WaitEntry) : (makeGrant p k l s).pending = s.pending := by
  cases p <;> rfl
@[simp] theorem makeGrant_inFlight (p : PoolId) (l : List WaitEntry) : (makeGrant p k l s).inFlight = s.inFlight := by
  cases p <;> rfl
@[simp] theorem makeGrant_now (p : PoolId) (l : List WaitEntry) : (makeGrant p k l s).now = s.now := by
  cases p <;> rfl
@[simp] theorem makeGrant_configuredCount (p : PoolId) (l : List WaitEntry) : (makeGrant p k l s).configuredCount = s.configuredCount := by
  cases p <;> rfl
@[simp] theorem makeGrant_strands (p : PoolId) (l : List WaitEntry) : (makeGrant p k l s).strands = s.strands := by
  cases p <;> rfl
@[simp] theorem makeGrant_units (p : PoolId) (l : List WaitEntry) : (makeGrant p k l s).units = s.units := by
  cases p <;> rfl
@[simp] theorem makeGrant_coordinator (p : PoolId) (l : List WaitEntry) : (makeGrant p k l s).coordinator = s.coordinator := by
  cases p <;> rfl
@[simp] theorem makeGrant_supply (p : PoolId) (l : List WaitEntry) : (makeGrant p k l s).supply = s.supply := by
  cases p <;> rfl
@[simp] theorem makeGrant_trip (p : PoolId) (l : List WaitEntry) : (makeGrant p k l s).trip = s.trip := by
  cases p <;> rfl
@[simp] theorem makeGrant_strandLines (p : PoolId) (l : List WaitEntry) : (makeGrant p k l s).strandLines = s.strandLines := by
  cases p <;> rfl
@[simp] theorem makeGrant_casterLines (p : PoolId) (l : List WaitEntry) : (makeGrant p k l s).casterLines = s.casterLines := by
  cases p <;> rfl
@[simp] theorem makeGrant_instants (p : PoolId) (l : List WaitEntry) : (makeGrant p k l s).instants = s.instants := by
  cases p <;> rfl
@[simp] theorem makeGrant_port (p : PoolId) (l : List WaitEntry) : (makeGrant p k l s).port = s.port := by
  cases p <;> rfl
@[simp] theorem makeGrant_faults (p : PoolId) (l : List WaitEntry) : (makeGrant p k l s).faults = s.faults := by
  cases p <;> rfl
@[simp] theorem makeGrant_noticePending (p : PoolId) (l : List WaitEntry) : (makeGrant p k l s).noticePending = s.noticePending := by
  cases p <;> rfl
@[simp] theorem makeGrant_receiver (p : PoolId) (l : List WaitEntry) : (makeGrant p k l s).receiver = s.receiver := by
  cases p <;> rfl
@[simp] theorem makeGrant_replies (p : PoolId) (l : List WaitEntry) : (makeGrant p k l s).replies = s.replies := by
  cases p <;> rfl
@[simp] theorem makeGrant_sending (p : PoolId) (l : List WaitEntry) : (makeGrant p k l s).sending = s.sending := by
  cases p <;> rfl
@[simp] theorem makeGrant_working (p : PoolId) (l : List WaitEntry) : (makeGrant p k l s).working = s.working := by
  cases p <;> rfl
@[simp] theorem makeGrant_image (p : PoolId) (l : List WaitEntry) : (makeGrant p k l s).image = s.image := by
  cases p <;> rfl
@[simp] theorem makeGrant_defaulted (p : PoolId) (l : List WaitEntry) : (makeGrant p k l s).defaulted = s.defaulted := by
  cases p <;> rfl
@[simp] theorem makeGrant_storeState (p : PoolId) (l : List WaitEntry) : (makeGrant p k l s).storeState = s.storeState := by
  cases p <;> rfl
@[simp] theorem makeGrant_nextSerial (p : PoolId) (l : List WaitEntry) : (makeGrant p k l s).nextSerial = s.nextSerial := by
  cases p <;> rfl
@[simp] theorem makeGrant_choices (p : PoolId) (l : List WaitEntry) : (makeGrant p k l s).choices = s.choices := by
  cases p <;> rfl

/-! `freeIndex` -/
@[simp] theorem freeIndex_pending (n : Nat) : (freeIndex n s).2.pending = s.pending := by
  unfold freeIndex; split <;> rfl
@[simp] theorem freeIndex_inFlight (n : Nat) : (freeIndex n s).2.inFlight = s.inFlight := by
  unfold freeIndex; split <;> rfl
@[simp] theorem freeIndex_now (n : Nat) : (freeIndex n s).2.now = s.now := by
  unfold freeIndex; split <;> rfl
@[simp] theorem freeIndex_configuredCount (n : Nat) : (freeIndex n s).2.configuredCount = s.configuredCount := by
  unfold freeIndex; split <;> rfl
@[simp] theorem freeIndex_strands (n : Nat) : (freeIndex n s).2.strands = s.strands := by
  unfold freeIndex; split <;> rfl
@[simp] theorem freeIndex_units (n : Nat) : (freeIndex n s).2.units = s.units := by
  unfold freeIndex; split <;> rfl
@[simp] theorem freeIndex_pour (n : Nat) : (freeIndex n s).2.pour = s.pour := by
  unfold freeIndex; split <;> rfl
@[simp] theorem freeIndex_drive (n : Nat) : (freeIndex n s).2.drive = s.drive := by
  unfold freeIndex; split <;> rfl
@[simp] theorem freeIndex_lastGranted (n : Nat) : (freeIndex n s).2.lastGranted = s.lastGranted := by
  unfold freeIndex; split <;> rfl
@[simp] theorem freeIndex_coordinator (n : Nat) : (freeIndex n s).2.coordinator = s.coordinator := by
  unfold freeIndex; split <;> rfl
@[simp] theorem freeIndex_supply (n : Nat) : (freeIndex n s).2.supply = s.supply := by
  unfold freeIndex; split <;> rfl
@[simp] theorem freeIndex_trip (n : Nat) : (freeIndex n s).2.trip = s.trip := by
  unfold freeIndex; split <;> rfl
@[simp] theorem freeIndex_strandLines (n : Nat) : (freeIndex n s).2.strandLines = s.strandLines := by
  unfold freeIndex; split <;> rfl
@[simp] theorem freeIndex_casterLines (n : Nat) : (freeIndex n s).2.casterLines = s.casterLines := by
  unfold freeIndex; split <;> rfl
@[simp] theorem freeIndex_instants (n : Nat) : (freeIndex n s).2.instants = s.instants := by
  unfold freeIndex; split <;> rfl
@[simp] theorem freeIndex_port (n : Nat) : (freeIndex n s).2.port = s.port := by
  unfold freeIndex; split <;> rfl
@[simp] theorem freeIndex_faults (n : Nat) : (freeIndex n s).2.faults = s.faults := by
  unfold freeIndex; split <;> rfl
@[simp] theorem freeIndex_noticePending (n : Nat) : (freeIndex n s).2.noticePending = s.noticePending := by
  unfold freeIndex; split <;> rfl
@[simp] theorem freeIndex_receiver (n : Nat) : (freeIndex n s).2.receiver = s.receiver := by
  unfold freeIndex; split <;> rfl
@[simp] theorem freeIndex_replies (n : Nat) : (freeIndex n s).2.replies = s.replies := by
  unfold freeIndex; split <;> rfl
@[simp] theorem freeIndex_sending (n : Nat) : (freeIndex n s).2.sending = s.sending := by
  unfold freeIndex; split <;> rfl
@[simp] theorem freeIndex_working (n : Nat) : (freeIndex n s).2.working = s.working := by
  unfold freeIndex; split <;> rfl
@[simp] theorem freeIndex_image (n : Nat) : (freeIndex n s).2.image = s.image := by
  unfold freeIndex; split <;> rfl
@[simp] theorem freeIndex_defaulted (n : Nat) : (freeIndex n s).2.defaulted = s.defaulted := by
  unfold freeIndex; split <;> rfl
@[simp] theorem freeIndex_storeState (n : Nat) : (freeIndex n s).2.storeState = s.storeState := by
  unfold freeIndex; split <;> rfl
@[simp] theorem freeIndex_nextSerial (n : Nat) : (freeIndex n s).2.nextSerial = s.nextSerial := by
  unfold freeIndex; split <;> rfl

/-! `noticeChoice` -/
@[simp] theorem noticeChoice_pending : (noticeChoice s).pending = s.pending := by
  unfold noticeChoice; split; rfl; split; rfl; split <;> rfl
@[simp] theorem noticeChoice_inFlight : (noticeChoice s).inFlight = s.inFlight := by
  unfold noticeChoice; split; rfl; split; rfl; split <;> rfl
@[simp] theorem noticeChoice_now : (noticeChoice s).now = s.now := by
  unfold noticeChoice; split; rfl; split; rfl; split <;> rfl
@[simp] theorem noticeChoice_configuredCount : (noticeChoice s).configuredCount = s.configuredCount := by
  unfold noticeChoice; split; rfl; split; rfl; split <;> rfl
@[simp] theorem noticeChoice_strands : (noticeChoice s).strands = s.strands := by
  unfold noticeChoice; split; rfl; split; rfl; split <;> rfl
@[simp] theorem noticeChoice_units : (noticeChoice s).units = s.units := by
  unfold noticeChoice; split; rfl; split; rfl; split <;> rfl
@[simp] theorem noticeChoice_pour : (noticeChoice s).pour = s.pour := by
  unfold noticeChoice; split; rfl; split; rfl; split <;> rfl
@[simp] theorem noticeChoice_drive : (noticeChoice s).drive = s.drive := by
  unfold noticeChoice; split; rfl; split; rfl; split <;> rfl
@[simp] theorem noticeChoice_lastGranted : (noticeChoice s).lastGranted = s.lastGranted := by
  unfold noticeChoice; split; rfl; split; rfl; split <;> rfl
@[simp] theorem noticeChoice_coordinator : (noticeChoice s).coordinator = s.coordinator := by
  unfold noticeChoice; split; rfl; split; rfl; split <;> rfl
@[simp] theorem noticeChoice_supply : (noticeChoice s).supply = s.supply := by
  unfold noticeChoice; split; rfl; split; rfl; split <;> rfl
@[simp] theorem noticeChoice_trip : (noticeChoice s).trip = s.trip := by
  unfold noticeChoice; split; rfl; split; rfl; split <;> rfl
@[simp] theorem noticeChoice_strandLines : (noticeChoice s).strandLines = s.strandLines := by
  unfold noticeChoice; split; rfl; split; rfl; split <;> rfl
@[simp] theorem noticeChoice_casterLines : (noticeChoice s).casterLines = s.casterLines := by
  unfold noticeChoice; split; rfl; split; rfl; split <;> rfl
@[simp] theorem noticeChoice_instants : (noticeChoice s).instants = s.instants := by
  unfold noticeChoice; split; rfl; split; rfl; split <;> rfl
@[simp] theorem noticeChoice_port : (noticeChoice s).port = s.port := by
  unfold noticeChoice; split; rfl; split; rfl; split <;> rfl
@[simp] theorem noticeChoice_faults : (noticeChoice s).faults = s.faults := by
  unfold noticeChoice; split; rfl; split; rfl; split <;> rfl
@[simp] theorem noticeChoice_receiver : (noticeChoice s).receiver = s.receiver := by
  unfold noticeChoice; split; rfl; split; rfl; split <;> rfl
@[simp] theorem noticeChoice_working : (noticeChoice s).working = s.working := by
  unfold noticeChoice; split; rfl; split; rfl; split <;> rfl
@[simp] theorem noticeChoice_image : (noticeChoice s).image = s.image := by
  unfold noticeChoice; split; rfl; split; rfl; split <;> rfl
@[simp] theorem noticeChoice_defaulted : (noticeChoice s).defaulted = s.defaulted := by
  unfold noticeChoice; split; rfl; split; rfl; split <;> rfl
@[simp] theorem noticeChoice_storeState : (noticeChoice s).storeState = s.storeState := by
  unfold noticeChoice; split; rfl; split; rfl; split <;> rfl
@[simp] theorem noticeChoice_nextSerial : (noticeChoice s).nextSerial = s.nextSerial := by
  unfold noticeChoice; split; rfl; split; rfl; split <;> rfl
@[simp] theorem noticeChoice_choices : (noticeChoice s).choices = s.choices := by
  unfold noticeChoice; split; rfl; split; rfl; split <;> rfl

/-! ### Reading back what an update changed -/

@[simp] theorem modStrand_strand_same (f : StrandContext → StrandContext) :
    (modStrand k f s).strand k = f (s.strand k) := by
  simp [State.strand, modStrand]

@[simp] theorem modStrand_strand_ne (f : StrandContext → StrandContext) (j : Strand) (h : j ≠ k) :
    (modStrand k f s).strand j = s.strand j := by
  simp [State.strand, modStrand, h]

@[simp] theorem setCondition_strand_same (c : Condition) :
    (setCondition k c s).strand k = { s.strand k with condition := c } := by
  simp [setCondition]

@[simp] theorem setCondition_strand_ne (c : Condition) (j : Strand) (h : j ≠ k) :
    (setCondition k c s).strand j = s.strand j := by
  simp [setCondition, h]

@[simp] theorem modUnit_unit_same (f : UnitState → UnitState) : (modUnit k f s).unit k = f (s.unit k) := by
  simp [State.unit, modUnit]

@[simp] theorem modUnit_unit_ne (f : UnitState → UnitState) (j : Strand) (h : j ≠ k) :
    (modUnit k f s).unit j = s.unit j := by
  simp [State.unit, modUnit, h]

@[simp] theorem pend_strand (src : Source) (j : Strand) : (pend src s).strand j = s.strand j := by simp [State.strand]

@[simp] theorem pend_unit (src : Source) (j : Strand) : (pend src s).unit j = s.unit j := by simp [State.unit]

@[simp] theorem updUnit_unit_same (f : UnitState → UnitState) : (updUnit k f s).unit k = f (s.unit k) := by
  unfold updUnit; split <;> simp

@[simp] theorem updUnit_unit_ne (f : UnitState → UnitState) (j : Strand) (h : j ≠ k) :
    (updUnit k f s).unit j = s.unit j := by
  unfold updUnit; split <;> simp [h]

@[simp] theorem setPool_pool_same (p : PoolId) (x : Pool) : (setPool p x s).pool p = x := by cases p <;> rfl

@[simp] theorem setPool_pool_ne (p q : PoolId) (x : Pool) (h : q ≠ p) : (setPool p x s).pool q = s.pool q := by
  cases p <;> cases q <;> first | exact absurd rfl h | rfl

@[simp] theorem modPool_pool_same (p : PoolId) (f : Pool → Pool) : (modPool p f s).pool p = f (s.pool p) := by
  simp [modPool]

@[simp] theorem modPool_pool_ne (p q : PoolId) (f : Pool → Pool) (h : q ≠ p) : (modPool p f s).pool q = s.pool q := by
  simp [modPool, h]

@[simp] theorem emit_inFlight (i : Instr) : (emit i s).inFlight = s.inFlight ++ [i] := rfl

@[simp] theorem emitAll_inFlight (l : List Instr) : (emitAll l s).inFlight = s.inFlight ++ l := rfl

@[simp] theorem modCoordinator_coordinator (f : Coordinator → Coordinator) :
    (modCoordinator f s).coordinator = f s.coordinator := rfl

@[simp] theorem modSupply_supply (f : SupplyMonitor → SupplyMonitor) : (modSupply f s).supply = f s.supply := rfl

@[simp] theorem modTrip_trip (f : TripLatch → TripLatch) : (modTrip f s).trip = f s.trip := rfl

end Sys2Proof.Machine
end

