-- ==== Sys2Proof/Laws/Begin.lean ====
section
/-! SUPPORT. What the small parts of a step's beginning, failing and completing come to on a strand that is RESTARTING by the
record `r`, in terms of `withRecord`; the places an event under way may be taken from; and the first step record of a plan
that fails. -/

namespace Sys2Proof.Machine

/-! ### The record of a strand that is RESTARTING -/

@[simp] theorem strand_withRecord (k : Strand) (r : RestartRecord) (s : State) :
    (withRecord k r s).strand k = { s.strand k with condition := .restarting r } := by
  simp [withRecord, State.strand]

theorem strand_withRecord_ne (k j : Strand) (r : RestartRecord) (s : State) (h : j ≠ k) :
    (withRecord k r s).strand j = s.strand j := by
  simp [withRecord, State.strand, look_put_ne _ _ _ _ h]

@[simp] theorem record?_withRecord (k : Strand) (r : RestartRecord) (s : State) :
    (withRecord k r s).record? k = some r := by
  simp [State.record?, Condition.record?]

@[simp] theorem phase_withRecord (k : Strand) (r : RestartRecord) (s : State) :
    (withRecord k r s).phase k = r.phase := by
  simp [State.phase]

@[simp] theorem withRecord_withRecord (k : Strand) (r r' : RestartRecord) (s : State) :
    withRecord k r (withRecord k r' s) = withRecord k r s := by
  simp only [withRecord, State.strand, look_put_same]
  congr 1
  simp [Tab.put]

theorem modRecord_of_record (k : Strand) (f : RestartRecord → RestartRecord) (r : RestartRecord) (s : State)
    (h : s.record? k = some r) : modRecord k f s = withRecord k (f r) s := by
  simp only [modRecord, h]
  rfl

@[simp] theorem modRecord_withRecord (k : Strand) (f : RestartRecord → RestartRecord) (r : RestartRecord) (s : State) :
    modRecord k f (withRecord k r s) = withRecord k (f r) s := by
  rw [modRecord_of_record k f r _ (by simp), withRecord_withRecord]

@[simp] theorem toPhase_withRecord (k : Strand) (ph : Phase) (t : Option Nat) (r : RestartRecord) (s : State) :
    toPhase k ph t (withRecord k r s) =
      withRecord k { r with phase := ph, phaseTimer := t, riseReference := none } s :=
  modRecord_withRecord _ _ _ _

@[simp] theorem stopStep_withRecord (k : Strand) (r : RestartRecord) (s : State) :
    stopStep k (withRecord k r s) =
      withRecord k { r with stepTimer := none, phase := .noPhase, phaseTimer := none, riseReference := none } s :=
  modRecord_withRecord _ _ _ _

/-- The step timer loaded and the attempt set (R53). -/
theorem loadStep_of_record (k : Strand) (q : Step) (r : RestartRecord) (s : State) (h : s.record? k = some r) :
    loadStep k q s = withRecord k (r.begun q) s := by
  rw [loadStep, modRecord_of_record k _ r s h]
  cases hq : q.action <;> simp [RestartRecord.begun, hq, isOpenAction]

/-- A step that fails at its beginning (R53, R56). -/
theorem failStep_withRecord (k : Strand) (f : StepFailure) (r : RestartRecord) (s : State) :
    failStep k f (withRecord k r s) =
      { withRecord k { r with stepTimer := none, phase := .noPhase, phaseTimer := none, riseReference := none } s with
        inFlight := s.inFlight ++ [.stepFailureClaim k ⟨r.serial, f⟩] } := by
  simp [failStep, emit]
  rfl

/-- A record's change leaves the unit alone, and a unit's change the record. -/
@[simp] theorem unit_withRecord (k j : Strand) (r : RestartRecord) (s : State) : (withRecord k r s).unit j = s.unit j := rfl

theorem modUnit_withRecord (k : Strand) (f : UnitState → UnitState) (r : RestartRecord) (s : State) :
    modUnit k f (withRecord k r s) = withRecord k r (modUnit k f s) := rfl

/-- A unit's change that LOCK's notice does not report makes nothing pending (R113). -/
theorem updUnit_quiet (k : Strand) (f : UnitState → UnitState) (s : State)
    (h : (f (s.unit k)).lockView = (s.unit k).lockView) : updUnit k f s = modUnit k f s := by
  simp [updUnit, h]

/-! ### The events under way -/

/-- The places the choice is made among: the first event of each stream that is not among those seen (log 4). -/
theorem mem_headPlaces (i : Nat) : ∀ (l : List Instr) (seen : List Nat) (n : Nat),
    i ∈ headPlaces seen n l ↔
      ∃ j x, i = n + j ∧ l[j]? = some x ∧ stream x ∉ seen ∧ ∀ m y, m < j → l[m]? = some y → stream y ≠ stream x
  | [], seen, n => by simp [headPlaces]
  | e :: rest, seen, n => by
    unfold headPlaces
    have shift : ∀ sn, i ∈ headPlaces sn (n + 1) rest ↔
        ∃ j x, i = n + (j + 1) ∧ rest[j]? = some x ∧ stream x ∉ sn ∧
          ∀ m y, m < j → rest[m]? = some y → stream y ≠ stream x := by
      intro sn
      rw [mem_headPlaces i rest sn (n + 1)]
      simp only [Nat.add_assoc, Nat.add_comm 1]
    split
    · next hs =>
      rw [shift]
      constructor
      · rintro ⟨j, x, hi, hx, hn, hm⟩
        refine ⟨j + 1, x, hi, by simpa using hx, hn, fun m y hlt hy => ?_⟩
        cases m with
        | zero => simp only [List.getElem?_cons_zero, Option.some.injEq] at hy; subst hy; exact fun c => hn (c ▸ hs)
        | succ m => exact hm m y (by omega) (by simpa using hy)
      · rintro ⟨j, x, hi, hx, hn, hm⟩
        cases j with
        | zero => simp only [List.getElem?_cons_zero, Option.some.injEq] at hx; subst hx; exact absurd hs hn
        | succ j =>
          exact ⟨j, x, hi, by simpa using hx, hn, fun m y hlt hy => hm (m + 1) y (by omega) (by simpa using hy)⟩
    · next hs =>
      rw [List.mem_cons, shift]
      constructor
      · rintro (hi | ⟨j, x, hi, hx, hn, hm⟩)
        · exact ⟨0, e, by omega, rfl, hs, fun m _ hlt => absurd hlt (by omega)⟩
        · refine ⟨j + 1, x, hi, by simpa using hx, fun c => hn (by simp [c]), fun m y hlt hy => ?_⟩
          cases m with
          | zero =>
            simp only [List.getElem?_cons_zero, Option.some.injEq] at hy; subst hy; exact fun c => hn (by simp [c])
          | succ m => exact hm m y (by omega) (by simpa using hy)
      · rintro ⟨j, x, hi, hx, hn, hm⟩
        cases j with
        | zero => exact .inl (by omega)
        | succ j =>
          refine .inr ⟨j, x, hi, by simpa using hx, fun c => ?_, fun m y hlt hy =>
            hm (m + 1) y (by omega) (by simpa using hy)⟩
          rcases List.mem_cons.mp c with c | c
          · exact hm 0 e (by omega) rfl c.symm
          · exact hn c

/-! ### A plan's step records -/

/-- The step records are refused with the index and the reason of the first that fails (R32). -/
theorem readSteps_first (f : PlanFault) : ∀ (l : List RawStep) (at_ n : Nat) (r : RawStep),
    (∀ j x, j < n → l[j]? = some x → ∃ q, readStep x = .ok q) → l[n]? = some r → readStep r = .error f →
    readSteps at_ l = .error (at_ + n, f)
  | [], _, _, _, _, hr, _ => by simp at hr
  | x :: l, at_, 0, r, _, hr, hf => by
    simp only [List.getElem?_cons_zero, Option.some.injEq] at hr
    subst hr
    simp [readSteps, hf]
  | x :: l, at_, n + 1, r, hb, hr, hf => by
    obtain ⟨q, hq⟩ := hb 0 x (by omega) rfl
    have := readSteps_first f l (at_ + 1) n r
      (fun j y hj hy => hb (j + 1) y (by omega) (by simpa using hy)) (by simpa using hr) hf
    simp [readSteps, hq, this]
    omega

/-- A step whose action or parameters do not read is refused, TIME standing between the two (R32). -/
theorem readStep_error (r : RawStep) (f : PlanFault) (h : readAction r = .error f) :
    readStep r = .error (if f = .action then .action else if timeInRange r.time.toNat then f else .time) := by
  cases f <;> simp [readStep, h] <;> split <;> simp_all

/-- Past a plan's last step there is no action (R28). -/
theorem actionAt_beyond (p : Plan) (i : Nat) (q : Action → Bool) (h : p.steps.length ≤ i) : actionAt p i q = false := by
  simp [actionAt, List.getElem?_eq_none h]

/-- No step has such an action where none within the plan does. -/
theorem actionAt_none (p : Plan) (q : Action → Bool) (h : ∀ i, i < p.steps.length → actionAt p i q = false) (i : Nat) :
    actionAt p i q = false := by
  rcases Nat.lt_or_ge i p.steps.length with hi | hi
  · exact h i hi
  · exact actionAt_beyond p i q hi

/-- One step alone has such an action where no other within the plan does. -/
theorem actionAt_only (p : Plan) (q : Action → Bool) (o : Nat)
    (h : ∀ i, i < p.steps.length → i ≠ o → actionAt p i q = false) (i : Nat) (hi : i ≠ o) : actionAt p i q = false := by
  rcases Nat.lt_or_ge i p.steps.length with hl | hl
  · exact h i hl hi
  · exact actionAt_beyond p i q hl

end Sys2Proof.Machine
end

