-- ==== Sys2Proof/Laws/Drain.lean ====
section
/-! SUPPORT. The loops of the model: carrying out an action's tasks (R53, R83), taking every configured strand in order (R15,
R20), taking strands in an open order (log 4). What every turn of a loop keeps, the loop keeps. -/

namespace Sys2Proof.Machine

/-! ### An action's tasks -/

theorem drainFuel_keeps {P : State → Prop} (h : ∀ t s, P s → P (runTask t s).1) :
    ∀ (n : Nat) (l : List Task) (s : State), P s → P (drainFuel n l s)
  | 0, _, _, hs => hs
  | _ + 1, [], _, hs => hs
  | n + 1, t :: rest, s, hs => drainFuel_keeps h n ((runTask t s).2 ++ rest) (runTask t s).1 (h t s hs)

/-- What every task keeps, the whole action keeps. -/
theorem drain_keeps {P : State → Prop} (h : ∀ t s, P s → P (runTask t s).1) (l : List Task) (s : State) (hs : P s) :
    P (drain l s) :=
  drainFuel_keeps h _ l s hs

/-- What every task of a kind keeps, bringing only tasks of that kind, an action of such tasks keeps. -/
theorem drainFuel_keeps_among {P : State → Prop} {Q : Task → Prop}
    (h : ∀ t s, Q t → P s → P (runTask t s).1 ∧ ∀ u ∈ (runTask t s).2, Q u) :
    ∀ (n : Nat) (l : List Task) (s : State), (∀ u ∈ l, Q u) → P s → P (drainFuel n l s)
  | 0, _, _, _, hs => hs
  | _ + 1, [], _, _, hs => hs
  | n + 1, t :: rest, s, hl, hs => by
    have ht := h t s (hl t (by simp)) hs
    refine drainFuel_keeps_among h n _ _ (fun u hu => ?_) ht.1
    rcases List.mem_append.mp hu with hu | hu
    · exact ht.2 u hu
    · exact hl u (by simp [hu])

theorem drain_keeps_among {P : State → Prop} {Q : Task → Prop}
    (h : ∀ t s, Q t → P s → P (runTask t s).1 ∧ ∀ u ∈ (runTask t s).2, Q u) (l : List Task) (s : State)
    (hl : ∀ u ∈ l, Q u) (hs : P s) : P (drain l s) :=
  drainFuel_keeps_among h _ l s hl hs

/-- What every task relates to what was before it, the whole action does. -/
theorem drain_rel {R : State → State → Prop} (hr : ∀ s, R s s) (ht : ∀ a b c, R a b → R b c → R a c)
    (h : ∀ t s, R s (runTask t s).1) (l : List Task) (s : State) : R s (drain l s) :=
  drain_keeps (P := R s) (fun t u hu => ht s u _ hu (h t u)) l s (hr s)

/-- An action without tasks changes nothing. -/
@[simp] theorem drain_nil (s : State) : drain [] s = s := by
  unfold drain
  cases cascadeBound [] s <;> rfl

/-! ### Every configured strand, in order -/

theorem foldl_keeps {P : State → Prop} (f : State → Strand → State) (h : ∀ k s, P s → P (f s k)) :
    ∀ (l : List Strand) (s : State), P s → P (l.foldl f s)
  | [], _, hs => hs
  | k :: l, s, hs => foldl_keeps f h l (f s k) (h k s hs)

/-- What the taking of one strand keeps, the taking of every configured strand keeps. -/
theorem forConfigured_keeps {P : State → Prop} (f : Strand → State → State) (h : ∀ k s, P s → P (f k s)) (s : State)
    (hs : P s) : P (forConfigured f s) := by
  refine foldl_keeps _ (fun k t ht => ?_) allStrands s hs
  split
  · exact h k t ht
  · exact ht

/-- What the taking of one strand relates to what was before it, the taking of every configured strand does. -/
theorem forConfigured_rel {R : State → State → Prop} (hr : ∀ s, R s s) (ht : ∀ a b c, R a b → R b c → R a c)
    (f : Strand → State → State) (h : ∀ k s, R s (f k s)) (s : State) : R s (forConfigured f s) :=
  forConfigured_keeps (P := R s) f (fun k u hu => ht s u _ hu (h k u)) s (hr s)

/-! ### Strands in an open order -/

/-- What the taking of one strand keeps, and the choice keeps, the taking of strands in an open order keeps. -/
theorem inOpenOrder_keeps {P : State → Prop} (f : Strand → State → State) (h : ∀ k s, P s → P (f k s))
    (hc : ∀ n s, P s → P (freeIndex n s).2) : ∀ (n : Nat) (l : List Strand) (s : State), P s → P (inOpenOrder f n l s)
  | 0, _, _, hs => hs
  | _ + 1, [], _, hs => hs
  | n + 1, k :: l, s, hs => by
    unfold inOpenOrder
    dsimp only
    split
    · exact inOpenOrder_keeps f h hc n _ _ (h _ _ (hc _ _ hs))
    · exact hc _ _ hs

end Sys2Proof.Machine
end

