-- ==== Sys2Proof/Laws/Frame.lean ====
section
/-! SUPPORT. What the operations of the Restart Sequencer, the Strand Table, the Coordinator, the Supply Monitor and the Trip
Latch leave alone: one lemma per operation, cited instead of unfolding it. -/

namespace Sys2Proof.Machine

/-! ### Two frames -/

/-- What no action of the strand blocks touches: what `SameOutside` and `SameSettings` name, and the link's sending side. -/
def Outside (s t : State) : Prop :=
  SameOutside s t ∧ SameSettings s t ∧ t.replies = s.replies ∧ t.sending = s.sending

/-- What an action's tasks leave alone: every strand but for the course of its restart and its drive_lost, the Fault Log, the
Supply Monitor, the Trip Latch, the Coordinator, the exclusion sets and the pools' open flags. -/
def Carried (s t : State) : Prop :=
  Outside s t ∧ (∀ j, SameStrand s t j) ∧ t.faults = s.faults ∧ t.supply = s.supply ∧ t.trip = s.trip ∧
  t.coordinator = s.coordinator ∧ t.pour.excluded = s.pour.excluded ∧ t.drive.excluded = s.drive.excluded ∧
  t.pour.isOpen = s.pour.isOpen ∧ t.drive.isOpen = s.drive.isOpen

/-- What a change at strand `k` leaves alone. -/
def AtStrand (k : Strand) (s t : State) : Prop :=
  Outside s t ∧ OtherStrands s t k ∧ t.supply = s.supply ∧ t.trip = s.trip ∧
  t.pour.excluded = s.pour.excluded ∧ t.drive.excluded = s.drive.excluded ∧
  t.pour.isOpen = s.pour.isOpen ∧ t.drive.isOpen = s.drive.isOpen

theorem SameStrand.refl (s : State) (j : Strand) : SameStrand s s j := ⟨rfl, rfl, rfl, rfl, rfl, rfl, rfl⟩

theorem SameStrand.trans {s t u : State} {j : Strand} (a : SameStrand s t j) (b : SameStrand t u j) : SameStrand s u j := by
  simp only [SameStrand] at *
  obtain ⟨a1, a2, a3, a4, a5, a6, a7⟩ := a
  obtain ⟨b1, b2, b3, b4, b5, b6, b7⟩ := b
  exact ⟨b1.trans a1, b2.trans a2, b3.trans a3, b4.trans a4, b5.trans a5, b6.trans a6, b7.trans a7⟩

theorem Outside.refl (s : State) : Outside s s :=
  ⟨⟨rfl, rfl, rfl, rfl, rfl, rfl, rfl, rfl, rfl, rfl, rfl⟩, rfl, rfl, rfl⟩

theorem Outside.trans {s t u : State} (a : Outside s t) (b : Outside t u) : Outside s u := by
  obtain ⟨⟨a1, a2, a3, a4, a5, a6, a7, a8, a9, a10, a11⟩, aw, ar, as⟩ := a
  obtain ⟨⟨b1, b2, b3, b4, b5, b6, b7, b8, b9, b10, b11⟩, bw, br, bs⟩ := b
  refine ⟨⟨b1.trans a1, b2.trans a2, b3.trans a3, b4.trans a4, b5.trans a5, b6.trans a6, b7.trans a7, b8.trans a8,
    b9.trans a9, b10.trans a10, b11.trans a11⟩, ?_, br.trans ar, bs.trans as⟩
  simp only [SameSettings] at *
  rw [bw, aw]

theorem Carried.refl (s : State) : Carried s s :=
  ⟨Outside.refl s, SameStrand.refl s, rfl, rfl, rfl, rfl, rfl, rfl, rfl, rfl⟩

theorem Carried.trans {s t u : State} (a : Carried s t) (b : Carried t u) : Carried s u := by
  obtain ⟨a0, a1, a2, a3, a4, a5, a6, a7, a8, a9⟩ := a
  obtain ⟨b0, b1, b2, b3, b4, b5, b6, b7, b8, b9⟩ := b
  exact ⟨a0.trans b0, fun j => (a1 j).trans (b1 j), b2.trans a2, b3.trans a3, b4.trans a4, b5.trans a5, b6.trans a6,
    b7.trans a7, b8.trans a8, b9.trans a9⟩

theorem AtStrand.refl (k : Strand) (s : State) : AtStrand k s s :=
  ⟨Outside.refl s, fun j _ => ⟨SameStrand.refl s j, rfl⟩, rfl, rfl, rfl, rfl, rfl, rfl⟩

theorem AtStrand.trans {k : Strand} {s t u : State} (a : AtStrand k s t) (b : AtStrand k t u) : AtStrand k s u := by
  obtain ⟨a0, a1, a2, a3, a4, a5, a6, a7⟩ := a
  obtain ⟨b0, b1, b2, b3, b4, b5, b6, b7⟩ := b
  exact ⟨a0.trans b0, fun j h => ⟨(a1 j h).1.trans (b1 j h).1, (b1 j h).2.trans (a1 j h).2⟩, b2.trans a2, b3.trans a3,
    b4.trans a4, b5.trans a5, b6.trans a6, b7.trans a7⟩

/-- What an action's tasks leave alone, a change at any strand does. -/
theorem Carried.at {s t : State} (k : Strand) (a : Carried s t) : AtStrand k s t := by
  obtain ⟨a0, a1, a2, a3, a4, _, a6, a7, a8, a9⟩ := a
  exact ⟨a0, fun j _ => ⟨a1 j, by rw [a2]⟩, a3, a4, a6, a7, a8, a9⟩

theorem AtStrand.local {k : Strand} {s t : State} (a : AtStrand k s t) : LocalTo s t k := by
  obtain ⟨⟨o, w, _, _⟩, a1, a2, a3, a4, a5, _, _⟩ := a
  exact ⟨o, w, a1, a2, a3, a4, a5⟩

/-! ### The named updates -/

theorem pend_carried (src : Source) (s : State) : Carried s (pend src s) := by
  simp [Carried, Outside, SameOutside, SameSettings, SameStrand]

theorem emit_carried (i : Instr) (s : State) : Carried s (emit i s) := by
  simp [Carried, Outside, SameOutside, SameSettings, SameStrand, State.strand]

theorem modUnit_carried (k : Strand) (f : UnitState → UnitState) (s : State) : Carried s (modUnit k f s) := by
  simp [Carried, Outside, SameOutside, SameSettings, SameStrand, State.strand]

theorem updUnit_carried (k : Strand) (f : UnitState → UnitState) (s : State) : Carried s (updUnit k f s) := by
  simp [Carried, Outside, SameOutside, SameSettings, SameStrand, State.strand]

/-- A change of a strand's context that keeps the name of its condition and every field but drive_lost. -/
theorem modStrand_carried (k : Strand) (f : StrandContext → StrandContext) (s : State)
    (h : let c := s.strand k; let d := f c
      d.condition.name = c.condition.name ∧ d.steel = c.steel ∧ d.heldForTundish = c.heldForTundish ∧
      d.heldForDip = c.heldForDip ∧ d.heldByOperator = c.heldByOperator ∧ d.holdTimer = c.holdTimer ∧
      d.check = c.check) : Carried s (modStrand k f s) := by
  refine ⟨by simp [Outside, SameOutside, SameSettings], fun j => ?_, by simp, by simp, by simp, by simp, by simp, by simp,
    by simp, by simp⟩
  by_cases hj : j = k
  · subst hj
    simpa [SameStrand] using h
  · simp [SameStrand, hj]

theorem modRecord_carried (k : Strand) (f : RestartRecord → RestartRecord) (s : State) :
    Carried s (modRecord k f s) := by
  unfold modRecord
  split
  · next r hr =>
    refine modStrand_carried k _ s ?_
    have : (s.strand k).condition = .restarting r := by
      simp only [State.record?] at hr
      cases hc : (s.strand k).condition <;> simp_all [Condition.record?]
    simp [this, Condition.name]
  · exact Carried.refl s

/-- A change of a pool that keeps its exclusion set and its open flag. -/
theorem modPool_carried (p : PoolId) (f : Pool → Pool) (s : State) (he : (f (s.pool p)).excluded = (s.pool p).excluded)
    (ho : (f (s.pool p)).isOpen = (s.pool p).isOpen) : Carried s (modPool p f s) := by
  cases p <;>
    simpa [Carried, Outside, SameOutside, SameSettings, SameStrand, State.strand, modPool, setPool, State.pool] using
      ⟨he, ho⟩

theorem modGrant_carried (p : PoolId) (k : Strand) (f : Grant → Grant) (s : State) : Carried s (modGrant p k f s) := by
  unfold modGrant
  split
  · exact modPool_carried p _ s rfl rfl
  · exact Carried.refl s

/-! ### The Arbiter's and the Sequencer's operations -/

theorem joinWaits_carried (p : PoolId) (k : Strand) (s : State) : Carried s (joinWaits p k s) :=
  modPool_carried p _ s rfl rfl

theorem dropGrant_carried (p : PoolId) (k : Strand) (s : State) : Carried s (dropGrant p k s) :=
  modPool_carried p _ s rfl rfl

theorem dropEntry_carried (p : PoolId) (k : Strand) (s : State) : Carried s (dropEntry p k s) :=
  modPool_carried p _ s rfl rfl

theorem makeGrant_carried (p : PoolId) (k : Strand) (l : List WaitEntry) (s : State) : Carried s (makeGrant p k l s) := by
  cases p
  · exact (modPool_carried .pour (fun x => { x with
      waits := l, holders := x.holders.put k (some (newGrant .pour k s)) }) s rfl rfl).trans
      (by simp [Carried, Outside, SameOutside, SameSettings, SameStrand, State.strand, makeGrant])
  · exact modPool_carried .drive (fun x => { x with
      waits := l, holders := x.holders.put k (some (newGrant .drive k s)) }) s rfl rfl

theorem openWindow_carried (k : Strand) (s : State) : Carried s (openWindow k s) := modGrant_carried _ _ _ _

theorem answer_carried (p : PoolId) (k : Strand) (s : State) : Carried s (answer p k s) := modGrant_carried _ _ _ _

theorem toPhase_carried (k : Strand) (ph : Phase) (t : Option Nat) (s : State) : Carried s (toPhase k ph t s) :=
  modRecord_carried _ _ _

theorem stopStep_carried (k : Strand) (s : State) : Carried s (stopStep k s) := modRecord_carried _ _ _

theorem loadStep_carried (k : Strand) (p : Step) (s : State) : Carried s (loadStep k p s) := modRecord_carried _ _ _

theorem failStep_carried (k : Strand) (f : StepFailure) (s : State) : Carried s (failStep k f s) := by
  unfold failStep
  split
  · exact (stopStep_carried k s).trans (emit_carried _ _)
  · exact Carried.refl s

theorem writeLevelSet_carried (k : Strand) (p : LevelParams) (s : State) : Carried s (writeLevelSet k p s) := by
  have h : Carried s { s with working := { s.working with levels := s.working.levels.put k p } } := by
    simp [Carried, Outside, SameOutside, SameSettings, SameStrand, State.strand]
  unfold writeLevelSet
  dsimp only
  split
  · exact h.trans (updUnit_carried _ _ _)
  · exact h

theorem openForAttempt_carried (k : Strand) (s : State) : Carried s (openForAttempt k s) := by
  unfold openForAttempt
  split
  · exact ((updUnit_carried _ _ _).trans (openWindow_carried _ _)).trans (toPhase_carried _ _ _ _)
  · exact Carried.refl s

theorem enterInrush_carried (k : Strand) (s : State) : Carried s (enterInrush k s).1 :=
  (answer_carried _ _ _).trans (toPhase_carried _ _ _ _)

theorem takeDriveGrant_carried (k : Strand) (s : State) : Carried s (takeDriveGrant k s).1 := by
  unfold takeDriveGrant
  dsimp only
  split
  · exact (updUnit_carried _ _ _).trans (enterInrush_carried _ _)
  · exact (updUnit_carried _ _ _).trans (toPhase_carried _ _ _ _)

theorem takePourGrant_carried (k : Strand) (s : State) : Carried s (takePourGrant k s) := by
  unfold takePourGrant
  dsimp only
  split
  · exact openForAttempt_carried _ _
  · split
    · exact (toPhase_carried _ _ _ _).trans (openForAttempt_carried _ _)
    · exact toPhase_carried _ _ _ _

theorem deliverGrant_carried (p : PoolId) (k : Strand) (s : State) : Carried s (deliverGrant p k s).1 := by
  unfold deliverGrant
  split
  · cases p
    · exact takePourGrant_carried _ _
    · exact takeDriveGrant_carried _ _
  · exact Carried.refl s

theorem requestSlot_carried (p : PoolId) (k : Strand) (s : State) : Carried s (requestSlot p k s).1 := by
  unfold requestSlot
  split
  · exact failStep_carried _ _ _
  · exact (toPhase_carried _ _ _ _).trans (joinWaits_carried _ _ _)

theorem grantPass_carried (p : PoolId) (s : State) : Carried s (grantPass p s).1 := by
  unfold grantPass
  split
  · split
    · exact Carried.refl s
    · exact (makeGrant_carried _ _ _ _).trans (deliverGrant_carried _ _ _)
  · exact Carried.refl s

theorem endInrush_carried (k : Strand) (s : State) : Carried s (endInrush k s).1 :=
  (dropGrant_carried _ _ _).trans (modStrand_carried _ _ _ ⟨rfl, rfl, rfl, rfl, rfl, rfl, rfl⟩)

theorem beginLevel_carried (k : Strand) (src : LevelSource) (s : State) : Carried s (beginLevel k src s).1 := by
  unfold beginLevel
  split
  · exact failStep_carried _ _ _
  · have h : Carried s (writeSource k src s) := by
      unfold writeSource
      split
      · exact writeLevelSet_carried _ _ _
      · exact Carried.refl s
    exact (h.trans (updUnit_carried _ _ _)).trans (toPhase_carried _ _ _ _)

theorem beginDraw_carried (k : Strand) (a b c : Nat) (s : State) : Carried s (beginDraw k a b c s).1 := by
  unfold beginDraw
  split
  · exact (updUnit_carried _ _ _).trans (toPhase_carried _ _ _ _)
  · split
    · exact (updUnit_carried _ _ _).trans (toPhase_carried _ _ _ _)
    · exact failStep_carried _ _ _

theorem beginAction_carried (k : Strand) (a : Action) (s : State) : Carried s (beginAction k a s).1 := by
  cases a with
  | check m => exact toPhase_carried _ _ _ _
  | cool z => exact updUnit_carried _ _ _
  | drive => exact requestSlot_carried _ _ _
  | opening a b c d => exact requestSlot_carried _ _ _
  | level src => exact beginLevel_carried _ _ _
  | wait => exact toPhase_carried _ _ _ _
  | draw a b c => exact beginDraw_carried _ _ _ _ _
  | handover => exact toPhase_carried _ _ _ _

theorem beginStep_carried (k : Strand) (s : State) : Carried s (beginStep k s).1 := by
  unfold beginStep
  split
  · exact (loadStep_carried _ _ _).trans (beginAction_carried _ _ _)
  · exact Carried.refl s

theorem finishStep_carried (k : Strand) (s : State) : Carried s (finishStep k s).1 := by
  unfold finishStep
  split
  · exact Carried.refl s
  · split
    · exact ((stopStep_carried _ _).trans (modRecord_carried _ _ _)).trans (pend_carried _ _)
    · exact (stopStep_carried _ _).trans (emit_carried _ _)

/-- Everything a task leaves alone. -/
theorem runTask_carried (t : Task) (s : State) : Carried s (runTask t s).1 := by
  cases t with
  | enterStep k => exact beginStep_carried k s
  | completeStep k => exact finishStep_carried k s
  | grantChoice p => exact grantPass_carried p s
  | inrushEnd k => exact endInrush_carried k s

/-- Everything an action's tasks leave alone. -/
theorem drain_carried (l : List Task) (s : State) : Carried s (drain l s) :=
  drain_rel Carried.refl (fun _ _ _ => Carried.trans) runTask_carried l s

theorem releaseSlot_carried (p : PoolId) (k : Strand) (s : State) : Carried s (releaseSlot p k s) :=
  (dropGrant_carried _ _ _).trans (drain_carried _ _)

theorem withdrawFrom_carried (p : PoolId) (k : Strand) (s : State) : Carried s (withdrawFrom p k s) := by
  unfold withdrawFrom
  split
  · exact (dropEntry_carried _ _ _).trans (releaseSlot_carried _ _ _)
  · exact dropEntry_carried _ _ _

/-- Everything the abandonment of a step leaves alone (R76). -/
theorem abandon_carried (k : Strand) (s : State) : Carried s (abandon k s) := by
  unfold abandon
  split
  · exact Carried.refl s
  · exact (((stopStep_carried _ _).trans (withdrawFrom_carried _ _ _)).trans (withdrawFrom_carried _ _ _)).trans
      (updUnit_carried _ _ _)

/-! ### The Strand Table's operations -/

theorem modStrand_at (k : Strand) (f : StrandContext → StrandContext) (s : State) : AtStrand k s (modStrand k f s) := by
  refine ⟨by simp [Outside, SameOutside, SameSettings], fun j hj => ?_, by simp, by simp, by simp, by simp, by simp, by simp⟩
  simp [SameStrand, hj]

theorem modReported_at (k : Strand) (f : StrandContext → StrandContext) (s : State) : AtStrand k s (modReported k f s) := by
  unfold modReported
  split
  · exact AtStrand.refl k s
  · exact (modStrand_at k f s).trans ((pend_carried _ _).at k)

theorem writeFault_at (k : Strand) (c : FaultCode) (d : Nat) (s : State) : AtStrand k s (writeFault k c d s) := by
  refine ⟨by simp [Outside, SameOutside, SameSettings], fun j hj => ⟨?_, ?_⟩, by simp, by simp, by simp, by simp, by simp,
    by simp⟩
  · simp [SameStrand, State.strand]
  · unfold writeFault pend
    split <;> simp [hj]

theorem modCoordinator_at (k : Strand) (f : Coordinator → Coordinator) (s : State) :
    AtStrand k s (modCoordinator f s) := by
  simp [AtStrand, Outside, SameOutside, SameSettings, OtherStrands, SameStrand, State.strand]

theorem enterSteady_at (k : Strand) (s : State) : AtStrand k s (enterSteady s) :=
  (modCoordinator_at k _ s).trans ((pend_carried _ _).at k)

theorem reportSettled_at (k : Strand) (s : State) : AtStrand k s (reportSettled k s) := by
  unfold reportSettled
  split
  · have h := (modCoordinator_at k (fun c => { c with releaseSet := c.releaseSet.erase k }) s).trans
      ((pend_carried .tundish _).at k)
    dsimp only
    split
    · exact h.trans (enterSteady_at k _)
    · exact h
  · exact AtStrand.refl k s

theorem enterHeld_at (k : Strand) (f : HoldFlag) (s : State) : AtStrand k s (enterHeld k f s) :=
  ((((abandon_carried k s).at k).trans ((updUnit_carried _ _ _).at k)).trans (modStrand_at _ _ _)).trans
    ((pend_carried _ _).at k)

theorem enterHalted_at (k : Strand) (c : HaltCause) (s : State) : AtStrand k s (enterHalted k c s) :=
  (((((abandon_carried k s).at k).trans ((updUnit_carried _ _ _).at k)).trans (modStrand_at _ _ _)).trans
    (reportSettled_at _ _)).trans ((pend_carried _ _).at k)

theorem enterDry_at (k : Strand) (s : State) : AtStrand k s (enterDry k s) :=
  (((((abandon_carried k s).at k).trans ((updUnit_carried _ _ _).at k)).trans (modStrand_at _ _ _)).trans
    (reportSettled_at _ _)).trans ((pend_carried _ _).at k)

theorem forgetGranted_at (k : Strand) (s : State) : AtStrand k s (forgetGranted k s) := by
  unfold forgetGranted
  split
  · simp [AtStrand, Outside, SameOutside, SameSettings, OtherStrands, SameStrand, State.strand]
  · exact AtStrand.refl k s

theorem enterOffline_at (k : Strand) (s : State) : AtStrand k s (enterOffline k s) :=
  ((((((abandon_carried k s).at k).trans ((updUnit_carried _ _ _).at k)).trans (modStrand_at _ _ _)).trans
    (forgetGranted_at _ _)).trans (reportSettled_at _ _)).trans ((pend_carried _ _).at k)

theorem enterCasting_at (k : Strand) (s : State) : AtStrand k s (enterCasting k s) :=
  ((((abandon_carried k s).at k).trans (modStrand_at _ _ _)).trans (reportSettled_at _ _)).trans ((pend_carried _ _).at k)

theorem enterRestarting_at (k : Strand) (kind : RestartKind) (n : Fin 32) (p : Plan) (s : State) :
    AtStrand k s (enterRestarting k kind n p s) := by
  have h : AtStrand k s { setCondition k (.restarting (newRecord s kind n p)) s with nextSerial := s.nextSerial + 1 } :=
    (modStrand_at k (fun x => { x with condition := .restarting (newRecord s kind n p) }) s).trans
      (by simp [AtStrand, Outside, SameOutside, SameSettings, OtherStrands, SameStrand, State.strand, setCondition])
  exact (h.trans ((pend_carried _ _).at k)).trans ((drain_carried _ _).at k)

theorem restartFromHeld_at (k : Strand) (s : State) : AtStrand k s (restartFromHeld k s) := by
  unfold restartFromHeld
  dsimp only
  split
  · exact enterRestarting_at _ _ _ _ _
  · exact (writeFault_at _ _ _ _).trans (enterHalted_at _ _ _)

theorem addHold_at (k : Strand) (f : HoldFlag) (s : State) : AtStrand k s (addHold k f s) := by
  unfold addHold
  cases f
  · exact modReported_at _ _ _
  · exact ((modReported_at _ _ _).trans (modStrand_at _ _ _)).trans ((updUnit_carried _ _ _).at k)
  · exact modReported_at _ _ _

/-- Everything a hold claim at strand `k` leaves alone (R15). -/
theorem holdClaim_at (f : HoldFlag) (k : Strand) (s : State) : AtStrand k s (holdClaim f k s) := by
  unfold holdClaim
  split
  · exact enterHeld_at _ _ _
  · exact addHold_at _ _ _
  · split
    · exact enterHeld_at _ _ _
    · exact enterDry_at _ _
  all_goals exact AtStrand.refl k s

/-- Everything a release claim at strand `k` leaves alone (R16). -/
theorem releaseFlag_at (f : HoldFlag) (k : Strand) (s : State) : AtStrand k s (releaseFlag f k s) := by
  unfold releaseFlag
  dsimp only
  split
  · split
    · split
      · exact modReported_at _ _ _
      · exact (modReported_at _ _ _).trans (restartFromHeld_at _ _)
    all_goals exact modReported_at _ _ _
  · exact AtStrand.refl k s

theorem stopStrand_at (k : Strand) (c : HaltCause) (s : State) : AtStrand k s (stopStrand k c s) := by
  unfold stopStrand
  split
  · exact enterHalted_at _ _ _
  · exact enterDry_at _ _

theorem takeFailure_at (k : Strand) (c : FailureClaim) (s : State) : AtStrand k s (takeFailure k c s) := by
  unfold takeFailure
  split
  · split
    · exact (writeFault_at _ _ _ _).trans (stopStrand_at _ _ _)
    · exact AtStrand.refl k s
  · exact AtStrand.refl k s

theorem takeCompletion_at (k : Strand) (n : Nat) (s : State) : AtStrand k s (takeCompletion k n s) := by
  unfold takeCompletion
  split
  · split
    · exact enterCasting_at _ _
    · exact AtStrand.refl k s
  · exact AtStrand.refl k s

theorem takeBreakout_at (k : Strand) (s : State) : AtStrand k s (takeBreakout k s) := by
  unfold takeBreakout
  dsimp only
  split
  · exact writeFault_at _ _ _ _
  · exact (writeFault_at _ _ _ _).trans (stopStrand_at _ _ _)
  · exact (writeFault_at _ _ _ _).trans (enterHalted_at _ _ _)
  · exact (writeFault_at _ _ _ _).trans (enterHalted_at _ _ _)
  · exact ((writeFault_at _ _ _ _).trans (modReported_at _ _ _)).trans ((updUnit_carried _ _ _).at k)
  · exact AtStrand.refl k s

theorem stepReadyFall_carried (k : Strand) (s : State) : Carried s (stepReadyFall k s) := by
  unfold stepReadyFall
  split
  · exact toPhase_carried _ _ _ _
  · exact Carried.refl s

theorem lostDrive_at (k : Strand) (s : State) : AtStrand k s (lostDrive k s) := by
  unfold lostDrive
  split
  · exact (writeFault_at _ _ _ _).trans (enterHalted_at _ _ _)
  · split
    · exact (stepReadyFall_carried _ _).at k
    · split
      · exact (writeFault_at _ _ _ _).trans (stopStrand_at _ _ _)
      · exact AtStrand.refl k s
  · split
    · exact modStrand_at _ _ _
    · exact AtStrand.refl k s
  all_goals exact AtStrand.refl k s

theorem takeReadyFall_at (k : Strand) (s : State) : AtStrand k s (takeReadyFall k s) := by
  unfold takeReadyFall
  split
  · exact lostDrive_at _ _
  · split
    · exact (stepReadyFall_carried _ _).at k
    · exact AtStrand.refl k s

theorem reexamine_at (k : Strand) (s : State) : AtStrand k s (reexamine k s) := by
  unfold reexamine
  split
  · exact lostDrive_at _ _
  · exact AtStrand.refl k s

/-- Everything the trip's halt claim at strand `k` leaves alone (R20). -/
theorem haltClaim_at (k : Strand) (s : State) : AtStrand k s (haltClaim k s) := by
  unfold haltClaim
  split
  · exact (writeFault_at _ _ _ _).trans (enterHalted_at _ _ _)
  · exact (writeFault_at _ _ _ _).trans (enterHalted_at _ _ _)
  · split
    · exact (writeFault_at _ _ _ _).trans (enterHalted_at _ _ _)
    · exact enterDry_at _ _
  all_goals exact AtStrand.refl k s

theorem abortStrand_at (k : Strand) (d : Nat) (s : State) : AtStrand k s (abortStrand k d s) := by
  unfold abortStrand
  dsimp only
  split
  · exact (writeFault_at _ _ _ _).trans (stopStrand_at _ _ _)
  · exact (writeFault_at _ _ _ _).trans (enterHalted_at _ _ _)
  · exact (writeFault_at _ _ _ _).trans (enterHalted_at _ _ _)
  all_goals exact AtStrand.refl k s

theorem freeze_at (k : Strand) (s : State) : AtStrand k s (freeze k s) :=
  (writeFault_at _ _ _ _).trans (enterHalted_at _ _ _)

theorem endStartUp_at (k : Strand) (b : Bool) (s : State) : AtStrand k s (endStartUp k b s) := by
  unfold endStartUp
  dsimp only
  split
  · exact ((modStrand_at _ _ _).trans (writeFault_at _ _ _ _)).trans (enterHalted_at _ _ _)
  · exact (modStrand_at _ _ _).trans ((pend_carried _ _).at k)

theorem returnToService_at (k : Strand) (s : State) : AtStrand k s (returnToService k s) := by
  unfold returnToService
  split
  · exact (writeFault_at _ _ _ _).trans (enterHalted_at _ _ _)
  · exact enterDry_at _ _

theorem setInFlight_at (k : Strand) (l : List Instr) (s : State) : AtStrand k s { s with inFlight := l } := by
  simp [AtStrand, Outside, SameOutside, SameSettings, OtherStrands, SameStrand, State.strand]

theorem takeOwnFailure_at (k : Strand) (s : State) : AtStrand k s (takeOwnFailure k s) := by
  unfold takeOwnFailure
  split
  · exact AtStrand.refl k s
  · split
    · exact (setInFlight_at k _ s).trans (takeFailure_at _ _ _)
    · exact AtStrand.refl k s

/-- Everything the taking of a strand's own restart-complete claim leaves alone (R124). -/
theorem takeOwnCompletion_at (k : Strand) (s : State) : AtStrand k s (takeOwnCompletion k s) := by
  unfold takeOwnCompletion
  split
  · split
    · exact (setInFlight_at k _ s).trans (takeCompletion_at _ _ _)
    · exact AtStrand.refl k s
  · exact AtStrand.refl k s

/-- Without a completed HANDOVER there is no claim to take first. -/
theorem takeOwnCompletion_of_not {k : Strand} {s : State} (h : handoverDone s k = false) : takeOwnCompletion k s = s := by
  unfold takeOwnCompletion
  split
  · simp [h]
  · rfl

theorem holdStrand_at (f : HoldFlag) (k : Strand) (s : State) : AtStrand k s (holdStrand f k s) :=
  (takeOwnCompletion_at k s).trans (holdClaim_at f k _)

theorem tripStrand_at (k : Strand) (s : State) : AtStrand k s (tripStrand k s) :=
  (takeOwnCompletion_at k s).trans (haltClaim_at k _)

/-! ### The caster-wide operations -/

/-- What the claims at every configured strand leave alone. -/
theorem forConfigured_outside (f : Strand → State → State) (h : ∀ k s, AtStrand k s (f k s)) (s : State) :
    Outside s (forConfigured f s) ∧ (forConfigured f s).supply = s.supply ∧ (forConfigured f s).trip = s.trip ∧
      (forConfigured f s).pour.excluded = s.pour.excluded ∧ (forConfigured f s).drive.excluded = s.drive.excluded ∧
      (forConfigured f s).pour.isOpen = s.pour.isOpen ∧ (forConfigured f s).drive.isOpen = s.drive.isOpen := by
  refine forConfigured_rel (R := fun s t => Outside s t ∧ t.supply = s.supply ∧ t.trip = s.trip ∧
      t.pour.excluded = s.pour.excluded ∧ t.drive.excluded = s.drive.excluded ∧
      t.pour.isOpen = s.pour.isOpen ∧ t.drive.isOpen = s.drive.isOpen)
    (fun s => ⟨Outside.refl s, rfl, rfl, rfl, rfl, rfl, rfl⟩) ?_ f ?_ s
  · rintro a b c ⟨a0, a1, a2, a3, a4, a5, a6⟩ ⟨b0, b1, b2, b3, b4, b5, b6⟩
    exact ⟨a0.trans b0, b1.trans a1, b2.trans a2, b3.trans a3, b4.trans a4, b5.trans a5, b6.trans a6⟩
  · intro k t
    obtain ⟨o, _, a1, a2, a3, a4, a5, a6⟩ := h k t
    exact ⟨o, a1, a2, a3, a4, a5, a6⟩

theorem openPool_outside (p : PoolId) (s : State) : Outside s (openPool p s) := by
  unfold openPool
  split
  · exact Outside.refl s
  · have h : Outside s (modPool p (fun x => { x with isOpen := true }) s) := by
      simp [Outside, SameOutside, SameSettings]
    exact h.trans (drain_carried _ _).1

theorem pend_outside (src : Source) (s : State) : Outside s (pend src s) := (pend_carried src s).1

theorem modCoordinator_outside (f : Coordinator → Coordinator) (s : State) : Outside s (modCoordinator f s) :=
  (modCoordinator_at 0 f s).1

theorem modSupply_outside (f : SupplyMonitor → SupplyMonitor) (s : State) : Outside s (modSupply f s) := by
  simp [Outside, SameOutside, SameSettings]

theorem modTrip_outside (f : TripLatch → TripLatch) (s : State) : Outside s (modTrip f s) := by
  simp [Outside, SameOutside, SameSettings]

theorem modPool_outside (p : PoolId) (f : Pool → Pool) (s : State) : Outside s (modPool p f s) := by
  simp [Outside, SameOutside, SameSettings]

theorem enterHolding_outside (s : State) : Outside s (enterHolding s) :=
  (((modCoordinator_outside _ s).trans (forConfigured_outside _ (holdStrand_at .tundish) _).1).trans
    (modPool_outside _ _ _)).trans (pend_outside _ _)

theorem enterFilling_outside (s : State) : Outside s (enterFilling s) :=
  (modCoordinator_outside _ s).trans (pend_outside _ _)

theorem releaseTundish_at (k : Strand) (s : State) : AtStrand k s (releaseTundish k s) := by
  unfold releaseTundish
  split
  · exact (releaseFlag_at _ _ _).trans (takeOwnFailure_at _ _)
  · exact releaseFlag_at _ _ _

theorem endEntry_outside (s : State) : Outside s (endEntry s) := by
  unfold endEntry
  dsimp only
  split
  · exact (modCoordinator_outside _ s).trans (enterSteady_at 0 _).1
  · exact modCoordinator_outside _ s

theorem enterReleasing_outside (s : State) : Outside s (enterReleasing s) := by
  unfold enterReleasing
  dsimp only
  refine Outside.trans ?_ (endEntry_outside _)
  refine Outside.trans ?_ (pend_outside _ _)
  refine Outside.trans ?_ (openPool_outside _ _)
  exact (modCoordinator_outside _ s).trans (forConfigured_outside _ releaseTundish_at _).1

theorem abandonChange_outside (s : State) : Outside s (abandonChange s) := by
  unfold abandonChange
  dsimp only
  refine ((((modCoordinator_outside _ s).trans (forConfigured_outside _ (fun k u => ?_) _).1).trans
    (modCoordinator_outside _ _)).trans (openPool_outside _ _)).trans (pend_outside _ _)
  split
  · exact (writeFault_at _ _ _ _).trans (enterHalted_at _ _ _)
  · exact AtStrand.refl k u

theorem takeWeight_outside (w : Nat) (s : State) : Outside s (takeWeight w s) := by
  have h := modCoordinator_outside (fun c => { c with lastWeight := some w }) s
  unfold takeWeight
  dsimp only
  split
  · refine h.trans ?_
    unfold judgeWeight
    dsimp only
    split
    · exact Outside.refl _
    · exact (modCoordinator_outside _ _).trans (pend_outside _ _)
  · split
    · exact h.trans (enterReleasing_outside _)
    · exact h
  all_goals exact h

theorem tripReturn_outside (s : State) : Outside s (tripReturn s) := by
  unfold tripReturn
  dsimp only
  refine Outside.trans ?_ (openPool_outside _ _)
  split
  · exact modCoordinator_outside _ _
  · exact ((modCoordinator_outside _ _).trans (modCoordinator_outside _ _)).trans (pend_outside _ _)

theorem releaseDip_outside (c : SuppliedFrom) (s : State) : Outside s (releaseDip c s) := by
  cases c
  · exact Outside.refl s
  · exact (forConfigured_outside _ (releaseFlag_at .dip) _).1
  · exact Outside.refl s

theorem enterSupplied_outside (c : SuppliedFrom) (s : State) : Outside s (enterSupplied c s) :=
  ((((modSupply_outside _ s).trans (forConfigured_outside _ reexamine_at _).1).trans (releaseDip_outside _ _)).trans
    (openPool_outside _ _)).trans (pend_outside _ _)

theorem declareDip_outside (s : State) : Outside s (declareDip s) :=
  ((modSupply_outside _ s).trans (forConfigured_outside _ (holdStrand_at .dip) _).1).trans (pend_outside _ _)

theorem latch_outside (s : State) : Outside s (latch s) :=
  ((((((modTrip_outside _ s).trans (forConfigured_outside _ tripStrand_at _).1).trans
    (forConfigured_outside _ (fun k u => (updUnit_carried k _ u).at k) _).1).trans (modPool_outside _ _ _)).trans
    (modPool_outside _ _ _)).trans (tripReturn_outside _)).trans (pend_outside _ _)

theorem takeTrip_outside (b : Bool) (s : State) : Outside s (takeTrip b s) := by
  have h := modTrip_outside (fun x => { x with line := b }) s
  unfold takeTrip
  dsimp only
  split
  · refine Outside.trans ?_ (latch_outside _)
    split
    · exact h.trans (pend_outside _ _)
    · exact h
  · split
    · exact h.trans (pend_outside _ _)
    · exact h

end Sys2Proof.Machine
end

