-- ==== Sys2Proof/Laws/Elsewhere.lean ====
section
/-! SUPPORT. What an action at other strands leaves of strand `k`: its context, its unit, its level parameter set and its
place at the pools. With it, what the abandonment of a step leaves: the strand is withdrawn from the Slot Arbiter. -/

namespace Sys2Proof.Machine

/-! ### The frame -/

/-- What an action at other strands leaves of strand `k`. -/
def Elsewhere (k : Strand) (s t : State) : Prop :=
  t.strand k = s.strand k ∧ t.unit k = s.unit k ∧ t.levelSet k = s.levelSet k ∧
  ∀ p, (t.pool p).grant? k = (s.pool p).grant? k ∧ ((s.pool p).waiting k = false → (t.pool p).waiting k = false)

theorem Elsewhere.refl (k : Strand) (s : State) : Elsewhere k s s := ⟨rfl, rfl, rfl, fun _ => ⟨rfl, id⟩⟩

theorem Elsewhere.trans {k : Strand} {s t u : State} (a : Elsewhere k s t) (b : Elsewhere k t u) : Elsewhere k s u :=
  ⟨b.1.trans a.1, b.2.1.trans a.2.1, b.2.2.1.trans a.2.2.1, fun p =>
    ⟨(b.2.2.2 p).1.trans (a.2.2.2 p).1, fun h => (b.2.2.2 p).2 ((a.2.2.2 p).2 h)⟩⟩

/-- An update that leaves strand `k`'s context and unit, the level sets and the pools. -/
theorem elsewhere_of {k : Strand} {s t : State} (h1 : t.strand k = s.strand k) (h2 : t.unit k = s.unit k)
    (h3 : t.levelSet k = s.levelSet k) (h4 : t.pour = s.pour) (h5 : t.drive = s.drive) : Elsewhere k s t :=
  ⟨h1, h2, h3, fun p => by cases p <;> simp [State.pool, h4, h5]⟩

variable {k j : Strand}

theorem pend_elsewhere (src : Source) (s : State) : Elsewhere k s (pend src s) :=
  elsewhere_of (by simp) (by simp) (by simp [State.levelSet]) (by simp) (by simp)

theorem emit_elsewhere (i : Instr) (s : State) : Elsewhere k s (emit i s) := elsewhere_of rfl rfl rfl rfl rfl

theorem modStrand_elsewhere (hj : k ≠ j) (f : StrandContext → StrandContext) (s : State) :
    Elsewhere k s (modStrand j f s) :=
  elsewhere_of (by simp [hj]) rfl rfl rfl rfl

theorem modRecord_elsewhere (hj : k ≠ j) (f : RestartRecord → RestartRecord) (s : State) :
    Elsewhere k s (modRecord j f s) := by
  unfold modRecord
  split
  · exact modStrand_elsewhere hj _ _
  · exact Elsewhere.refl k s

theorem updUnit_elsewhere (hj : k ≠ j) (f : UnitState → UnitState) (s : State) : Elsewhere k s (updUnit j f s) :=
  elsewhere_of (by simp [State.strand]) (by simp [hj]) (by simp [State.levelSet]) (by simp) (by simp)

/-- A change of a pool that leaves strand `k`'s grant record, and brings it no entry. -/
theorem modPool_elsewhere (p : PoolId) (f : Pool → Pool) (s : State) (hg : (f (s.pool p)).grant? k = (s.pool p).grant? k)
    (hw : (s.pool p).waiting k = false → (f (s.pool p)).waiting k = false) : Elsewhere k s (modPool p f s) := by
  refine ⟨by simp [State.strand], by simp [State.unit], by simp [State.levelSet], fun q => ?_⟩
  by_cases hq : q = p
  · subst hq
    simpa using ⟨hg, hw⟩
  · simp [hq]

theorem modGrant_elsewhere (hj : k ≠ j) (p : PoolId) (f : Grant → Grant) (s : State) :
    Elsewhere k s (modGrant p j f s) := by
  unfold modGrant
  split
  · exact modPool_elsewhere p _ s (by simp [Pool.grant?, hj]) id
  · exact Elsewhere.refl k s

/-! ### The operations at strand `j` -/

theorem insertEntry_waiting (e : WaitEntry) (l : List WaitEntry) (he : k ≠ e.strand)
    (h : l.any (·.strand == k) = false) : (insertEntry e l).any (·.strand == k) = false := by
  have he' : ¬ e.strand = k := fun x => he x.symm
  simp only [List.any_eq_false, beq_iff_eq] at *
  intro x hx
  unfold insertEntry at hx
  split at hx
  · rcases List.mem_append.mp hx with hx | hx
    · exact h x hx
    · simp at hx; subst hx; exact he'
  · rcases List.mem_append.mp hx with hx | hx
    · exact h x ((List.takeWhile_subset _) hx)
    · rcases List.mem_cons.mp hx with hx | hx
      · subst hx; exact he'
      · exact h x ((List.dropWhile_subset _) hx)

theorem joinWaits_elsewhere (hj : k ≠ j) (p : PoolId) (s : State) : Elsewhere k s (joinWaits p j s) :=
  modPool_elsewhere p _ s rfl (fun h => insertEntry_waiting _ _ hj h)

theorem dropGrant_elsewhere (hj : k ≠ j) (p : PoolId) (s : State) : Elsewhere k s (dropGrant p j s) :=
  modPool_elsewhere p _ s (by simp [Pool.grant?, hj]) id

theorem makeGrant_elsewhere (hj : k ≠ j) (p : PoolId) (l : List WaitEntry) (s : State)
    (hl : (s.pool p).waiting k = false → l.any (·.strand == k) = false) : Elsewhere k s (makeGrant p j l s) := by
  have h : Elsewhere k s (modPool p (fun x => { x with
      waits := l, holders := x.holders.put j (some (newGrant p j s)) }) s) :=
    modPool_elsewhere p _ s (by simp [Pool.grant?, hj]) hl
  cases p
  · exact h.trans (elsewhere_of rfl rfl rfl rfl rfl)
  · exact h

theorem failStep_elsewhere (hj : k ≠ j) (f : StepFailure) (s : State) : Elsewhere k s (failStep j f s) := by
  unfold failStep
  split
  · exact (modRecord_elsewhere hj _ _).trans (emit_elsewhere _ _)
  · exact Elsewhere.refl k s

theorem openForAttempt_elsewhere (hj : k ≠ j) (s : State) : Elsewhere k s (openForAttempt j s) := by
  unfold openForAttempt
  split
  · exact ((updUnit_elsewhere hj _ _).trans (modGrant_elsewhere hj _ _ _)).trans (modRecord_elsewhere hj _ _)
  · exact Elsewhere.refl k s

/-! ### Tasks -/

/-- The task does not name strand `k`. -/
def Task.avoids (k : Strand) : Task → Prop
  | .enterStep j | .completeStep j | .inrushEnd j => k ≠ j
  | .grantChoice _ => True

/-- What a task's result is to be for strand `k`: nothing of it has changed, and no task brought names it. -/
def Avoids (k : Strand) (s : State) (r : State × List Task) : Prop :=
  Elsewhere k s r.1 ∧ ∀ u ∈ r.2, Task.avoids k u

theorem Avoids.after {s t : State} {r : State × List Task} (a : Elsewhere k s t) (b : Avoids k t r) : Avoids k s r :=
  ⟨a.trans b.1, b.2⟩

theorem enterInrush_avoids (hj : k ≠ j) (s : State) : Avoids k s (enterInrush j s) := by
  refine ⟨(modGrant_elsewhere hj _ _ _).trans (modRecord_elsewhere hj _ _), fun u hu => ?_⟩
  unfold enterInrush at hu
  dsimp only at hu
  split at hu <;> simp at hu
  subst hu
  exact hj

theorem takeDriveGrant_avoids (hj : k ≠ j) (s : State) : Avoids k s (takeDriveGrant j s) := by
  unfold takeDriveGrant
  dsimp only
  split
  · exact (enterInrush_avoids hj _).after (updUnit_elsewhere hj _ _)
  · exact ⟨(updUnit_elsewhere hj _ _).trans (modRecord_elsewhere hj _ _), by simp⟩

theorem takePourGrant_elsewhere (hj : k ≠ j) (s : State) : Elsewhere k s (takePourGrant j s) := by
  unfold takePourGrant
  dsimp only
  split
  · exact openForAttempt_elsewhere hj _
  · split
    · exact (modRecord_elsewhere hj _ _).trans (openForAttempt_elsewhere hj _)
    · exact modRecord_elsewhere hj _ _

theorem deliverGrant_avoids (hj : k ≠ j) (p : PoolId) (s : State) : Avoids k s (deliverGrant p j s) := by
  unfold deliverGrant
  split
  · cases p
    · exact ⟨takePourGrant_elsewhere hj s, by simp⟩
    · exact takeDriveGrant_avoids hj s
  · exact ⟨Elsewhere.refl k s, by simp⟩

/-- A pass of the grant choice at a pool where strand `k` does not wait. -/
theorem grantPass_avoids (p : PoolId) (s : State) (hw : (s.pool p).waiting k = false) : Avoids k s (grantPass p s) := by
  unfold grantPass
  split
  · split
    · exact ⟨Elsewhere.refl k s, by simp⟩
    · next e rest he =>
      simp only [Pool.waiting, he, List.any_cons, Bool.or_eq_false_iff, beq_eq_false_iff_ne] at hw
      have hj : k ≠ e.strand := fun h => hw.1 h.symm
      have h := (deliverGrant_avoids hj p _).after (makeGrant_elsewhere hj p rest s (fun _ => hw.2))
      refine ⟨h.1, fun u hu => ?_⟩
      rcases List.mem_append.mp hu with hu | hu
      · exact h.2 u hu
      · simp at hu; subst hu; trivial
  · exact ⟨Elsewhere.refl k s, by simp⟩

theorem requestSlot_avoids (hj : k ≠ j) (p : PoolId) (s : State) : Avoids k s (requestSlot p j s) := by
  unfold requestSlot
  split
  · exact ⟨failStep_elsewhere hj _ _, by simp⟩
  · exact ⟨(modRecord_elsewhere hj _ _).trans (joinWaits_elsewhere hj _ _), by simp [Task.avoids]⟩

theorem writeLevelSet_elsewhere (hj : k ≠ j) (p : LevelParams) (s : State) : Elsewhere k s (writeLevelSet j p s) := by
  have h : Elsewhere k s { s with working := { s.working with levels := s.working.levels.put j p } } :=
    elsewhere_of rfl rfl (by simp [State.levelSet, hj]) rfl rfl
  unfold writeLevelSet
  dsimp only
  split
  · exact h.trans (updUnit_elsewhere hj _ _)
  · exact h

theorem beginLevel_avoids (hj : k ≠ j) (src : LevelSource) (s : State) : Avoids k s (beginLevel j src s) := by
  unfold beginLevel
  split
  · exact ⟨failStep_elsewhere hj _ _, by simp⟩
  · have h : Elsewhere k s (writeSource j src s) := by
      unfold writeSource
      split
      · exact writeLevelSet_elsewhere hj _ _
      · exact Elsewhere.refl k s
    refine ⟨(h.trans (updUnit_elsewhere hj _ _)).trans (modRecord_elsewhere hj _ _), fun u hu => ?_⟩
    dsimp only at hu
    split at hu <;> simp at hu
    subst hu
    exact hj

theorem rampTasks_avoid (hj : k ≠ j) (n : Nat) (s : State) : ∀ u ∈ rampTasks j n s, Task.avoids k u := by
  intro u hu
  unfold rampTasks at hu
  split at hu <;> simp at hu
  subst hu
  exact hj

theorem beginDraw_avoids (hj : k ≠ j) (a b c : Nat) (s : State) : Avoids k s (beginDraw j a b c s) := by
  unfold beginDraw
  split
  · exact ⟨(updUnit_elsewhere hj _ _).trans (modRecord_elsewhere hj _ _), rampTasks_avoid hj _ _⟩
  · split
    · exact ⟨(updUnit_elsewhere hj _ _).trans (modRecord_elsewhere hj _ _), rampTasks_avoid hj _ _⟩
    · exact ⟨failStep_elsewhere hj _ _, by simp⟩

theorem beginAction_avoids (hj : k ≠ j) (a : Action) (s : State) : Avoids k s (beginAction j a s) := by
  cases a with
  | check m =>
    refine ⟨modRecord_elsewhere hj _ _, fun u hu => ?_⟩
    unfold beginAction beginCheck at hu
    dsimp only at hu
    split at hu <;> simp at hu
    subst hu
    exact hj
  | cool z => exact ⟨updUnit_elsewhere hj _ _, by simpa [beginAction, beginCool, Task.avoids] using hj⟩
  | drive => exact requestSlot_avoids hj _ _
  | opening a b c d => exact requestSlot_avoids hj _ _
  | level src => exact beginLevel_avoids hj _ _
  | wait => exact ⟨modRecord_elsewhere hj _ _, by simp [beginAction]⟩
  | draw a b c => exact beginDraw_avoids hj _ _ _ _
  | handover => exact ⟨modRecord_elsewhere hj _ _, by simp [beginAction]⟩

/-- A task that does not name strand `k`, taken while `k` waits at no pool, changes nothing of it and brings no task that
names it. -/
theorem runTask_avoids (t : Task) (s : State) (ht : t.avoids k) (hw : ∀ p, (s.pool p).waiting k = false) :
    Avoids k s (runTask t s) := by
  cases t with
  | enterStep j =>
    unfold runTask beginStep
    dsimp only
    split
    · exact (beginAction_avoids ht _ _).after (modRecord_elsewhere ht _ _)
    · exact ⟨Elsewhere.refl k s, by simp⟩
  | completeStep j =>
    unfold runTask finishStep
    dsimp only
    split
    · exact ⟨Elsewhere.refl k s, by simp⟩
    · split
      · exact ⟨((modRecord_elsewhere ht _ _).trans (modRecord_elsewhere ht _ _)).trans (pend_elsewhere _ _),
          by simpa [Task.avoids] using ht⟩
      · exact ⟨(modRecord_elsewhere ht _ _).trans (emit_elsewhere _ _), by simp⟩
  | grantChoice p => exact grantPass_avoids p s (hw p)
  | inrushEnd j =>
    exact ⟨(dropGrant_elsewhere ht _ _).trans (modStrand_elsewhere ht _ _), by
      simpa [runTask, endInrush, Task.avoids] using ht⟩

/-- An action whose tasks do not name strand `k`, taken while `k` waits at no pool, changes nothing of it. -/
theorem drain_elsewhere (l : List Task) (s : State) (hl : ∀ u ∈ l, Task.avoids k u)
    (hw : ∀ p, (s.pool p).waiting k = false) : Elsewhere k s (drain l s) := by
  have h := drain_keeps_among (P := fun t => Elsewhere k s t) (Q := Task.avoids k) (fun u t hu ht => ?_) l s hl
    (Elsewhere.refl k s)
  · exact h
  · have := runTask_avoids u t hu (fun p => (ht.2.2.2 p).2 (hw p))
    exact ⟨ht.trans this.1, this.2⟩

/-! ### Withdrawal -/

/-- At the POUR pool a choice brings no task but the next choice there. -/
theorem pourChoice_tasks (s : State) : ∀ u ∈ (grantPass .pour s).2, u = .grantChoice .pour := by
  intro u hu
  unfold grantPass at hu
  split at hu
  · split at hu
    · simp at hu
    · unfold deliverGrant at hu
      split at hu <;> simpa using hu
  · simp at hu

/-- A choice at the POUR pool, where strand `k` does not wait, leaves its place at both pools: no grant record of its own
changes, and it waits where it did. -/
theorem drain_pour_elsewhere (s : State) (hw : s.pour.waiting k = false) :
    Elsewhere k s (drain [.grantChoice .pour] s) := by
  refine drain_keeps_among (P := fun t => Elsewhere k s t) (Q := fun u => u = .grantChoice .pour) (fun u t hu ht => ?_) _ s
    (by simp) (Elsewhere.refl k s)
  subst hu
  exact ⟨ht.trans (grantPass_avoids .pour t ((ht.2.2.2 .pour).2 hw)).1, pourChoice_tasks t⟩

theorem dropEntry_waiting (p : PoolId) (s : State) : ((dropEntry p k s).pool p).waiting k = false := by
  simp [dropEntry, Pool.waiting]

/-- Strand `k`'s own context and unit are the same after its entry and its grant record have gone. -/
theorem dropEntry_own (p : PoolId) (s : State) :
    (dropEntry p k s).strand k = s.strand k ∧ (dropEntry p k s).unit k = s.unit k := by
  simp [dropEntry, State.strand, State.unit]

/-- A strand withdrawn from the POUR pool holds no slot there and does not wait there; at the DRIVE pool it stands as it
did, and its context and unit are the same. -/
theorem withdrawFrom_pour (s : State) :
    let t := withdrawFrom .pour k s
    t.pour.holds k = false ∧ t.pour.waiting k = false ∧ t.drive.grant? k = s.drive.grant? k ∧
      (s.drive.waiting k = false → t.drive.waiting k = false) ∧ t.strand k = s.strand k ∧ t.unit k = s.unit k := by
  have hw : (dropEntry .pour k s).pour.waiting k = false := dropEntry_waiting .pour s
  have ho := dropEntry_own (k := k) .pour s
  have hd : (dropEntry .pour k s).drive = s.drive := rfl
  unfold withdrawFrom
  split
  · unfold releaseSlot
    have e := drain_pour_elsewhere (k := k) (dropGrant .pour k (dropEntry .pour k s)) hw
    have hg : (dropGrant .pour k (dropEntry .pour k s)).pour.grant? k = none := by
      simp [dropGrant, modPool, setPool, Pool.grant?, State.pool]
    refine ⟨?_, (e.2.2.2 .pour).2 hw, ((e.2.2.2 .drive).1).trans rfl, fun h => (e.2.2.2 .drive).2 h, e.1.trans ?_,
      e.2.1.trans ?_⟩
    · have := (e.2.2.2 .pour).1
      simp only [State.pool] at this
      simp only [Pool.holds, this, hg, Option.isSome_none]
    · exact ho.1
    · exact ho.2
  · next hh =>
    exact ⟨by simpa [State.pool] using hh, hw, by rw [hd], by rw [hd]; exact id, ho⟩

/-- A strand that stands nowhere at the POUR pool, withdrawn from the DRIVE pool, stands at neither, and its context and unit
are the same. -/
theorem withdrawFrom_drive (s : State) (hh : s.pour.holds k = false) (hp : s.pour.waiting k = false) :
    let t := withdrawFrom .drive k s
    Withdrawn t k ∧ t.strand k = s.strand k ∧ t.unit k = s.unit k := by
  have hw : ∀ p, ((dropGrant .drive k (dropEntry .drive k s)).pool p).waiting k = false := by
    intro p
    cases p
    · exact hp
    · exact dropEntry_waiting .drive s
  have ho := dropEntry_own (k := k) .drive s
  unfold withdrawFrom
  split
  · unfold releaseSlot
    have e := drain_elsewhere (k := k) [.grantChoice .drive] (dropGrant .drive k (dropEntry .drive k s))
      (by simp [Task.avoids]) hw
    have hg : (dropGrant .drive k (dropEntry .drive k s)).drive.grant? k = none := by
      simp [dropGrant, modPool, setPool, Pool.grant?, State.pool]
    refine ⟨⟨?_, ?_, (e.2.2.2 .pour).2 (hw .pour), (e.2.2.2 .drive).2 (hw .drive)⟩, e.1.trans ho.1, e.2.1.trans ho.2⟩
    · have := (e.2.2.2 .pour).1
      simp only [Pool.holds] at hh ⊢
      simp only [State.pool] at this
      rw [this]
      exact hh
    · have := (e.2.2.2 .drive).1
      simp only [State.pool] at this
      simp only [Pool.holds, this, hg, Option.isSome_none]
  · next hd =>
    exact ⟨⟨hh, by simpa [State.pool] using hd, hp, dropEntry_waiting .drive s⟩, ho⟩

/-- What the abandonment of a step leaves of its own strand (R76): it is withdrawn from the Slot Arbiter, and its context is
the same but for the course of the restart. A strand that is not RESTARTING must stand at no pool, as `slotLaw` says. -/
theorem abandon_own (k : Strand) (s : State) (h : slotLawAt s k = true) :
    Withdrawn (abandon k s) k ∧
      (∃ c, (abandon k s).strand k = { s.strand k with condition := c }) ∧
      (abandon k s).unit k = (if (s.record? k).isSome then (s.unit k).endFill.stopRamp else s.unit k) := by
  unfold abandon
  split
  · next hr =>
    have : ∀ (c : Condition), c.record?.isSome = false → slotLawAt s k = true → (s.strand k).condition = c →
        Withdrawn s k := by
      intro c hc hl he
      simp only [slotLawAt, he, hc, Bool.false_or, Bool.and_eq_true, Bool.not_eq_true'] at hl
      exact ⟨hl.1.1.1, hl.1.1.2, hl.1.2, hl.2⟩
    refine ⟨this _ ?_ h rfl, ⟨(s.strand k).condition, rfl⟩, by simp [hr]⟩
    simp only [State.record?] at hr
    simp [hr]
  · next r hr =>
    obtain ⟨a1, a2, _, _, a5, a6⟩ := withdrawFrom_pour (k := k) (stopStep k s)
    obtain ⟨b1, b2, b3⟩ := withdrawFrom_drive (k := k) (withdrawFrom .pour k (stopStep k s)) a1 a2
    refine ⟨?_, ?_, ?_⟩
    · simpa [Withdrawn] using b1
    · refine ⟨((stopStep k s).strand k).condition, ?_⟩
      have e : (updUnit k (fun u => u.endFill.stopRamp) (withdrawFrom .drive k (withdrawFrom .pour k (stopStep k s)))).strand k
          = (withdrawFrom .drive k (withdrawFrom .pour k (stopStep k s))).strand k := by simp [State.strand]
      rw [e, b2, a5]
      simp [stopStep, modRecord, hr]
    · rw [updUnit_unit_same, b3, a6]
      simp [stopStep, State.unit, hr]

end Sys2Proof.Machine
end

