-- ==== Sys2Proof/Laws/Requests.lean ====
section
/-! SUPPORT. What a command's end does, what a request's handling does, and what the checks of a request answer: the lemmas
that a proof about a request cites instead of unfolding the link. -/

namespace Sys2Proof.Machine

/-! ### Notices -/

/-- A notice that becomes pending is pending. -/
theorem pend_look (src : Source) (s : State) (h : src.mayPend s = true) :
    (pend src s).noticePending.look src.number = true := by
  simp [pend, h]

/-- A pending notice stays pending when another becomes so. -/
theorem pend_look_mono (src : Source) (n : Fin 29) (s : State) (h : s.noticePending.look n = true) :
    (pend src s).noticePending.look n = true := by
  unfold pend
  split
  · rw [look_put]; split <;> simp [h]
  · exact h

/-- A source that is not set pending leaves the state as it is. -/
theorem pend_of_not_mayPend (src : Source) (s : State) (h : src.mayPend s = false) : pend src s = s := by
  simp [pend, h]

/-- A notice's contents are read from none of the fields that the choice changes. -/
theorem noticeFrame_of_choice (s : State) (n : Fin 29) (p : Tab 29 Bool) (f : Option Frame) (l : List Frame) :
    noticeFrame { s with noticePending := p, sending := f, replies := l } n = noticeFrame s n := rfl

/-! ### The choice at a command's end (R178) -/

theorem noticeChoice_busy (s : State) (f : Frame) (h : s.sending = some f) : noticeChoice s = s := by
  simp [noticeChoice, h]

theorem noticeChoice_reply (s : State) (f : Frame) (l : List Frame) (h : s.sending = none) (hr : s.replies = f :: l) :
    noticeChoice s = { s with replies := l, sending := some f } := by
  simp [noticeChoice, h, hr]

theorem noticeChoice_notice (s : State) (n : Fin 29) (h : s.sending = none) (hr : s.replies = [])
    (hb : bestSource s = some n) :
    noticeChoice s = { s with noticePending := s.noticePending.put n false, sending := some (noticeFrame s n) } := by
  simp [noticeChoice, h, hr, hb]

theorem noticeChoice_idle (s : State) (h : s.sending = none) (hr : s.replies = []) (hb : bestSource s = none) :
    noticeChoice s = s := by
  simp [noticeChoice, h, hr, hb]

/-- The choice changes the frames on their way to the host and the pending flags alone. -/
theorem noticeChoice_sameButNotices (s : State) : SameButNotices s (noticeChoice s) := by
  unfold SameButNotices noticeChoice
  split
  · rfl
  · split
    · rfl
    · split <;> rfl

/-- A notice owed before the choice is owed after it. -/
theorem noticeChoice_noticed (src : Source) (s : State) (h : s.noticePending.look src.number = true) :
    Noticed (noticeChoice s) src := by
  unfold noticeChoice
  split
  · exact Or.inl h
  · split
    · exact Or.inl h
    · split
      · next n _ =>
        by_cases hn : src.number = n
        · exact Or.inr (by rw [hn]; exact congrArg some (noticeFrame_of_choice s n _ _ s.replies).symm)
        · exact Or.inl (by simpa [hn] using h)
      · exact Or.inl h

/-! ### A request's handling (R186) -/

/-- At a full reply queue a request does nothing. -/
theorem handleRequest_full (tag kind : Byte) (h : Handler) (s : State) (hq : 4 ≤ s.replies.length) :
    handleRequest tag kind h s = s := by
  have : Config.replyPlaces ≤ s.replies.length := hq
  simp [handleRequest, this]

/-- A reply that has joined the queue is last on its way to the host, and no notice is taken. -/
theorem noticeChoice_queued (u : State) (l : List Frame) (r : Frame) (hr : u.replies = l ++ [r]) :
    (noticeChoice u).outgoing = u.sending.toList ++ l ++ [r] ∧ SameButReply u (noticeChoice u) := by
  cases hs : u.sending with
  | some f =>
    rw [noticeChoice_busy u f hs]
    exact ⟨by simp [State.outgoing, hs, hr], rfl⟩
  | none =>
    cases l with
    | nil =>
      rw [noticeChoice_reply u r [] hs (by simpa using hr)]
      exact ⟨by simp [State.outgoing], rfl⟩
    | cons f l =>
      rw [noticeChoice_reply u f (l ++ [r]) hs (by simpa using hr)]
      exact ⟨by simp [State.outgoing], rfl⟩

/-- At any other reply queue a handler that leaves the link's sending side alone is answered once, by its reply. -/
theorem handleRequest_answered (tag kind : Byte) (h : Handler) (s : State) (hq : s.queueFree)
    (hr : (h s).1.replies = s.replies) (hs : (h s).1.sending = s.sending) :
    Answered s (handleRequest tag kind h s) tag kind (h s).2 ∧ SameButReply (h s).1 (handleRequest tag kind h s) := by
  have hf : ¬ Config.replyPlaces ≤ s.replies.length := Nat.not_le.mpr hq
  unfold handleRequest
  simp only [if_neg hf]
  have := noticeChoice_queued
    { (h s).1 with replies := (h s).1.replies ++ [⟨tag, kind + 0x80, (h s).2⟩] } (h s).1.replies _ rfl
  refine ⟨?_, ?_⟩
  · rw [Answered, this.1, State.outgoing, hr, hs]
  · rw [SameButReply, this.2]

/-- A refused request is answered with its code alone and changes nothing. -/
theorem handleRequest_refused (tag kind : Byte) (h : Handler) (c : ReplyCode) (s : State) (hq : s.queueFree)
    (he : h s = refuse c s) :
    Answered s (handleRequest tag kind h s) tag kind [c.byte] ∧ SameButReply s (handleRequest tag kind h s) := by
  have := handleRequest_answered tag kind h s hq (by rw [he]; rfl) (by rw [he]; rfl)
  rwa [he] at this

/-- A read is answered with OK and its contents and changes nothing. -/
theorem handleRequest_report (tag kind : Byte) (h : Handler) (f : State → List Byte) (s : State) (hq : s.queueFree)
    (he : h s = report f s) :
    Answered s (handleRequest tag kind h s) tag kind ([ReplyCode.ok.byte] ++ f s) ∧
      SameButReply s (handleRequest tag kind h s) := by
  have := handleRequest_answered tag kind h s hq (by rw [he]; rfl) (by rw [he]; rfl)
  rwa [he] at this

/-- An accepted request is answered with OK alone, and does what its effect does. -/
theorem handleRequest_accepted (tag kind : Byte) (h : Handler) (f : State → State) (s : State) (hq : s.queueFree)
    (he : h s = accept f s) (hr : (f s).replies = s.replies) (hs : (f s).sending = s.sending) :
    Answered s (handleRequest tag kind h s) tag kind [ReplyCode.ok.byte] ∧
      SameButReply (f s) (handleRequest tag kind h s) := by
  have := handleRequest_answered tag kind h s hq (by rw [he]; exact hr) (by rw [he]; exact hs)
  rwa [he] at this

/-! ### The checks (R187) -/

theorem checked_fails (checks : State → List (Bool × ReplyCode)) (h : Handler) (c : ReplyCode) (s : State)
    (hc : firstFailure (checks s) = some c) : checked checks h s = refuse c s := by
  simp [checked, hc]

theorem checked_passes (checks : State → List (Bool × ReplyCode)) (h : Handler) (s : State)
    (hc : firstFailure (checks s) = none) : checked checks h s = h s := by
  simp [checked, hc]

/-- The byte that names strand `k` is not 0. -/
theorem nameByte_ne_zero (k : Strand) : nameByte k ≠ 0 := by
  revert k; decide

/-- The byte that names strand `k` is its number. -/
theorem nameByte_toNat (k : Strand) : (nameByte k).toNat = k.val + 1 := by
  revert k; decide

/-- A request that names strand 0 is BAD_FIELD. -/
theorem namingStrand_zero (h : Strand → Handler) (s : State) : namingStrand 0 h s = refuse .badField s := by
  simp [namingStrand]

/-- A request that names a strand above the configured count is NOT_FITTED. -/
theorem namingStrand_above (b : Byte) (h : Strand → Handler) (s : State) (h0 : b ≠ 0) (hb : s.configuredCount < b.toNat) :
    namingStrand b h s = refuse .notFitted s := by
  rw [namingStrand, if_neg h0, if_pos hb]

/-- A request that names a configured strand reaches it. -/
theorem namingStrand_name (k : Strand) (h : Strand → Handler) (s : State) (hk : s.isConfigured k = true) :
    namingStrand (nameByte k) h s = h k s := by
  have hlt : k.val < s.configuredCount := by simpa [State.isConfigured] using hk
  have hn : ¬ s.configuredCount < (nameByte k).toNat := by rw [nameByte_toNat]; omega
  have h8 : (nameByte k).toNat - 1 < 8 := by rw [nameByte_toNat]; omega
  have he : (⟨(nameByte k).toNat - 1, h8⟩ : Strand) = k := Fin.ext (by simp [nameByte_toNat])
  rw [namingStrand, if_neg (nameByte_ne_zero k), if_neg hn, dif_pos h8, he]

/-- A request that names an OFFLINE strand is WRONG_STATE, where it must be in service. -/
theorem namingInService_offline (k : Strand) (h : Strand → Handler) (s : State) (hk : s.isConfigured k = true)
    (ho : (s.strand k).condition.isOffline = true) : namingInService (nameByte k) h s = refuse .wrongState s := by
  rw [namingInService, namingStrand_name k _ s hk]
  exact checked_fails _ _ _ _ (by simp [firstFailure, ho])

/-- A request that names a strand in service reaches it. -/
theorem namingInService_name (k : Strand) (h : Strand → Handler) (s : State) (hk : s.inService k = true) :
    namingInService (nameByte k) h s = h k s := by
  simp only [State.inService, Bool.and_eq_true, Bool.not_eq_true'] at hk
  rw [namingInService, namingStrand_name k _ s hk.1]
  exact checked_passes _ _ _ (by simp [firstFailure, hk.2])

end Sys2Proof.Machine
end

