-- ==== Sys2Proof/Laws/Conditions.lean ====
section
/-! SUPPORT. What each change of condition makes of its own strand (R5, R9, R11 to R14, R109), for a strand that stands at a
pool only while it is RESTARTING (`slotLawAt`). -/

namespace Sys2Proof.Machine

/-! ### Reading through -/

theorem settingsOf_of_outside {s t : State} (h : Outside s t) (k : Strand) : t.settingsOf k = s.settingsOf k := by
  have := h.2.1
  simp only [SameSettings] at this
  simp only [State.settingsOf]
  rw [this]

theorem isConfigured_of_outside {s t : State} (h : Outside s t) (k : Strand) : t.isConfigured k = s.isConfigured k := by
  simp only [State.isConfigured, h.1.2.2.1]

/-- The unit of a strand given a condition claim (R109). -/
theorem rest_fields (b : Bool) (z : Zones) (u : UnitState) :
    (u.rest b z).draw = false ∧ (u.rest b z).levelOn = false ∧ (u.rest b z).driveRun = (b && u.driveRun) ∧
      (u.rest b z).stopper = .closed ∧ (u.rest b z).setpoint = 0 ∧ (u.rest b z).ramp = none ∧
      (u.rest b z).lock = false ∧ (u.rest b z).cooling = z :=
  ⟨rfl, rfl, rfl, rfl, rfl, rfl, rfl, rfl⟩

theorem atRest_of_unit {t : State} {k : Strand} {z : Zones} {u : UnitState} (h : t.unit k = u.rest false z) :
    AtRest t k z := by
  simp only [AtRest, h]
  exact rest_fields false z u

/-- A notice owed stays owed through the choice at a command's end. -/
theorem noticed_choice {t : State} {src : Source} (h : Noticed t src) : Noticed (noticeChoice t) src := by
  rcases h with h | h
  · exact noticeChoice_noticed src t h
  · rw [noticeChoice_busy t _ h]
    exact Or.inr h

/-- A strand stopped stays so through the choice at a command's end. -/
theorem stopped_choice {t : State} {k : Strand} {c : Condition} {z : Zones} (h : Stopped t k c z) :
    Stopped (noticeChoice t) k c z := by
  obtain ⟨h1, h2, h3, h4, h5, h6⟩ := h
  refine ⟨?_, ?_, ?_, ?_, ?_, noticed_choice h6⟩
  · simpa [State.strand] using h1
  · simpa [State.strand] using h2
  · simpa [State.strand] using h3
  · simpa [AtRest, State.unit] using h4
  · simpa [Withdrawn] using h5

/-! ### The report to the Coordinator -/

theorem reportSettled_strand (k j : Strand) (s : State) : (reportSettled k s).strand j = s.strand j := by
  unfold reportSettled enterSteady
  split
  · dsimp only
    split <;> simp [State.strand]
  · rfl

theorem reportSettled_unit (k j : Strand) (s : State) : (reportSettled k s).unit j = s.unit j := by
  unfold reportSettled enterSteady
  split
  · dsimp only
    split <;> simp [State.unit]
  · rfl

theorem reportSettled_pools (k : Strand) (s : State) :
    (reportSettled k s).pour = s.pour ∧ (reportSettled k s).drive = s.drive := by
  unfold reportSettled enterSteady
  split
  · dsimp only
    split <;> simp
  · exact ⟨rfl, rfl⟩

theorem reportSettled_configured (k : Strand) (s : State) : (reportSettled k s).configuredCount = s.configuredCount := by
  exact (reportSettled_at k s).1.1.2.2.1

/-! ### The changes of condition -/

/-- A strand whose context became `c` with its unit at rest, its places at the pools gone, and its STATE notice set. -/
theorem stopped_of {k : Strand} {t : State} {c : StrandContext} {u : UnitState} {z : Zones} (hk : t.isConfigured k = true)
    (hs : t.strand k = c) (ha : c.anyHold = false) (hr : c.holdTimer.running = false) (hu : t.unit k = u.rest false z)
    (hw : Withdrawn t k) : Stopped (pend (.state k) t) k c.condition z := by
  refine ⟨by simp [hs], by simp [hs, ha], by simp [hs, hr], ?_, by simpa [Withdrawn] using hw, ?_⟩
  · exact atRest_of_unit (u := u) (by simp [hu])
  · exact Or.inl (pend_look _ _ hk)

/-- Entry into HALTED (R12): what becomes of the strand. -/
theorem enterHalted_own (k : Strand) (cause : HaltCause) (s : State) (h : slotLawAt s k = true)
    (hk : s.isConfigured k = true) :
    let t := enterHalted k cause s
    Stopped t k (.halted cause) (haltCooling s k cause) ∧
      (t.strand k).steel = ((s.strand k).steel || cause == .reset) ∧
      (t.strand k).holdTimer = ⟨(s.strand k).holdTimer.elapsed, false⟩ ∧
      (t.strand k).check = (s.strand k).check := by
  obtain ⟨hw, ⟨c, hc⟩, -⟩ := abandon_own k s h
  have ho := abandon_carried k s
  have hz : haltCooling (abandon k s) k cause = haltCooling s k cause := by
    cases cause <;> simp [haltCooling, settingsOf_of_outside ho.1]
  unfold enterHalted
  dsimp only
  refine ⟨?_, ?_, ?_, ?_⟩
  · refine stopped_of (u := (abandon k s).unit k) (c := { (s.strand k).settle with
        condition := .halted cause
        steel := (s.strand k).steel || cause == .reset
        driveLost := (s.strand k).driveLost && !c.isOffline }) ?_ ?_ ?_ ?_ ?_ ?_
    · simp only [State.isConfigured, reportSettled_configured, modStrand_configuredCount, updUnit_configuredCount]
      have := isConfigured_of_outside ho.1 k
      simp only [State.isConfigured] at this hk
      rw [this, hk]
    · rw [reportSettled_strand, modStrand_strand_same]
      simp only [State.strand, updUnit_strands]
      simp only [State.strand] at hc
      rw [hc]
      simp [StrandContext.settle]
    · rfl
    · rfl
    · rw [reportSettled_unit]
      simp only [State.unit, modStrand_units]
      have := updUnit_unit_same k (abandon k s) (UnitState.rest false (haltCooling (abandon k s) k cause))
      simp only [State.unit] at this
      rw [this, hz]
    · simpa [Withdrawn, reportSettled_pools] using hw
  all_goals
    rw [pend_strand, reportSettled_strand, modStrand_strand_same]
    simp only [State.strand, updUnit_strands]
    simp only [State.strand] at hc
    rw [hc]
    try rfl

/-- Entry into DRY (R13): what becomes of the strand. -/
theorem enterDry_own (k : Strand) (s : State) (h : slotLawAt s k = true) (hk : s.isConfigured k = true) :
    let t := enterDry k s
    Stopped t k .dry ⟨0, 0, 0, 0⟩ ∧ (t.strand k).steel = false ∧ (t.strand k).driveLost = false ∧
      (t.strand k).holdTimer = ⟨(s.strand k).holdTimer.elapsed, false⟩ ∧
      (t.strand k).check = (s.strand k).check := by
  obtain ⟨hw, ⟨c, hc⟩, -⟩ := abandon_own k s h
  have ho := abandon_carried k s
  unfold enterDry
  dsimp only
  refine ⟨?_, ?_, ?_, ?_, ?_⟩
  · refine stopped_of (u := (abandon k s).unit k)
      (c := { (s.strand k).settle with condition := .dry, steel := false, driveLost := false }) ?_ ?_ ?_ ?_ ?_ ?_
    · simp only [State.isConfigured, reportSettled_configured, modStrand_configuredCount, updUnit_configuredCount]
      have := isConfigured_of_outside ho.1 k
      simp only [State.isConfigured] at this hk
      rw [this, hk]
    · rw [reportSettled_strand, modStrand_strand_same]
      simp only [State.strand, updUnit_strands]
      simp only [State.strand] at hc
      rw [hc]
      simp [StrandContext.settle]
    · rfl
    · rfl
    · rw [reportSettled_unit]
      simp only [State.unit, modStrand_units]
      have := updUnit_unit_same k (abandon k s) (UnitState.rest false zeroZones)
      simp only [State.unit] at this
      rw [this]
      rfl
    · simpa [Withdrawn, reportSettled_pools] using hw
  · rw [pend_strand, reportSettled_strand, modStrand_strand_same]
  · rw [pend_strand, reportSettled_strand, modStrand_strand_same]
  all_goals
    rw [pend_strand, reportSettled_strand, modStrand_strand_same]
    simp only [State.strand, updUnit_strands]
    simp only [State.strand] at hc
    rw [hc]
    try rfl

/-- Entry into HELD (R11): what becomes of the strand. -/
theorem enterHeld_own (k : Strand) (f : HoldFlag) (s : State) (h : slotLawAt s k = true) (hk : s.isConfigured k = true) :
    let t := enterHeld k f s
    (t.strand k).condition = .held ∧ (t.strand k).flag f = true ∧
      (t.strand k).driveLost = ((s.strand k).driveLost || f == .dip) ∧ (t.strand k).steel = (s.strand k).steel ∧
      (t.strand k).holdTimer = (s.strand k).holdTimer.start ∧ Withdrawn t k ∧ Noticed t (.state k) ∧
      t.unit k = ((abandon k s).unit k).rest (f != .dip) (s.settingsOf k).holdCooling := by
  obtain ⟨hw, ⟨c, hc⟩, -⟩ := abandon_own k s h
  have ho := abandon_carried k s
  have hn := isConfigured_of_outside ho.1 k
  have hst : ∀ g : StrandContext → StrandContext, ∀ z,
      (pend (.state k) (modStrand k g (updUnit k (UnitState.rest (f != .dip) z) (abandon k s)))).strand k
        = g { s.strand k with condition := c } := by
    intro g z
    rw [pend_strand, modStrand_strand_same]
    simp only [State.strand, updUnit_strands]
    simp only [State.strand] at hc
    rw [hc]
  unfold enterHeld
  dsimp only
  refine ⟨?_, ?_, ?_, ?_, ?_, ?_, ?_, ?_⟩
  · rw [hst]
  · rw [hst]; try (cases f <;> rfl)
  · rw [hst]
  · rw [hst]; try (cases f <;> rfl)
  · rw [hst]
  · simpa [Withdrawn] using hw
  · refine Or.inl (pend_look _ _ ?_)
    simp only [Source.mayPend, State.isConfigured, modStrand_configuredCount, updUnit_configuredCount] at hn ⊢
    simp only [State.isConfigured] at hk
    rw [hn, hk]
  · have := updUnit_unit_same k (abandon k s) (UnitState.rest (f != .dip) ((abandon k s).settingsOf k).holdCooling)
    rw [settingsOf_of_outside ho.1] at this
    rw [pend_unit, settingsOf_of_outside ho.1]
    simpa [State.unit] using this

/-- Entry into CASTING (R17): what becomes of the strand. -/
theorem enterCasting_own (k : Strand) (s : State) (h : slotLawAt s k = true) (hk : s.isConfigured k = true) :
    let t := enterCasting k s
    t.strand k = { s.strand k with condition := .casting, holdTimer := { (s.strand k).holdTimer with running := false } } ∧
      t.unit k = (if (s.record? k).isSome then (s.unit k).endFill.stopRamp else s.unit k) ∧ Withdrawn t k ∧
      Noticed t (.state k) := by
  obtain ⟨hw, ⟨c, hc⟩, hu⟩ := abandon_own k s h
  have hn := isConfigured_of_outside (abandon_carried k s).1 k
  unfold enterCasting
  dsimp only
  refine ⟨?_, ?_, ?_, ?_⟩
  · rw [pend_strand, reportSettled_strand, modStrand_strand_same, hc]
  · rw [pend_unit, reportSettled_unit, ← hu]
    simp [State.unit]
  · simpa [Withdrawn, reportSettled_pools] using hw
  · refine Or.inl (pend_look _ _ ?_)
    simp only [Source.mayPend, State.isConfigured, reportSettled_configured, modStrand_configuredCount] at hn ⊢
    simp only [State.isConfigured] at hk
    rw [hn, hk]

/-- A completed HANDOVER's own claim, taken before a hold or halt claim (R124): the strand is CASTING then. -/
theorem takeOwnCompletion_own (k : Strand) (s : State) (hd : handoverDone s k = true) (h : slotLawAt s k = true)
    (hk : s.isConfigured k = true) :
    let t := takeOwnCompletion k s
    t.strand k = { s.strand k with condition := .casting, holdTimer := { (s.strand k).holdTimer with running := false } } ∧
      t.unit k = (s.unit k).endFill.stopRamp ∧ Withdrawn t k ∧ Noticed t (.state k) := by
  unfold takeOwnCompletion
  split
  · next r hr =>
    have hs : ({ s with inFlight := s.inFlight.erase (.restartCompleteClaim k r.serial) } : State).record? k = some r := hr
    have e := enterCasting_own k { s with inFlight := s.inFlight.erase (.restartCompleteClaim k r.serial) } h hk
    rw [if_pos hd]
    simp only [takeCompletion, hs, if_true, Option.isSome_some] at e ⊢
    exact e
  · next hr => simp [handoverDone, hr] at hd

/-- Entry into OFFLINE by SERVICE (R14): what becomes of the strand. -/
theorem enterOffline_own (k : Strand) (s : State) (h : slotLawAt s k = true) (hk : s.isConfigured k = true) :
    let t := enterOffline k s
    Stopped t k (.offline .service) ⟨0, 0, 0, 0⟩ ∧ (t.strand k).steel = (s.strand k).steel := by
  obtain ⟨hw, ⟨c, hc⟩, -⟩ := abandon_own k s h
  have ho := abandon_carried k s
  have hf : ∀ u : State, (forgetGranted k u).strands = u.strands ∧ (forgetGranted k u).units = u.units ∧
      (forgetGranted k u).pour = u.pour ∧ (forgetGranted k u).drive = u.drive ∧
      (forgetGranted k u).configuredCount = u.configuredCount := by
    intro u
    unfold forgetGranted
    split <;> exact ⟨rfl, rfl, rfl, rfl, rfl⟩
  have hstr : ∀ u : State, (forgetGranted k u).strand k = u.strand k := fun u => by simp only [State.strand, (hf u).1]
  have hun : ∀ u : State, (forgetGranted k u).unit k = u.unit k := fun u => by simp only [State.unit, (hf u).2.1]
  unfold enterOffline
  refine ⟨?_, ?_⟩
  · refine stopped_of (u := (abandon k s).unit k) (c := { (s.strand k).settle with condition := .offline .service })
      ?_ ?_ ?_ ?_ ?_ ?_
    · simp only [State.isConfigured, reportSettled_configured, (hf _).2.2.2.2, modStrand_configuredCount,
        updUnit_configuredCount]
      have := isConfigured_of_outside ho.1 k
      simp only [State.isConfigured] at this hk
      rw [this, hk]
    · rw [reportSettled_strand, hstr, modStrand_strand_same]
      simp only [State.strand, updUnit_strands]
      simp only [State.strand] at hc
      rw [hc]
      rfl
    · rfl
    · rfl
    · rw [reportSettled_unit, hun]
      simp only [State.unit, modStrand_units]
      have := updUnit_unit_same k (abandon k s) (UnitState.rest false zeroZones)
      simp only [State.unit] at this
      rw [this]
      rfl
    · simpa [Withdrawn, reportSettled_pools, (hf _).2.2.1, (hf _).2.2.2.1] using hw
  · rw [pend_strand, reportSettled_strand, hstr, modStrand_strand_same]
    simp only [State.strand, updUnit_strands]
    simp only [State.strand] at hc
    rw [hc]
    rfl

end Sys2Proof.Machine
end

