-- ==== Sys2Proof/Laws/Step.lean ====
section
/-! SUPPORT. A command always completes, and the shape of one step: what every command and every millisecond keep, every step
keeps. -/

namespace Sys2Proof.Machine

/-- Every command ends in a next state. -/
theorem exec_next (i : Instr) (s : State) : ∃ t, exec i s = .next t := by
  cases i <;>
    first
    | exact ⟨_, rfl⟩
    | (simp only [exec, execFilterSample, execDepthSampleOpenStep, execSpeedReferenceSample, execWeightSample,
        execStepTimerExpiry]
       repeat' split
       all_goals exact ⟨_, rfl⟩)

/-- The events that still wait after one is taken, and the choices made. -/
theorem nextEvent_state (s : State) :
    ∃ l n, (nextEvent s).2 = { s with inFlight := l, choices := n } := by
  unfold nextEvent
  dsimp only
  split
  · exact ⟨s.inFlight, s.choices, rfl⟩
  · next i _ =>
    refine ⟨s.inFlight.eraseIdx i, (freeIndex (headPlaces [] 0 s.inFlight).length s).2.choices, ?_⟩
    simp

/-- The state a step without a command reaches: a millisecond's, or an event's, or that of an event passed over. -/
theorem idle_cases (s : State) :
    (∃ l n, (idle s).2 = { s with inFlight := l, choices := n }) ∨ idle s = (none, tick s) := by
  obtain ⟨l, n, h⟩ := nextEvent_state s
  unfold idle
  split
  · next e t he =>
    rw [he] at h
    dsimp only at h
    left
    refine ⟨l, n, ?_⟩
    split <;> exact h
  · exact Or.inr rfl

/-- What every command keeps, a millisecond keeps, and neither queue nor choice number matters to, every step keeps. -/
theorem step_keeps {P : State → Prop} (hexec : ∀ i s t, P s → exec i s = .next t → P t)
    (hq : ∀ s l m n, P s → P { s with pending := l, inFlight := m, choices := n }) (htick : ∀ s, P s → P (tick s))
    (s t : State) (hs : P s) (h : step s = .next t) : P t := by
  unfold step at h
  split at h
  · next c rest _ => exact hexec c _ t (hq s rest s.inFlight s.choices hs) h
  · unfold idleStep at h
    rcases idle_cases s with ⟨l, n, hi⟩ | hi
    · split at h
      · next e u he =>
        rw [he] at hi
        dsimp only at hi
        subst hi
        exact hexec e _ t (hq s s.pending l n hs) h
      · next u he =>
        rw [he] at hi
        dsimp only at hi
        subst hi
        injection h with h
        subst h
        exact hq s s.pending l n hs
    · rw [hi] at h
      injection h with h
      subst h
      exact htick s hs

end Sys2Proof.Machine
end

