-- ==== Sys2Proof/Tests/Slice0.lean ====
section
/-! SUPPORT. Small tests: the ill-formed commands the check refuses, single commands on small states, the manual's own
examples, and, for every statement with hypotheses, states and operands that meet them (`witness_…`). -/

namespace Sys2Proof.Tests

set_option Elab.async false

open Sys2Proof.Machine

/-! ### Small states -/

/-- A strand out of its start-up check, DRY. -/
def dryStrand : StrandContext := { StrandContext.initial true with check := .done }

/-- A strand in the condition `c`, with steel where `steel`. -/
def strandIn (c : Condition) (steel : Bool) : StrandContext := { dryStrand with condition := c, steel := steel }

/-- A HELD strand with the three flags, its hold timer at 1 s. -/
def heldStrand (tundish dip operator : Bool) : StrandContext :=
  { strandIn .held true with
    heldForTundish := tundish, heldForDip := dip, heldByOperator := operator, holdTimer := ⟨1000, true⟩ }

/-- The part with every start-up check done, the supply there and nothing at the pools. -/
def ready : State :=
  { State.started Config.defaultSettings false (.holds Config.defaultSettings true) PortInputs.initial with
    strands := Tab.all 8 dryStrand
    supply := ⟨.supplied, .done, none, none, none, none, none⟩
    drive := Pool.initial true }

/-- `s` with strand `k`'s context `c`. -/
def put (k : Strand) (c : StrandContext) (s : State) : State := { s with strands := s.strands.put k c }

/-- Plan 0 of section 2.8. -/
def planCold : Plan :=
  ⟨[0x42, 0x49, 0x4C, 0x31, 0x35, 0x30, 0x20, 0x43, 0x4F, 0x4C, 0x44], .cold,
    [⟨.check ⟨true, true, true, true⟩, 600⟩, ⟨.cool ⟨40, 35, 30, 25⟩, 10⟩, ⟨.opening 60 90 2 30, 600⟩,
      ⟨.level (.plan ⟨80, 5, 10, 10, 20⟩), 300⟩, ⟨.draw 30 120 20, 300⟩, ⟨.wait, 50⟩, ⟨.handover, 300⟩]⟩

/-- Plan 1 of section 2.8. -/
def planFly : Plan :=
  ⟨[0x42, 0x49, 0x4C, 0x31, 0x35, 0x30, 0x20, 0x46, 0x4C, 0x59], .flying,
    [⟨.check ⟨true, false, true, false⟩, 100⟩, ⟨.opening 40 100 3 20, 300⟩, ⟨.level .strand, 200⟩,
      ⟨.draw 50 150 25, 200⟩, ⟨.handover, 300⟩]⟩

/-- Plan 2 of section 2.8. -/
def planDip : Plan :=
  ⟨[0x42, 0x49, 0x4C, 0x31, 0x35, 0x30, 0x20, 0x44, 0x49, 0x50], .dip,
    [⟨.check ⟨true, false, true, false⟩, 100⟩, ⟨.drive, 150⟩, ⟨.opening 40 100 3 20, 300⟩, ⟨.level .strand, 200⟩,
      ⟨.draw 50 150 25, 200⟩, ⟨.handover, 300⟩]⟩

/-- A restart record on `p` at step `i` in the phase `ph`. -/
def recordOf (p : Plan) (i : Nat) (ph : Phase) : RestartRecord :=
  ⟨0, p.kind, 0, ⟨p, false⟩, i, none, ph, some 5000, none, none⟩

/-- `ready` with strand `k` RESTARTING by `r`. -/
def restarting (k : Strand) (r : RestartRecord) (steel : Bool) : State := put k (strandIn (.restarting r) steel) ready

/-- `s` with strand `k` a holder of the pool `p`, its response state `r`. -/
def holding (p : PoolId) (k : Strand) (r : Response) (s : State) : State :=
  modPool p (fun x => { x with holders := x.holders.put k (some ⟨0, false, r⟩) }) s

/-- A line accepted at `b`. -/
def line (b : Bool) : Line := ⟨some b, some b, 3, .ok⟩

/-- `s` with strand `k`'s permissive and steel lines at the levels given. -/
def withLines (k : Strand) (driveReady dummy steel water : Bool) (s : State) : State :=
  { s with strandLines := s.strandLines.put k ⟨line false, line driveReady, line dummy, line steel, line water⟩ }

/-- `ready` with the Coordinator in the state `c` and the pool open as it asks. -/
def tundishIn (c : CoordinatorState) (s : State) : State :=
  { s with
    coordinator := { s.coordinator with state := c }
    pour := { s.pour with isOpen := c == .steady || c == .releasing } }

/-- The state a command ends in. -/
def after (i : Instr) (s : State) : State :=
  match exec i s with
  | .next t => t
  | .fault _ | .refused _ => s

/-- The state an outcome goes on in. -/
def next? : Host.Outcome State Fault Refusal → Option State
  | .next t => some t
  | .fault _ | .refused _ => none

/-- The plan a record spells. -/
def planOf (p : RawPlan) : Option Plan :=
  match readPlan p with
  | .ok q => some q
  | .error _ => none

/-- The step index and the reason a record is refused with. -/
def faultOf (p : RawPlan) : Option (Nat × PlanFault) :=
  match readPlan p with
  | .ok _ => none
  | .error e => some e

/-- The body of the last frame on its way to the host. -/
def answer? (i : Instr) (s : State) : Option (List Byte) := (after i s).outgoing.getLast?.map (·.body)

/-! ### Ill-formed commands are refused -/

/-- A raw plan of a name of `n` bytes and `m` steps. -/
def rawPlan (n m : Nat) : RawPlan := ⟨List.replicate n 0x41, 1, List.replicate m ⟨3, 1, Tab.all 9 0⟩⟩

theorem test_planWrite_wellFormed : (Instr.planWrite 0 0 (rawPlan 12 24)).wellFormed = true := by decide +kernel

theorem test_planWrite_name_256 : (Instr.planWrite 0 0 (rawPlan 256 0)).wellFormed = false := by decide +kernel

theorem test_planWrite_steps_256 : (Instr.planWrite 0 0 (rawPlan 0 256)).wellFormed = false := by decide +kernel

theorem test_planWrite_body_401 :
    (Instr.planWrite 0 0 (rawPlan 0 33)).wellFormed = true ∧ (Instr.planWrite 0 0 (rawPlan 1 33)).wellFormed = false := by
  decide +kernel

theorem test_arbiterWrite_other :
    (Instr.arbiterWrite 0 (.other 1)).wellFormed = false ∧ (Instr.arbiterWrite 0 (.other 2)).wellFormed = false ∧
      (Instr.arbiterWrite 0 (.other 3)).wellFormed = true := by decide

theorem test_depthSample_range :
    (Instr.depthSampleUnit 0 (.valid 301)).wellFormed = false ∧
      (Instr.depthSampleOpenStep 0 (.valid 301)).wellFormed = false ∧
      (Instr.depthSampleUnit 0 (.valid 300)).wellFormed = true := by decide

theorem test_speedSample_range :
    (Instr.speedReferenceSample 0 (.valid 601)).wellFormed = false ∧
      (Instr.speedReferenceSample 0 (.valid 600)).wellFormed = true := by decide

theorem test_weightSample_range :
    (Instr.weightSample (.valid 801)).wellFormed = false ∧ (Instr.weightSample (.valid 800)).wellFormed = true := by decide

theorem test_failureClaim_timeout :
    (Instr.stepFailureClaim 0 ⟨0, .stepTimeout .wait⟩).wellFormed = false ∧
      (Instr.stepFailureClaim 0 ⟨0, .stepTimeout .drive⟩).wellFormed = true := by decide

theorem test_failureClaim_attempts :
    (Instr.stepFailureClaim 0 ⟨0, .noFlow 0⟩).wellFormed = false ∧
      (Instr.stepFailureClaim 0 ⟨0, .noFlow 5⟩).wellFormed = false ∧
      (Instr.stepFailureClaim 0 ⟨0, .noFlow 4⟩).wellFormed = true := by decide

/-! ### The link -/

/-- The table gives its rows no bits, so no word spells a command. -/
theorem test_decodeTableWord_none : decodeTableWord 8 0xA7 = none ∧ State.reset.withFetchWord 8 0xA7 = State.reset :=
  ⟨rfl, rfl⟩

/-- The published check value of the CRC with these parameters: the nine digits 1 to 9 give 0x29B1. -/
theorem test_crc_check : crc [0x31, 0x32, 0x33, 0x34, 0x35, 0x36, 0x37, 0x38, 0x39] = 0x29B1 := by decide +kernel

/-- A STATUS frame sent byte by byte is answered as the command is. -/
theorem test_status_frame :
    next? (runAll ((Frame.wire ⟨0x11, 0x01, []⟩).map .receivedByte) ready) = next? (exec (.status 0x11) ready) := by
  decide +kernel

/-- A frame with a wrong CRC is discarded (R185). -/
theorem test_bad_crc : assemble [0, 0, 0x11, 1, 0, 0] = .discarded := by decide +kernel

/-- A body length of 401 is discarded as soon as both length bytes are in; 400 is not (R185). -/
theorem test_length_401 : assemble [0x91, 0x01] = .discarded ∧ assemble [0x90, 0x01] = .partialFrame := by decide +kernel

/-- An unknown kind (R187). -/
theorem test_unknown_kind : (receivedRequest 0x22 [] ready).2 = [0x02] ∧ (receivedRequest 0x00 [] ready).2 = [0x02] := by
  decide +kernel

/-- A wrong body length (R187). -/
theorem test_bad_length : (receivedRequest 0x01 [0] ready).2 = [0x03] ∧ (receivedRequest 0x07 [] ready).2 = [0x03] := by
  decide +kernel

/-- After reset a START finds the start-up check pending (R22). -/
theorem test_start_pending : answer? (.start 7 1) State.reset = some [0x01] := by decide +kernel

/-! ### The manual's example plans (section 2.8) -/

/-- The three plans pass validation, and are read from their records as they stand. -/
theorem test_plans_valid :
    planOf (rawPlanOf planCold) = some planCold ∧ planOf (rawPlanOf planFly) = some planFly ∧
      planOf (rawPlanOf planDip) = some planDip := by decide +kernel

/-- `p` with its steps replaced. -/
def withSteps (p : Plan) (l : List Step) : RawPlan := rawPlanOf { p with steps := l }

/-- The first four refused variants: COLD_CHECK 3, DIP_DRIVE 2, LEVEL_AFTER_OPEN 3, PARAM 3. -/
theorem test_variants_a :
    faultOf (withSteps planCold (planCold.steps.set 0 ⟨.check ⟨true, false, true, true⟩, 600⟩)) = some (3, .coldCheck) ∧
      faultOf (withSteps planDip [⟨.check ⟨true, false, true, false⟩, 100⟩, ⟨.opening 40 100 3 20, 300⟩,
        ⟨.level .strand, 200⟩, ⟨.drive, 150⟩, ⟨.draw 50 150 25, 200⟩, ⟨.handover, 300⟩]) = some (2, .dipDrive) ∧
      faultOf (withSteps planDip [⟨.check ⟨true, false, true, false⟩, 100⟩, ⟨.opening 40 100 3 20, 300⟩, ⟨.drive, 150⟩,
        ⟨.level .strand, 200⟩, ⟨.draw 50 150 25, 200⟩, ⟨.handover, 300⟩]) = some (3, .levelAfterOpen) ∧
      (let raw := rawPlanOf planFly
       faultOf { raw with steps := raw.steps.set 2 ⟨5, 200, #v[1, 90, 0, 0, 0, 0, 0, 0, 0]⟩ }) = some (3, .param) := by
  decide +kernel

/-- The last three refused variants: TIME 6, HANDOVER 5, NAME 0. -/
theorem test_variants_b :
    faultOf (withSteps planFly (planFly.steps ++ [⟨.wait, 0⟩])) = some (6, .time) ∧
      faultOf (withSteps planFly [⟨.check ⟨true, false, true, false⟩, 100⟩, ⟨.opening 40 100 3 20, 300⟩,
        ⟨.level .strand, 200⟩, ⟨.draw 50 150 25, 200⟩, ⟨.handover, 300⟩, ⟨.handover, 300⟩]) = some (5, .handover) ∧
      faultOf (rawPlanOf { planCold with name := List.replicate 14 0x42 }) = some (0, .name) := by decide +kernel

/-! ### The manual's example lookups (section 2.9) -/

/-- The Plan Store and the Grade Map of section 2.9, strand `k` with the grade code `g`. -/
def mapped (k : Strand) (g : Nat) : Settings :=
  let d := Config.defaultSettings
  let all : StrandSet := Tab.all 8 true
  { d with
    strands := d.strands.put k { Config.defaultStrand with grade := g }
    plans := ((((d.plans.put 0 (some planCold)).put 1 (some planFly)).put 2 (some planDip)).put 8 (some planCold)).put 9
      (some planFly)
    windows := (((d.windows.put 0 ⟨true, 4096, 8, #v[true, true, true, true, false, false, false, false], some 0, some 1,
      some 2⟩).put 1 ⟨true, 4096, 12, all, some 8, some 9, none⟩).put 2 ⟨false, 8192, 10, all, some 8, some 9,
      some 2⟩).put 3 ⟨true, 4352, 8, all, some 3, some 1, some 2⟩ }

/-- The plan number a lookup gives. -/
def found (k : Strand) (g : Nat) (kind : RestartKind) : Option (Fin 32) := (lookupPlan (mapped k g) k kind).map (·.1)

theorem test_lookups :
    found 1 4200 .cold = some 0 ∧ found 5 4200 .cold = some 8 ∧ found 5 4400 .dip = none ∧ found 2 4400 .flying = some 9 ∧
      found 6 9000 .flying = none ∧ found 3 4100 .dip = some 2 := by decide +kernel

/-- Base 8192 enables window 2; base 8200 is no multiple of 1024 (R43). -/
theorem test_mapWrite_base :
    answer? (.mapWrite 0 ⟨2, 1, 8192, 10, 0xFF, 8, 9, 2⟩) ready = some [0x00] ∧
      answer? (.mapWrite 0 ⟨2, 1, 8200, 10, 0xFF, 8, 9, 2⟩) ready = some [0x03] := by decide +kernel

/-! ### Single commands -/

/-- A COLD restart whose CHECK passes at once does its COOL step and takes the POUR slot in the same action (R53, R65). -/
theorem test_start_runs_on :
    (let s := { withLines 0 true true false true { ready with working := mapped 0 4200 } with
       casterLines := { CasterLines.initial with hydOk := line true } }
     let t := after (.start 9 1) s
     (t.record? 0).map (fun r => (r.stepIndex, r.phase, r.phaseTimer, r.attempt)) = some (3, .preCharge, some 3000, some 1) ∧
       t.pour.holds 0 = true ∧ t.lastGranted = some 0 ∧ (t.unit 0).cooling = ⟨40, 35, 30, 25⟩) := by decide +kernel

/-- The outage is a difference of time stamps modulo 2 to the power of 32 (R150). -/
theorem test_outage_wraps :
    (after (.supplyOkRise 5) { ready with
      supply := ⟨.riding, .done, some 3, none, some 0xFFFFFFFB, none, none⟩, drive := Pool.initial false }).supply.lastOutage
      = some 10 := by decide +kernel

/-- A breakout at a CASTING strand (R18). -/
theorem test_breakout :
    (let t := after (.breakoutAlarmRise 0)
       { ready with strands := ready.strands.put 0 (strandIn .casting true) }
     (t.strand 0).condition = .halted .breakout ∧ t.outputs 0 = ⟨.opening 0, false, true, false, 0, ⟨100, 100, 100, 100⟩⟩ ∧
       (t.faults.look 0).map (·.condition) = some .casting) := by decide +kernel

/-- STATUS answers 48 bytes. -/
theorem test_status_length : (answer? (.status 1) State.reset).map (·.length) = some 48 := by decide +kernel

/-! ### Hypotheses that are met -/

/-- The reply queue has a place and strand `k` is in service. -/
def served (s : State) (k : Strand) : Prop := s.queueFree ∧ s.inService k = true

/-- And the slots' law holds. -/
def calm (s : State) (k : Strand) : Prop := served s k ∧ slotLaw s = true

/-- `ready` with strand 0 in the condition `c`. -/
def zero (c : Condition) (steel : Bool) : State := put 0 (strandIn c steel) ready

/-- `ready` with strand 0's step `i` of plan 0 in the phase `ph`. -/
def atStep (i : Nat) (ph : Phase) : State := restarting 0 (recordOf planCold i ph) true

/-- `ready` with strand 0's DRIVE step of plan 2 in the phase `ph`, holding its slot, the response state `r`. -/
def atDrive (ph : Phase) (r : Response) : State := holding .drive 0 r (restarting 0 (recordOf planDip 2 ph) true)

/-- `ready` with strand 0's OPEN step of plan 0 at the attempt `a` in the phase `ph`, holding its slot, the response state
`r`. -/
def atOpen (a : Nat) (ph : Phase) (ref : Option Nat) (r : Response) : State :=
  holding .pour 0 r (restarting 0 { recordOf planCold 3 ph with attempt := some a, riseReference := ref } true)

/-- A record fault. -/
def someFault : FaultRecord := ⟨.abort, .casting, none, none, 3, 0, false⟩

/-- `s` with strand 0's fault record valid. -/
def faulted (s : State) : State := { s with faults := s.faults.put 0 (some someFault) }

/-- `s` with strand 0's unit changed. -/
def unitOf (f : UnitState → UnitState) (s : State) : State := { s with units := s.units.put 0 (f (s.unit 0)) }

theorem witness_IdleStepTakesEventOrMillisecond :
    ready.pending = [] ∧ ready.inFlight = [] ∧
      (let t := { ready with inFlight := [.tcRequestRise] }
       t.pending = [] ∧ t.inFlight = [.tcRequestRise] ∧ stillDue t .tcRequestRise = true) ∧
      (let t := { ready with inFlight := [.settleExpiry] }
       t.pending = [] ∧ t.inFlight = [.settleExpiry] ∧ stillDue t .settleExpiry = false) ∧
      (let t := { ready with inFlight := [.depthSampleUnit 0 (.valid 3), .weightSample .invalid] }
       t.pending = [] ∧ t.inFlight ≠ []) := by decide +kernel

/-- What a millisecond sends: the filter's instants, a step timer, a response timer, and the TRIP sample. -/
theorem test_tick_sends :
    (let s := holding .drive 0 (.running 1) (restarting 0 { recordOf planDip 2 .starting with stepTimer := some 1 } true)
     (tick { s with instants := ⟨1, 2, 3⟩ }).inFlight =
       [.stepTimerExpiry 0, .driveResponseExpiry 0, .filterSample (.classA s.port.classA), .tripSample s.port.trip]) := by
  decide +kernel

theorem witness_StoreAndResetKeepTheImage :
    settingsInRange Config.defaultSettings = true ∧
      settingsInRange { Config.defaultSettings with caster := { Config.defaultCaster with settle := 31 } } = false ∧
      { ready with storeState := .writing Config.defaultSettings }.storeState = .writing Config.defaultSettings ∧
      { ready with storeState := .writing Config.defaultSettings }.queueFree ∧
      ready.storeState = .idle ∧ { ready with storeState := .failed }.storeState = .failed ∧ ready.queueFree := by
  unfold State.queueFree
  decide +kernel

/-- A frame of kind `kind` with `body` but for its last byte, in the receiver; the state, and the last byte. -/
def almost (kind : Byte) (body : List Byte) : State × Byte :=
  let w := (Frame.wire ⟨0x11, kind, body⟩).drop 1
  ({ ready with receiver := .assembling w.dropLast 5 }, w.getLast?.getD 0)

/-- The bytes in the receiver. -/
def received (s : State) : List Byte :=
  match s.receiver with
  | .assembling l _ => l
  | .hunting => []

theorem witness_ReceiverAssembles :
    ready.receiver = .hunting ∧ (0x00 : Byte) ≠ 0xA7 ∧
      { ready with receiver := .assembling [] 5 }.receiver = .assembling [] 5 ∧
      assemble ([] ++ [0x00]) = .partialFrame ∧ assemble ([0x91] ++ [0x01]) = .discarded ∧
      400 < (half 0x91 0x01).toNat ∧ (List.replicate 400 (0 : Byte)).length ≤ 400 ∧
      (let x := almost 0x22 []
       assemble (received x.1 ++ [x.2]) = .complete 0x11 0x22 [] ∧ 0x21 < (0x22 : Byte).toNat ∧ x.1.queueFree ∧
         4 ≤ { x.1 with replies := List.replicate 4 ⟨0, 0x81, [0]⟩ }.replies.length) ∧
      (let x := almost 0x00 []
       assemble (received x.1 ++ [x.2]) = .complete 0x11 0x00 [] ∧ x.1.queueFree) ∧
      (let x := almost 0x1F [0]
       assemble (received x.1 ++ [x.2]) = .complete 0x11 0x1F [0] ∧ x.1.queueFree ∧
         requiredLength? 0x1F = some 29 ∧ [(0 : Byte)].length ≠ 29) := by
  unfold State.queueFree
  decide +kernel

/-- A whole frame of `kind` with `body` is in, and the reply queue has a place. -/
def whole (kind : Byte) (body : List Byte) : Prop :=
  let x := almost kind body
  assemble (received x.1 ++ [x.2]) = .complete 0x11 kind body ∧ x.1.queueFree

theorem witness_ReceiverAssembles_lengths :
    (whole 0x0F [0, 0, 1] ∧ [(0 : Byte), 0, 1].length < 4) ∧
      (let body : List Byte := [0, 1, 0x41, 1, 1]
       whole 0x0F body ∧ body[1]?.map (·.toNat) = some 1 ∧
         ∀ c, body[3 + 1]?.map (·.toNat) = some c → body.length ≠ 4 + 1 + 12 * c) ∧
      (let body : List Byte := [1, 0, 0, 0, 0, 0]
       whole 0x18 body ∧ (body.head? = some 1 → body.length ≠ 9) ∧ (body.head? = some 2 → body.length ≠ 6)) ∧
      (let body : List Byte := [2, 0, 0, 0, 0, 0, 0, 0, 0]
       whole 0x18 body ∧ (body.head? = some 1 → body.length ≠ 9) ∧ (body.head? = some 2 → body.length ≠ 6)) ∧
      (whole 0x18 [] ∧ ([] : List Byte).head? ≠ some 1 ∧ ([] : List Byte).head? ≠ some 2) := by
  refine ⟨?_, ⟨?_, rfl, fun c hc => ?_⟩, ?_, ?_, ?_⟩
  · unfold whole State.queueFree; decide +kernel
  · unfold whole State.queueFree; decide +kernel
  · simp only [List.getElem?_cons_succ, List.getElem?_cons_zero, Option.map_some, Option.some.injEq] at hc
    subst hc
    decide
  · unfold whole State.queueFree; decide +kernel
  · unfold whole State.queueFree; decide +kernel
  · unfold whole State.queueFree; decide +kernel

theorem witness_RequestFrameIsTheCommand :
    requestFrame? (.planWrite 1 0 (rawPlanOf planCold)) = some ⟨1, 0x0F, rawPlanBytes 0 (rawPlanOf planCold)⟩ ∧
      (Instr.planWrite 1 0 (rawPlanOf planCold)).wellFormed = true ∧ ready.receiver = .hunting := by decide +kernel

theorem witness_RequestIsAnsweredOnce :
    requestFrame? (.noticeClear 1 0) = some ⟨1, 0x21, [0, 0, 0, 0]⟩ ∧ ready.queueFree ∧
      4 ≤ { ready with replies := List.replicate 4 ⟨0, 0x81, [0]⟩ }.replies.length := by
  unfold State.queueFree
  decide +kernel

theorem witness_StrandNumbersAreChecked :
    (∀ b : Byte, requestFrame? (.start 1 b) = some ⟨1, 0x07, [b]⟩ ∧ namedStrand? (.start 1 b) = some (b, false)) ∧
      ready.queueFree ∧ (9 : Byte) ≠ 0 ∧ ready.configuredCount < (9 : Byte).toNat ∧
      ((zero (.offline .service) false).queueFree ∧ nameByte 0 = 1 ∧
        (zero (.offline .service) false).isConfigured 0 = true ∧
        ((zero (.offline .service) false).strand 0).condition.isOffline = true) := by
  unfold State.queueFree
  exact ⟨fun _ => ⟨rfl, rfl⟩, by decide +kernel⟩

theorem witness_ReadsReport :
    ready.queueFree ∧ ready.isConfigured 7 = true ∧ ready.record? 7 = none ∧ settingsLaw ready = true := by
  unfold State.queueFree
  decide +kernel

theorem witness_SettingsWriteStores :
    ready.queueFree ∧ casterInRange (readCasterBody ⟨8, 1, 800, 20, 0, 1, 16, 10⟩) = true ∧
      casterInRange (readCasterBody ⟨8, 800, 0, 1000, 30, 16, 1, 200⟩) = true ∧
      casterInRange (readCasterBody ⟨9, 200, 80, 200, 5, 1, 8, 50⟩) = false := by
  unfold State.queueFree
  decide +kernel

/-- The body of STRAND SETTINGS at the defaults, with the freeze limit `f` and the classes `c`. -/
def strandBody (f : Half) (c : Byte) (lockBand : Byte) : StrandBody :=
  ⟨0, c, c, f, #v[15, 15, 15, 15], #v[100, 100, 100, 100], 80, lockBand, 10, 10, 20⟩

/-- The settings and the level set a body spells. -/
def spelled (f : Nat) (c : PoolClass) (lockBand : Nat) : StrandSettings × LevelParams :=
  (⟨0, c, c, f, ⟨15, 15, 15, 15⟩, ⟨100, 100, 100, 100⟩⟩, ⟨80, lockBand, 10, 10, 20⟩)

theorem witness_StrandSettingsStores :
    served ready 0 ∧ readStrandBody (strandBody 29 0 5) = none ∧
      readStrandBody (strandBody 30 1 5) = some (spelled 30 .high 5) ∧
      (let t := holding .pour 1 .idle ready
       served t 0 ∧ (spelled 30 .high 5).1.pourClass ≠ (t.settingsOf 0).pourClass ∧ t.pour.inUse = true) ∧
      (let t := holding .drive 1 .off ready
       served t 0 ∧ (spelled 30 .high 5).1.driveClass ≠ (t.settingsOf 0).driveClass ∧ t.drive.inUse = true) ∧
      (let t := unitOf UnitState.turnLevelOn ready
       served t 0 ∧ classBusy 0 (spelled 1200 .low 6).1 t = false ∧
         readStrandBody (strandBody 1200 0 6) = some (spelled 1200 .low 6) ∧ (spelled 1200 .low 6).2 ≠ t.levelSet 0 ∧
         (t.unit 0).levelOn = true) ∧
      (let t := put 0 (heldStrand true false false) ready
       served t 0 ∧ classBusy 0 (spelled 30 .high 5).1 t = false ∧ (spelled 30 .high 5).2 = t.levelSet 0 ∧
         (t.strand 0).holdTimer.elapsed < (spelled 30 .high 5).1.freezeLimit * 1000) := by
  unfold served State.queueFree
  decide +kernel

/-- `s` with bank 0 write-protected. -/
def guarded (s : State) : State :=
  { s with working := { s.working with banks := s.working.banks.put 0 ⟨true, false⟩ } }

theorem witness_PlansAndBanksAreWritten :
    ready.queueFree ∧ (guarded ready).queueFree ∧ 31 < (32 : Byte).toNat ∧ (31 : Byte).toNat = (31 : Fin 32).val ∧
      ((guarded ready).working.banks.look (bankOf 7)).write = true ∧
      (ready.working.banks.look (bankOf 31)).write = false ∧ 15 < (16 : Byte).toNat ∧ (15 : Byte).toNat ≤ 15 ∧
      ready.casterLines.maint.accepted ≠ some true ∧
      { ready with casterLines := { ready.casterLines with maint := line true } }.casterLines.maint.accepted = some true ∧
      { ready with casterLines := { ready.casterLines with maint := line true } }.queueFree := by
  unfold State.queueFree
  decide +kernel

theorem witness_AcceptedPlanIsSound : readPlan (rawPlanOf planCold) = .ok planCold := rfl

/-- A well-named record of kind COLD. -/
def named (steps : List RawStep) : RawPlan := ⟨[0x20, 0x7E], 1, steps⟩

/-- A step record of WAIT. -/
def rawWait : RawStep := ⟨6, 36000, Tab.all 9 0⟩

theorem witness_AcceptedPlanIsSound_fields :
    readKind (named []).kind = some .cold ∧ (named []).steps.length = 0 ∧
      24 < (named (List.replicate 25 rawWait)).steps.length ∧ ¬ (1 ≤ ([] : List Byte).length) ∧
      3 < (4 : Byte).toNat ∧
      (named [rawWait, { rawWait with action := 9 }]).steps[1]? = some { rawWait with action := 9 } ∧
      ¬ ((9 : Byte).toNat ≤ 8) ∧
      (named [rawWait, { rawWait with time := 36001 }]).steps[1]? = some { rawWait with time := 36001 } ∧
      ¬ ((36001 : Half).toNat ≤ 36000) ∧
      (named [rawWait, { rawWait with action := 1 }]).steps[1]? = some { rawWait with action := 1 } := by decide +kernel

theorem witness_AcceptedPlanIsSound_before (x : RawStep) :
    (∀ j y, j < 1 → (named [rawWait, x]).steps[j]? = some y → ∃ q, readStep y = .ok q) ∧
      readAction { rawWait with action := 1 } = .error .param := by
  refine ⟨fun j y hj hy => ?_, rfl⟩
  obtain rfl : j = 0 := by omega
  obtain rfl : rawWait = y := Option.some.inj hy
  exact ⟨⟨.wait, 36000⟩, rfl⟩

/-- The steps of `p` but for the step of index `i`. -/
def without (p : Plan) (i : Nat) : Plan := { p with steps := p.steps.eraseIdx i }

/-- The plan's record reads as its steps, and one step alone, of index `o`, is OPEN. -/
def readsWithOpen (p : Plan) (o : Nat) : Prop :=
  readSteps 1 (rawPlanOf p).steps = .ok p.steps ∧ actionAt p o isOpenAction = true ∧
    ∀ i, i ≠ o → actionAt p i isOpenAction = false

/-- And a LEVEL step follows it. -/
def readsWithLevel (p : Plan) (o : Nat) : Prop := readsWithOpen p o ∧ actionAt p (o + 1) isLevelAction = true

theorem readsWithOpen_of (p : Plan) (o : Nat) (h : readSteps 1 (rawPlanOf p).steps = .ok p.steps)
    (ho : actionAt p o isOpenAction = true)
    (hn : ∀ i, i < p.steps.length → i ≠ o → actionAt p i isOpenAction = false) : readsWithOpen p o :=
  ⟨h, ho, actionAt_only p _ o hn⟩

theorem witness_AcceptedPlanIsSound_open :
    (readSteps 1 (rawPlanOf (without planCold 2)).steps = .ok (without planCold 2).steps ∧
        ∀ i, actionAt (without planCold 2) i isOpenAction = false) ∧
      (let p := { planFly with steps := planFly.steps ++ [⟨.opening 5 0 1 1, 1⟩, ⟨.opening 5 0 1 1, 1⟩] }
       readSteps 1 (rawPlanOf p).steps = .ok p.steps ∧ actionAt p 1 isOpenAction = true ∧
         actionAt p 0 isOpenAction = false ∧ actionAt p 5 isOpenAction = true ∧
         ∀ i, 1 < i → i < 5 → actionAt p i isOpenAction = false) ∧
      (let p := { planFly with steps := planFly.steps.take 2 }
       readsWithOpen p 1 ∧ 1 + 1 = p.steps.length) ∧
      (readsWithOpen (without planFly 2) 1 ∧ actionAt (without planFly 2) 2 isLevelAction = false) := by
  refine ⟨⟨rfl, actionAt_none _ _ (by decide)⟩, ⟨rfl, rfl, rfl, rfl, fun i hi hj => ?_⟩,
    ⟨readsWithOpen_of _ _ rfl rfl (by decide), rfl⟩, readsWithOpen_of _ _ rfl rfl (by decide), rfl⟩
  obtain rfl | rfl | rfl : i = 2 ∨ i = 3 ∨ i = 4 := by omega
  all_goals rfl

theorem witness_AcceptedPlanIsSound_end :
    (readsWithLevel (without planFly 3) 1 ∧ ∀ i, actionAt (without planFly 3) i isDrawAction = false) ∧
      (readsWithLevel (without planFly 4) 1 ∧ actionAt (without planFly 4) 3 isDrawAction = true ∧
        ∀ i, actionAt (without planFly 4) i isHandoverAction = false) ∧
      (let p := { planFly with steps := planFly.steps ++ [⟨.wait, 1⟩] }
       readsWithLevel p 1 ∧ actionAt p 4 isHandoverAction = true ∧ 4 + 1 < p.steps.length) ∧
      (let p := { planFly with kind := .dip }
       readsWithLevel p 1 ∧ actionAt p 4 isHandoverAction = true ∧ actionAt p 0 isDriveAction = false) ∧
      (let p := { planFly with kind := .cold }
       readsWithLevel p 1 ∧ (∀ i, i ≠ 4 → actionAt p i isHandoverAction = false) ∧ actionAt p 0 checksDummy = false) :=
  ⟨⟨⟨readsWithOpen_of _ _ rfl rfl (by decide), rfl⟩, actionAt_none _ _ (by decide)⟩,
    ⟨⟨readsWithOpen_of _ _ rfl rfl (by decide), rfl⟩, rfl, actionAt_none _ _ (by decide)⟩,
    ⟨⟨readsWithOpen_of _ _ rfl rfl (by decide), rfl⟩, rfl, by decide⟩,
    ⟨⟨readsWithOpen_of _ _ rfl rfl (by decide), rfl⟩, rfl, rfl⟩,
    ⟨readsWithOpen_of _ _ rfl rfl (by decide), rfl⟩, actionAt_only _ _ _ (by decide), rfl⟩

theorem witness_PlanRecordReadsBack :
    planInRange planDip = true ∧ structureFault planDip.kind planDip.steps = none := by decide +kernel

theorem witness_MapWriteAndDisable :
    ready.queueFree ∧ 7 < (8 : Byte).toNat ∧ (7 : Byte).toNat = (7 : Fin 8).val ∧
      (12 : Byte).toNat ≤ 12 ∧ (0xF000 : Half).toNat % 2 ^ (12 : Byte).toNat = 0 ∧
      ¬ (0x1001 : Half).toNat % 2 ^ (12 : Byte).toNat = 0 ∧ (31 : Byte).toNat ≤ 31 := by
  unfold State.queueFree
  decide +kernel

theorem witness_ArbiterWriteStores :
    ready.queueFree ∧ readPour 4 1 8 20 3000 0 0 = none ∧ readDrive 5 1 5 1500 = none ∧
      readPour 3 0 60 100 10000 1 8 = some ⟨3, false, 60, 100, 10000, .selected, some 7⟩ ∧
      readDrive 4 1 30 5000 = some ⟨4, true, 30, 5000⟩ ∧ ready.pour.inUse = false ∧ ready.drive.inUse = false ∧
      (holding .pour 7 .idle ready).pour.inUse = true ∧ (holding .drive 7 .off ready).drive.inUse = true ∧
      (holding .pour 7 .idle ready).queueFree ∧ (holding .drive 7 .off ready).queueFree := by
  unfold State.queueFree
  decide +kernel

theorem witness_IncludeRemovesExclusion :
    served ready 7 ∧ (9 : Byte) ≠ 0 ∧ ready.configuredCount < (9 : Byte).toNat ∧ 3 < (4 : Byte).toNat ∧
      1 ≤ (3 : Byte).toNat ∧ (3 : Byte).toNat ≤ 3 ∧
      (let t := zero (.offline .service) false
       t.queueFree ∧ t.isConfigured 0 = true ∧ (t.strand 0).condition.isOffline = true) ∧
      (let t := { ready with pour := { ready.pour with excluded := StrandSet.none.put 7 true } }
       served t 7 ∧ t.pour.excluded.look 7 = true) := by
  unfold served State.queueFree
  decide +kernel

theorem witness_GrantChoiceServesFirst :
    (ready.pool .pour).waits = [] ∧ (State.reset.pool .drive).isOpen = false ∧
      capacity (holding .pour 1 .idle ready) .pour ≤ ((holding .pour 1 .idle ready).pool .pour).holderCount ∧
      (let t := joinWaits .pour 7 (atStep 3 .slotWait)
       (t.pool .pour).isOpen = true ∧ (t.pool .pour).holderCount < capacity t .pour ∧
         (t.pool .pour).waits = ⟨7, .low, 0⟩ :: [] ∧ t.phase 7 ≠ .slotWait) ∧
      (let t := joinWaits .pour 0 (atStep 3 .slotWait)
       (t.pool .pour).waits = ⟨0, .low, 0⟩ :: [] ∧ t.record? 0 = some (recordOf planCold 3 .slotWait) ∧
         t.action? 0 = some (.opening 60 90 2 30) ∧ t.phase 0 = .slotWait) ∧
      (let t := joinWaits .drive 0 (restarting 0 (recordOf planDip 2 .slotWait) true)
       (t.pool .drive).isOpen = true ∧ (t.pool .drive).waits = ⟨0, .low, 0⟩ :: [] ∧
         t.record? 0 = some (recordOf planDip 2 .slotWait)) ∧
      (let t := joinWaits .drive 7 (holding .drive 0 .off (atStep 3 .slotWait))
       (t.pool .drive).isOpen = true ∧ (t.pool .drive).holderCount < capacity t .drive ∧
         (t.pool .drive).waits = ⟨7, .low, 0⟩ :: []) := by decide +kernel

/-- A DRIVE grant to a drive that is ready and an inrush hold of 0: the hold's end is the grant's own task (R62). -/
theorem test_grant_to_ready_drive :
    (let s := withLines 0 true false false false
       (joinWaits .drive 0 (restarting 0 (recordOf planDip 2 .slotWait) true))
     (grantPass .drive { s with working := { s.working with drive := { s.working.drive with inrushHold := 0 } } }).2 =
       [.inrushEnd 0, .grantChoice .drive]) := by decide +kernel

theorem witness_CascadeBoundIsEnough : cascadeBound [.enterStep 0] (atStep 1 .noPhase) ≤ 50 := by decide +kernel

/-- `ready` with strand 0's lookups led to the three plans. -/
def led (s : State) : State := { s with working := mapped 0 4200 }

/-- START's code where the strand is the part's strand 0. -/
def startCode (s : State) : Option (List Byte) := answer? (.start 9 1) s

theorem witness_StartBeginsRestart :
    served (led ready) 0 ∧ lookupPlan (led ready).working 0 .cold = some (0, planCold) ∧
      ((led ready).strand 0).check = .done ∧ (led ready).trip.latched = false ∧
      ((led ready).strand 0).condition = .dry ∧ (led ready).faults.look 0 = none ∧
      ((led ready).pour.excluded.look 0 || (led ready).drive.excluded.look 0) = false ∧
      planCold.steps[0]? = some ⟨.check ⟨true, true, true, true⟩, 600⟩ ∧
      (atStep 7 .noPhase).record? 0 = some (recordOf planCold 7 .noPhase) ∧
      (recordOf planCold 7 .noPhase).step? = some ⟨.handover, 300⟩ ∧
      (recordOf planCold 1 .noPhase).step? = some ⟨.check ⟨true, true, true, true⟩, 600⟩ ∧
      maskEmpty (missingLines (led ready) 0 ⟨true, true, true, true⟩) = false ∧
      startCode (led ready) = some [0x00] ∧ startCode State.reset = some [0x01] ∧
      startCode { ready with trip := ⟨true, true, false⟩ } = some [0x0B] ∧
      startCode (zero .casting true) = some [0x04] ∧ startCode (faulted ready) = some [0x08] ∧
      startCode { ready with drive := { ready.drive with excluded := StrandSet.none.put 0 true } } = some [0x0D] ∧
      startCode ready = some [0x09] := by
  unfold served State.queueFree
  decide +kernel

theorem witness_AbortStops :
    calm ready 0 ∧ (ready.strand 0).condition.name = .dry ∧
      (calm (zero (.halted .trip) true) 0 ∧ ((zero (.halted .trip) true).strand 0).condition.name = .halted) ∧
      (calm (zero .casting true) 0 ∧ ((zero .casting true).strand 0).condition.name ≠ .dry ∧
        ((zero .casting true).strand 0).condition.name ≠ .halted) ∧
      (let t := tundishIn .releasing (atStep 4 .locking)
       calm { t with coordinator := { t.coordinator with releaseSet := StrandSet.none.put 0 true } } 0) := by
  unfold calm served State.queueFree
  decide +kernel

theorem witness_ResumeReleases :
    (let t := put 0 (heldStrand false false true) (led ready)
     served t 0 ∧ t.trip.latched = false ∧ (t.strand 0).condition = .held ∧ (t.strand 0).heldByOperator = true ∧
       (t.strand 0).heldForTundish = false ∧ (t.strand 0).heldForDip = false ∧
       lookupPlan t.working 0 .flying = some (1, planFly)) ∧
      (let t := put 0 (heldStrand false false true) ready
       served t 0 ∧ lookupPlan t.working 0 .flying = none) ∧
      (let t := put 0 (heldStrand true true true) ready
       served t 0 ∧ (t.strand 0).heldForTundish = true ∧ (t.strand 0).heldForDip = true) ∧
      (served ready 0 ∧ ready.trip.latched = false ∧ (ready.strand 0).condition ≠ .held) ∧
      (served { ready with trip := ⟨true, true, false⟩ } 0 ∧ { ready with trip := ⟨true, true, false⟩ }.trip.latched = true)
      := by
  unfold served State.queueFree
  decide +kernel

/-- The hypotheses of CLEAR STRAND and SERVICE. -/
def placed (s : State) (k : Strand) : Prop :=
  s.queueFree ∧ s.isConfigured k = true ∧ slotLaw s = true ∧ holdLaw s = true

theorem witness_ClearAndService :
    (placed (zero (.halted .abort) true) 0 ∧ (zero (.halted .abort) true).faults.look 0 = none ∧
        (zero (.halted .abort) true).steelPresent 0 = false) ∧
      (placed (faulted (zero (.halted .abort) true)) 0 ∧ (faulted (zero (.halted .abort) true)).faults.look 0 ≠ none) ∧
      (placed State.reset 0 ∧ (State.reset.strand 0).check = .pending) ∧
      (placed ready 0 ∧ (ready.strand 0).check = .done ∧ (ready.strand 0).condition.name = .dry) ∧
      (placed (zero .casting true) 0 ∧ ((zero .casting true).strand 0).condition = .casting) ∧
      (placed (zero (.offline .service) true) 0 ∧ ((zero (.offline .service) true).strand 0).condition.isOffline = true) ∧
      (let t := withLines 0 true false true true (zero (.offline .service) true)
       placed t 0 ∧ t.steelPresent 0 = true) ∧ (2 : Byte) ≠ 0 ∧ (2 : Byte) ≠ 1 := by
  unfold placed State.queueFree
  decide +kernel

/-- A CASTING strand 0 with LEVEL-ON on and DRAW engaged. -/
def casting : State :=
  unitOf (fun u => { u with levelOn := true, draw := true, stopper := .regulator, driveRun := true }) (zero .casting true)

theorem witness_StrandControlActs :
    served casting 0 ∧ (casting.strand 0).condition = .casting ∧ (casting.unit 0).levelOn = true ∧
      (casting.unit 0).draw = true ∧ (casting.levelSet 0).lockBand ≠ 0 ∧ (2 : Byte).toNat ≤ 2 ∧ ¬ (3 : Byte).toNat ≤ 2 ∧
      served ready 0 ∧ (ready.strand 0).condition ≠ .casting := by
  unfold served State.queueFree
  decide +kernel

theorem witness_FaultRecordIsWrittenAndCleared :
    (faulted ready).faults.look 0 = some someFault ∧ ready.faults.look 0 = none ∧ ready.isConfigured 0 = true ∧
      served (faulted ready) 0 ∧ served ready 0 ∧ (9 : Byte) ≠ 0 ∧ ready.configuredCount < (9 : Byte).toNat ∧
      (let t := zero (.offline .service) false
       t.queueFree ∧ t.isConfigured 0 = true ∧ (t.strand 0).condition.isOffline = true) := by
  unfold served State.queueFree
  decide +kernel

theorem witness_BreakoutAndSteelLevelsAct :
    (zero (.offline .service) false).inService 0 = false ∧
      (ready.inService 0 = true ∧ slotLaw ready = true) ∧
      ((zero (.halted .frozen) true).inService 0 = true ∧ slotLaw (zero (.halted .frozen) true) = true) ∧
      ((atStep 4 .locking).inService 0 = true ∧ slotLaw (atStep 4 .locking) = true) ∧
      (ready.strand 0).check = .done ∧
      (State.reset.isConfigured 0 = true ∧ (State.reset.strand 0).check = .pending ∧ slotLaw State.reset = true) := by
  decide +kernel

/-- `s` with the supply in the state `m`, its check done. -/
def supplyIn (m : SupplyState) (s : State) : State :=
  { s with
    supply := ⟨m, .done, if m = .riding then some 0 else none, if m = .settling then some 0 else none,
      if m = .supplied then none else some 7, if m = .settling then some 9 else none, none⟩
    drive := { s.drive with isOpen := m == .supplied } }

theorem witness_DriveReadyEdgesAct :
    (casting.inService 0 = true ∧ slotLaw casting = true ∧ casting.supply.state = .supplied) ∧
      (let t := unitOf UnitState.runDrive (atStep 4 .locking)
       t.inService 0 = true ∧ slotLaw t = true ∧ (t.strand 0).condition.name = .restarting ∧ t.action? 0 ≠ some .drive ∧
         (t.unit 0).driveRun = true) ∧
      (let t := unitOf UnitState.runDrive (put 0 (heldStrand true false false) ready)
       t.inService 0 = true ∧ slotLaw t = true ∧ (t.strand 0).condition = .held ∧ (t.unit 0).driveRun = true) ∧
      ((atDrive .inrush .answered).inService 0 = true ∧ slotLaw (atDrive .inrush .answered) = true ∧
        (atDrive .inrush .answered).action? 0 = some .drive ∧ (atDrive .inrush .answered).phase 0 = .inrush) ∧
      ((atDrive .starting (.running 0)).inService 0 = true ∧ slotLaw (atDrive .starting (.running 0)) = true ∧
        (atDrive .starting (.running 0)).action? 0 = some .drive ∧
        (atDrive .starting (.running 0)).phase 0 = .starting ∧
        (atDrive .starting (.running 0)).working.drive.inrushHold ≠ 0 ∧
        ((atDrive .starting (.running 0)).drive.grant? 0).map (·.response) = some (.running 0)) ∧
      (let t := atDrive .starting .off
       let u := { t with working := { t.working with drive := { t.working.drive with inrushHold := 0 } } }
       u.inService 0 = true ∧ slotLaw u = true ∧ u.phase 0 = .starting ∧ u.working.drive.inrushHold = 0) ∧
      ((supplyIn .riding ready).inService 0 = true ∧ (supplyIn .riding ready).supply.state ≠ .supplied) := by
  decide +kernel

theorem witness_HoldTimerFreezes :
    slotLaw ready = true ∧ (ready.strand 0).holdTimer.running = false ∧
      (let t := put 0 { heldStrand true false false with holdTimer := ⟨240000, true⟩ } ready
       slotLaw t = true ∧ (t.strand 0).holdTimer.running = true ∧ t.isConfigured 0 = true ∧
         (t.settingsOf 0).freezeLimit * 1000 ≤ (t.strand 0).holdTimer.elapsed ∧ t.faults.look 0 = none) ∧
      (let t := put 0 { heldStrand true false false with holdTimer := ⟨30000, true⟩ } ready
       calm t 0 ∧ readStrandBody (strandBody 30 0 5) = some (spelled 30 .low 5) ∧
         classBusy 0 (spelled 30 .low 5).1 t = false ∧ (spelled 30 .low 5).2 = t.levelSet 0 ∧
         (spelled 30 .low 5).1.freezeLimit ≠ (t.settingsOf 0).freezeLimit ∧
         (spelled 30 .low 5).1.freezeLimit * 1000 ≤ (t.strand 0).holdTimer.elapsed) := by
  unfold calm served State.queueFree
  decide +kernel

theorem witness_ClaimsEndTheRestart :
    ready.record? 0 = none ∧ ready.isConfigured 0 = true ∧
      (atStep 4 .locking).record? 0 = some (recordOf planCold 4 .locking) ∧
      (recordOf planCold 4 .locking).serial = 0 ∧ (recordOf planCold 4 .locking).serial ≠ 1 ∧
      (let t := atStep 7 .noPhase
       t.isConfigured 0 = true ∧ t.record? 0 = some (recordOf planCold 7 .noPhase) ∧ t.pour.holds 0 = false ∧
         t.drive.holds 0 = false ∧ (t.unit 0).ramp = none ∧ (t.unit 0).stopper = .closed) := by decide +kernel

/-- The hypotheses of the hold claims. -/
def claimed (s : State) (k : Strand) : Prop := slotLaw s = true ∧ unfittedLaw s = true ∧ s.isConfigured k = true

/-- Strand 0's HANDOVER completed by a sample of 118, its restart-complete claim under way. -/
def completed : State := after (.speedReferenceSample 0 (.valid 118)) (atStep 7 .referenceWait)

/-- A sample in REFERENCE_WAIT and then a hold claim, or the trip: the strand was CASTING in between (R124, log 29), as the hold
timer from 0 and the condition at the fault show; an ABORT still overtakes the claim (R17). -/
theorem test_sample_then_claim :
    completed.inFlight = [.restartCompleteClaim 0 0] ∧
      (let t := after .tcRequestRise completed
       (t.strand 0).condition = .held ∧ (t.strand 0).heldForTundish = true ∧ (t.strand 0).holdTimer = ⟨0, true⟩ ∧
         t.inFlight = []) ∧
      (let t := after (.tripSample true) { completed with trip := ⟨true, false, false⟩ }
       (t.strand 0).condition = .halted .trip ∧ (t.faults.look 0).map (·.condition) = some .casting) ∧
      (let t := after (.abort 9 1) completed
       (t.strand 0).condition = .halted .abort ∧ (t.faults.look 0).map (·.condition) = some .restarting) := by decide +kernel

theorem witness_HoldClaimsReachEveryStrand :
    (claimed casting 0 ∧ casting.queueFree ∧ casting.coordinator.state = .steady ∧
        (casting.strand 0).condition = .casting) ∧
      (claimed (atStep 4 .locking) 0 ∧ ((atStep 4 .locking).strand 0).condition.name = .restarting ∧
        ((atStep 4 .locking).strand 0).steel = true) ∧
      (claimed (put 0 (heldStrand false false true) ready) 0) ∧
      (claimed (restarting 0 (recordOf planCold 1 .waiting) false) 0) ∧
      (claimed completed 0 ∧ handoverDone completed 0 = true ∧ completed.drive.waiting 0 = false ∧
        claimed (tundishIn .releasing completed) 0) ∧
      (claimed (joinWaits .drive 0 (atDrive .slotWait .off)) 0 ∧
        (joinWaits .drive 0 (atDrive .slotWait .off)).inDriveStep 0 = true ∧
        (joinWaits .drive 0 (atDrive .slotWait .off)).working.drive.inrushHold ≠ 0) ∧
      (claimed (tundishIn .filling ready) 7 ∧ (tundishIn .filling ready).coordinator.state ≠ .steady ∧
        (tundishIn .filling ready).queueFree) ∧
      (claimed (supplyIn .riding casting) 0 ∧ (supplyIn .riding casting).supply.state = .riding ∧
        (supplyIn .riding casting).drive.isOpen = false) ∧
      ready.supply.state ≠ .riding := by
  unfold claimed State.queueFree
  decide +kernel

theorem witness_TundishInPlaceAndWeights :
    ((tundishIn .holding ready).queueFree ∧ (tundishIn .holding ready).coordinator.state = .holding) ∧
      (ready.queueFree ∧ ready.coordinator.state ≠ .holding ∧ ready.coordinator.state = .steady) ∧
      ready.coordinator.lowWeight ≠ decide (79 < ready.working.caster.lowThreshold) ∧
      ready.coordinator.lowWeight = decide (80 < ready.working.caster.lowThreshold) ∧
      ((tundishIn .filling ready).coordinator.state = .filling ∧
        199 < (tundishIn .filling ready).working.caster.openThreshold) ∧
      (tundishIn .releasing ready).coordinator.state = .releasing := by
  unfold State.queueFree
  decide +kernel

theorem witness_TundishAbortHalts :
    (ready.queueFree ∧ slotLaw ready = true ∧ ready.isConfigured 0 = true ∧ ready.coordinator.state = .steady) ∧
      (let t := tundishIn .holding (put 0 (heldStrand true false false) ready)
       t.queueFree ∧ slotLaw t = true ∧ t.coordinator.state ≠ .steady ∧ (t.strand 0).condition = .held ∧
         (t.strand 0).heldForTundish = true ∧ t.faults.look 0 = none) ∧
      (let t := tundishIn .releasing (atStep 4 .locking)
       let u := { t with coordinator := { t.coordinator with releaseSet := StrandSet.none.put 0 true } }
       u.queueFree ∧ slotLaw u = true ∧ u.coordinator.releaseSet.look 0 = true ∧
         (u.strand 0).condition.heldOrRestarting = true) := by
  unfold State.queueFree
  decide +kernel

theorem witness_WeightReleasesTheStrands :
    (let t := tundishIn .filling (put 0 (heldStrand true false false) ready)
     t.coordinator.state = .filling ∧ t.working.caster.openThreshold ≤ 200 ∧ t.isConfigured 0 = true ∧
       (t.strand 0).condition = .held ∧ (t.strand 0).heldForTundish = true ∧ (t.strand 0).heldForDip = false ∧
       (t.strand 0).heldByOperator = false ∧ lookupPlan t.working 0 .flying = none) ∧
      (let t := tundishIn .filling (put 0 (heldStrand true true false) ready)
       t.coordinator.state = .filling ∧ (t.strand 0).condition = .held ∧ (t.strand 0).heldForDip = true) ∧
      (tundishIn .filling casting).coordinator.state = .filling ∧ ((tundishIn .filling casting).strand 0).condition ≠ .held
      := by decide +kernel

theorem witness_TripArmsAndLatches :
    (let t := { casting with trip := ⟨false, false, true⟩ }
     slotLaw t = true ∧ t.isConfigured 0 = true ∧ t.trip.latched = false ∧ t.queueFree ∧ t.trip.armed = false ∧
       t.trip.line = true ∧ (t.strand 0).condition = .casting ∧ t.faults.look 0 = none) ∧
      (let t := { restarting 0 (recordOf planCold 1 .waiting) false with trip := ⟨true, false, false⟩ }
       slotLaw t = true ∧ t.trip.armed = true ∧ t.trip.latched = false ∧ (t.strand 0).condition.name = .restarting ∧
         (t.strand 0).steel = false) ∧
      (let t := { zero (.halted .abort) true with trip := ⟨true, false, false⟩ }
       slotLaw t = true ∧ t.trip.latched = false ∧ (t.strand 0).condition.waitsForHost = true) ∧
      (ready.queueFree ∧ ready.trip.armed = false ∧ ready.trip.line = false) ∧
      (let t := { ready with trip := ⟨true, true, false⟩ }
       t.queueFree ∧ t.trip.armed = true ∧ t.trip.latched = true ∧ t.trip.line ≠ true) := by
  unfold State.queueFree
  decide +kernel

theorem witness_TripResetClears :
    ({ ready with trip := ⟨true, true, true⟩ }.queueFree ∧ { ready with trip := ⟨true, true, true⟩ }.trip.line = true) ∧
      (ready.queueFree ∧ ready.trip.line = false ∧ ready.trip.latched = false) ∧
      ({ ready with trip := ⟨true, true, false⟩ }.queueFree ∧ { ready with trip := ⟨true, true, false⟩ }.trip.line = false ∧
        { ready with trip := ⟨true, true, false⟩ }.trip.latched = true) := by
  unfold State.queueFree
  decide +kernel

theorem witness_SupplyEdgesMoveTheMonitor :
    ready.supply.state = .supplied ∧ (supplyIn .settling ready).supply.state = .settling ∧
      (supplyIn .riding ready).supply.state = .riding ∧ (supplyIn .down ready).supply.state = .down ∧
      (supplyIn .down ready).supply.check = .done ∧ (supplyIn .down ready).working.caster.settle ≠ 0 ∧
      State.reset.supply.check = .pending ∧ ready.supply.check = .done := by decide +kernel

theorem witness_SupplyReturns :
    (slotLaw (supplyIn .riding casting) = true ∧ holdLaw (supplyIn .riding casting) = true ∧
        (supplyIn .riding casting).isConfigured 0 = true ∧
        (supplyIn .riding casting).supply.check = .done ∧ (supplyIn .riding casting).supply.outageStart = some 7) ∧
      (slotLaw State.reset = true ∧ holdLaw State.reset = true ∧ State.reset.supply.check = .pending ∧ State.reset.supply.outageStart = none) ∧
      (let t := supplyIn .down ready
       let u := { t with working := { t.working with caster := { t.working.caster with settle := 0 } } }
       slotLaw u = true ∧ holdLaw u = true ∧ u.supply.state = .down ∧ u.supply.check = .done ∧ u.supply.outageStart = some 7 ∧
         u.working.caster.settle = 0) ∧
      (let t := supplyIn .settling (put 0 (heldStrand false true false) ready)
       slotLaw t = true ∧ holdLaw t = true ∧ t.supply.state = .settling ∧ t.supply.check = .done ∧ t.supply.outageStart = some 7 ∧
         t.supply.settleStart = some 9 ∧ (t.strand 0).condition = .held ∧ (t.strand 0).heldForDip = true ∧
         (t.strand 0).heldForTundish = false ∧ (t.strand 0).heldByOperator = false) ∧
      (let t := withLines 0 false true true true (supplyIn .riding casting)
       slotLaw t = true ∧ holdLaw t = true ∧ (t.strand 0).condition = .casting ∧
         (t.strandLines.look 0).driveReady.accepted = some false) := by decide +kernel

theorem witness_NoticeRequestsAct :
    ready.queueFree ∧ 7 < ((Tab.all 29 (8 : Byte)).look 28).toNat ∧ (Tab.all 29 (7 : Byte)).every (·.toNat ≤ 7) = true ∧
      2 ^ 29 ≤ (0x20000000 : BitVec 32).toNat ∧ (0x1FFFFFFF : BitVec 32).toNat < 2 ^ 29 := by
  unfold State.queueFree
  decide +kernel

/-- `ready` with sources 0 and 28 owed, source 28 at the level `l`. -/
def owing (l : Nat) : State :=
  { ready with
    noticePending := ((Tab.all 29 false).put 0 true).put 28 true
    working := { ready.working with noticeLevels := (Tab.all 29 1).put 28 l } }

theorem witness_ChoiceTakesBestSource :
    { ready with sending := some ⟨0, 0xF0, []⟩ }.sending ≠ none ∧
      (let t := { ready with replies := [⟨0, 0x81, [0]⟩] }
       t.replies = ⟨0, 0x81, [0]⟩ :: t.replies.tail) ∧
      ((owing 1).replies = [] ∧ bestSource (owing 1) = some 0) ∧ bestSource (owing 2) = some 28 ∧
      (ready.replies = [] ∧ bestSource ready = none) := by decide +kernel

theorem witness_EventsSendNoReply :
    requestFrame? .tcRequestRise = none ∧ (∀ b, Instr.tcRequestRise ≠ .receivedByte b) ∧ Instr.tcRequestRise ≠ .reset ∧
      Instr.tcRequestRise ≠ .transmissionEnd :=
  ⟨rfl, fun _ h => Instr.noConfusion h, fun h => Instr.noConfusion h, fun h => Instr.noConfusion h⟩

/-- A line accepted at `b` with two samples of the other level. -/
def turning (b : Bool) : Line := ⟨some b, some !b, 2, .ok⟩

/-- `ready` with every line of strand 0, and every caster-wide line, one sample from an edge, and strand 1's one sample from its
first level. -/
def turningAll : State :=
  { ready with
    strandLines := (ready.strandLines.put 0 ⟨turning false, turning false, turning true, turning true, turning false⟩).put 1
      ⟨⟨none, some true, 2, .ok⟩, ⟨none, some true, 2, .ok⟩, ⟨none, some false, 2, .ok⟩, ⟨none, some true, 2, .ok⟩,
        ⟨none, none, 0, .ok⟩⟩
    casterLines := ⟨turning true, turning false, turning false, turning true, turning false⟩ }

/-- An instant of each class delivers the edges and first levels of its lines, and a presented value's range is as the manual
gives it. -/
theorem witness_InstantsSampleAndRoute :
    (after (.filterSample (.classA ⟨Tab.all 8 (.level true), .level false⟩)) turningAll).inFlight =
        [.breakoutAlarmRise 0, .breakoutAlarmRise 1, .supplyOkFall 0] ∧
      (after (.filterSample (.classB ⟨((Tab.all 8 ⟨.noData, .noData, .noData, .noData⟩).put 0
            ⟨.level true, .level false, .level false, .level true⟩).put 1
            ⟨.level true, .level false, .level true, .level true⟩,
          .level true, .level true, .level false, .level true⟩)) turningAll).inFlight =
        [.driveReadyRise 0, .permissiveLevelChange (.driveReady 0), .permissiveLevelChange (.dummyAtMold 0),
          .permissiveLevelChange (.moldWaterOk 0), .permissiveLevelChange (.driveReady 1),
          .permissiveLevelChange (.dummyAtMold 1), .steelPresentFirstLevel 1 true, .tcRequestRise, .tundishInPlaceRise,
          .permissiveLevelChange .hydOk] ∧
      markSample 300 (.present 300 true) = .valid 300 ∧ markSample 300 (.present 301 true) = .invalid ∧
      markSample 300 (.present (-1) true) = .invalid ∧ markSample 300 (.present 0 true) = .valid 0 := by decide +kernel

/-- A unit with an active detector. -/
def seeking (lock : Bool) : UnitState :=
  { UnitState.initial with levelOn := true, stopper := .regulator, lock := lock }

theorem witness_LockDetectorMovesLock :
    (seeking false).levelOn = true ∧ (seeking false).controlMode = .auto ∧ Config.defaultLevel.lockBand ≠ 0 ∧
      (seeking false).lock = false ∧ (seeking true).lock = true ∧
      (85 ≤ Config.defaultLevel.target + Config.defaultLevel.lockBand ∧
        ¬ 86 ≤ Config.defaultLevel.target + Config.defaultLevel.lockBand) ∧
      ((seeking false).takeDepth ⟨80, 5, 0, 0, 0⟩ (.valid 75)).lock = true ∧
      ((seeking true).takeDepth ⟨80, 5, 0, 0, 0⟩ (.valid 74)).lock = false := by decide +kernel

/-- `ready` with strand 0's LEVEL step in LOCKING, its detector one sample from LOCK. -/
def locking : State :=
  unitOf (fun u => { u with levelOn := true, stopper := .regulator, inCount := 9 }) (atStep 4 .locking)

theorem witness_DepthSampleReachesTheUnit :
    (zero (.offline .service) false).inService 0 = false ∧ (ready.inService 0 = true ∧ ready.phase 0 ≠ .locking) ∧
      detectorActive (ready.levelSet 0) (ready.unit 0) = false ∧
      (locking.inService 0 = true ∧ (locking.unit 0).lock = false ∧
        ((locking.unit 0).takeDepth (locking.levelSet 0) (.valid 80)).lock = true ∧ locking.phase 0 = .locking ∧
        servedLaw locking = true ∧
        (∃ r, locking.record? 0 = some r ∧ r.stepIndex < r.snapshot.plan.steps.length)) := by
  refine ⟨by decide +kernel, by decide +kernel, by decide +kernel, by decide +kernel, by decide +kernel, by decide +kernel,
    by decide +kernel, by decide +kernel, recordOf planCold 4 .locking, by decide +kernel, by decide +kernel⟩

theorem witness_OpenStepTakesDepth :
    (let s := atOpen 1 .pouring none .idle
     s.inService 0 = true ∧ s.action? 0 = some (.opening 60 90 2 30) ∧ s.phase 0 = .pouring ∧
       (s.record? 0).bind (·.riseReference) = none) ∧
      (let s := atOpen 1 .pouring (some 150) (.running 0)
       s.inService 0 = true ∧ (s.record? 0).bind (·.riseReference) = some 150 ∧ s.working.pour.riseThreshold ≤ 150 - 130 ∧
         ¬ s.working.pour.riseThreshold ≤ 150 - 131 ∧ 90 < 130 ∧ 150 < 151 ∧
         (s.pour.grant? 0).map (·.response) = some (.running 0)) ∧
      (let s := atOpen 1 .filling none .answered
       s.inService 0 = true ∧ s.phase 0 = .filling ∧ 3 < planCold.steps.length ∧ s.pour.waiting 0 = false ∧
         (planCold.steps.drop 3).all (!isOpenAction ·.action) = true ∧
         planCold.steps[3]? = some ⟨.level (.plan ⟨80, 5, 10, 10, 20⟩), 300⟩ ∧ (s.unit 0).levelOn = false) ∧
      (let s := atOpen 1 .preCharge none .idle
       s.inService 0 = true ∧ s.phase 0 = .preCharge) := by decide +kernel

theorem witness_SpeedReferenceIsTaken :
    (zero (.offline .service) false).inService 0 = false ∧ (ready.inService 0 = true ∧ ready.phase 0 ≠ .referenceWait) ∧
      (let s := atStep 7 .referenceWait
       s.inService 0 = true ∧ s.record? 0 = some (recordOf planCold 7 .referenceWait) ∧
         (recordOf planCold 7 .referenceWait).stepIndex = planCold.steps.length) := by decide +kernel

theorem witness_StepTimersAndPermissivesAct :
    ready.record? 0 = none ∧ (recordOf planCold 4 .locking).stepTimer ≠ none ∧
      { recordOf planCold 4 .locking with stepTimer := none }.stepTimer = none ∧
      ((atStep 4 .locking).action? 0 = some (.level (.plan ⟨80, 5, 10, 10, 20⟩)) ∧
        (atStep 6 .dwell).action? 0 = some .wait ∧ (recordOf planCold 6 .dwell).stepIndex < planCold.steps.length ∧
        (atStep 6 .dwell).isConfigured 0 = true) ∧
      (ready.phase 0 ≠ .inrush ∧ (atDrive .inrush .answered).record? 0 = some (recordOf planDip 2 .inrush) ∧
        (recordOf planDip 2 .inrush).stepIndex < planDip.steps.length ∧ (atDrive .inrush .answered).drive.waiting 0 = false ∧
        ((planDip.steps.drop 2).map (·.action)).all (· != .drive) = true) ∧
      (let t := unitOf (fun u => { u with draw := true, ramp := some ⟨30, 120, 20, 4500⟩ }) (atStep 5 .ramping)
       (ready.unit 0).ramp = none ∧ t.phase 0 = .ramping ∧ (t.unit 0).ramp = some ⟨30, 120, 20, 4500⟩ ∧
         (t.unit 0).draw = true ∧ ((planCold.steps.drop 5).map (·.action)).all (!isDrawAction ·) = true) ∧
      (lineStrands .hydOk ready = [] ∧ lineStrands (.moldWaterOk 0) (atStep 1 .waiting) = [0] ∧
        maskEmpty (missingLines (atStep 1 .waiting) 0 ⟨true, true, true, true⟩) = false) ∧
      (let t := put 7 (strandIn (.restarting (recordOf planCold 1 .waiting)) false) (atStep 1 .waiting)
       lineStrands .hydOk t = [0, 7] ∧ t.action? 0 = some (.check ⟨true, true, true, true⟩) ∧
         t.action? 7 = t.action? 0 ∧ maskEmpty (missingLines t 0 ⟨true, true, true, true⟩) = false ∧
         maskEmpty (missingLines t 7 ⟨true, true, true, true⟩) = false) ∧
      (let t := { withLines 0 true true true true (atStep 1 .waiting) with
        casterLines := { CasterLines.initial with hydOk := line true } }
       0 ∈ lineStrands .hydOk t ∧ maskEmpty (missingLines t 0 ⟨true, true, true, true⟩) = true) := by decide +kernel

theorem witness_AttemptsOpenAndExpire :
    (let s := atOpen 1 .preCharge none .idle
     s.action? 0 = some (.opening 60 90 2 30) ∧ s.phase 0 = .preCharge ∧
       (s.pour.grant? 0).map (·.response) = some .idle) ∧
      (atOpen 2 .retryDwell none .idle).phase 0 = .retryDwell ∧
      responseRunning .pour 0 ready = false ∧ responseRunning .drive 0 ready = false ∧
      ready.phase 0 ≠ .preCharge ∧ ready.phase 0 ≠ .retryDwell ∧
      (restarting 0 (recordOf planCold 4 .preCharge) true).action? 0 = some (.level (.plan ⟨80, 5, 10, 10, 20⟩)) ∧
      (let s := atOpen 1 .noPhase none (.running 0)
       responseRunning .pour 0 s = true ∧ s.phase 0 ≠ .pouring) ∧
      (let s := atDrive .noPhase (.running 0)
       responseRunning .drive 0 s = true ∧ s.phase 0 ≠ .starting ∧ s.drive.waiting 0 = false ∧
         s.pour.waiting 0 = false) ∧
      (let s := atOpen 1 .pouring none (.running 0)
       responseRunning .pour 0 s = true ∧ s.phase 0 = .pouring ∧ (s.record? 0).bind (·.attempt) = some 1) ∧
      (let s := atOpen 2 .pouring none (.running 0)
       responseRunning .pour 0 s = true ∧ s.pour.waiting 0 = false ∧ (s.record? 0).bind (·.attempt) = some 2) ∧
      (let s := atDrive .starting (.running 0)
       responseRunning .drive 0 s = true ∧ s.drive.waiting 0 = false ∧ s.action? 0 = some .drive ∧
         s.phase 0 = .starting) := by decide +kernel

/-- Every law's hypotheses are met by a busy state with a command waiting, and its step goes on. -/
theorem witness_laws :
    (let s := { casting with pending := [.tcRequestRise], faults := Tab.all 8 none }
     linkLaw s = true ∧ unitLaw s = true ∧ poolLaw s = true ∧ faultLaw s = true ∧ supplyLaw s = true ∧
       filterLaw s = true ∧ settingsLaw s = true ∧ releaseLaw s = true ∧ unfittedLaw s = true ∧ slotLaw s = true ∧
       waitLaw s = true ∧ servedLaw s = true ∧ holdLaw s = true ∧ (next? (step s)).isSome = true) := by decide +kernel

end Sys2Proof.Tests
end

section
/-! PROOFS. The grade map: what MAP WRITE and MAP DISABLE answer and store (R43 to R45), and which window decides a lookup
(R47). -/

namespace Sys2Proof.Machine

/-! ### Requests on the link -/

/-- A request whose handler refuses is answered with the code and changes nothing. -/
theorem request_refuses (tag kind : Byte) (h : Handler) (c : ReplyCode) (s : State) (hq : s.queueFree)
    (he : h s = refuse c s) :
    ∃ t, request tag kind h s = .next t ∧ Answered s t tag kind [c.byte] ∧ SameButReply s t :=
  ⟨_, rfl, handleRequest_refused tag kind h c s hq he⟩

/-- A request whose handler accepts a change of the working copy alone is answered with OK and makes that change. -/
theorem request_stores (tag kind : Byte) (h : Handler) (f : State → State) (w : Settings) (s : State) (hq : s.queueFree)
    (he : h s = accept f s) (hf : f s = { s with working := w }) :
    ∃ t, request tag kind h s = .next t ∧ Answered s t tag kind [ReplyCode.ok.byte] ∧ SameButSettings s t w := by
  have ⟨answered, same⟩ := handleRequest_accepted tag kind h f s hq he (by rw [hf]) (by rw [hf])
  rw [hf] at same
  exact ⟨_, rfl, answered, same⟩

theorem SameButSettings.working_eq {s t : State} {w : Settings} (h : SameButSettings s t w) : t.working = w :=
  congrArg State.working h

theorem exec_mapWrite (tag : Byte) (b : WindowBody) (s : State) :
    exec (.mapWrite tag b) s = request tag 0x15 (handleMapWrite b) s := rfl

theorem exec_mapDisable (tag window : Byte) (s : State) :
    exec (.mapDisable tag window) s = request tag 0x16 (handleMapDisable window) s := rfl

/-! ### The operands of MAP WRITE and MAP DISABLE -/

theorem windowOf_above (b : Byte) (h : 7 < b.toNat) : windowOf b = none := by
  have : ¬ b.toNat < 8 := by omega
  simp [windowOf, this]

theorem windowOf_eq (b : Byte) (n : Fin 8) (h : b.toNat = n.val) : windowOf b = some n := by
  simp [windowOf, h]

/-- A byte that R44 takes as a plan field: a plan number, or 0xFF for NONE. -/
def isPlanField (x : Byte) : Prop := x.toNat ≤ 31 ∨ x = 0xFF

/-- The plan field a byte spells names the slot of that number; NONE names no slot. -/
theorem readPlanField_of_isPlanField (x : Byte) (h : isPlanField x) : readPlanField x = some (slotOf x) := by
  rcases h with hx | rfl
  · have : x.toNat < 32 := by omega
    simp [readPlanField, slotOf, this]
  · rfl

theorem isPlanField_of_readPlanField (x : Byte) (p : Option (Fin 32)) (h : readPlanField x = some p) : isPlanField x := by
  unfold readPlanField at h
  split at h
  · next hx => exact .inl (Nat.le_of_lt_succ hx)
  · split at h
    · next hx => exact .inr hx
    · cases h

/-- The window MAP WRITE leaves of `old`, its plan fields read (R44). -/
def rewritten (old : GradeWindow) (b : WindowBody) : GradeWindow :=
  writtenWindow old b (slotOf b.cold) (slotOf b.flying) (slotOf b.dip)

/-- The fields of MAP WRITE are right for a window that holds `old` (R43, R44). -/
def MapFieldsRight (old : GradeWindow) (b : WindowBody) : Prop :=
  b.sizeExp.toNat ≤ 12 ∧ (b.mark = 0 ∨ b.mark = 1) ∧ isPlanField b.cold ∧ isPlanField b.flying ∧ isPlanField b.dip ∧
    (if b.mark = 1 then b.base.toNat else old.base) % 2 ^ b.sizeExp.toNat = 0

/-- The mark byte spells no base or a base. -/
theorem mark_le_one_iff (m : Byte) : m.toNat ≤ 1 ↔ m = 0 ∨ m = 1 := by
  constructor
  · intro h
    rcases Nat.le_one_iff_eq_zero_or_eq_one.mp h with h | h
    · exact .inl (BitVec.eq_of_toNat_eq h)
    · exact .inr (BitVec.eq_of_toNat_eq h)
  · rintro (rfl | rfl) <;> decide

theorem aligned_iff (base sizeExp : Nat) : aligned base sizeExp = true ↔ base % 2 ^ sizeExp = 0 := by
  simp [aligned]

/-- MAP WRITE's fields read as the window they would leave, where they are right. -/
theorem readWindow_of_right (s : State) (b : WindowBody) (n : Fin 8) (hn : b.window.toNat = n.val)
    (h : MapFieldsRight (s.working.windows.look n) b) :
    readWindow s b = some (n, rewritten (s.working.windows.look n) b) := by
  obtain ⟨size, mark, cold, flying, dip, base⟩ := h
  have whole : b.sizeExp.toNat ≤ 12 ∧ b.mark.toNat ≤ 1 ∧
      aligned (rewritten (s.working.windows.look n) b).base (rewritten (s.working.windows.look n) b).sizeExp = true :=
    ⟨size, (mark_le_one_iff _).mpr mark, (aligned_iff _ _).mpr base⟩
  simp only [readWindow, windowOf_eq b.window n hn, readPlanField_of_isPlanField _ cold,
    readPlanField_of_isPlanField _ flying, readPlanField_of_isPlanField _ dip]
  exact if_pos whole

/-- The fields of an existing window that read are right. -/
theorem right_of_readWindow (s : State) (b : WindowBody) (n m : Fin 8) (w : GradeWindow) (hn : b.window.toNat = n.val)
    (h : readWindow s b = some (m, w)) : MapFieldsRight (s.working.windows.look n) b := by
  unfold readWindow at h
  split at h
  · next i c f d window cold flying dip =>
    rw [windowOf_eq b.window n hn] at window
    cases window
    dsimp only at h
    split at h
    · next whole =>
      obtain ⟨size, mark, base⟩ := whole
      exact ⟨size, (mark_le_one_iff _).mp mark, isPlanField_of_readPlanField _ c cold,
        isPlanField_of_readPlanField _ f flying, isPlanField_of_readPlanField _ d dip, (aligned_iff _ _).mp base⟩
    · cases h
  · cases h

theorem readWindow_above (s : State) (b : WindowBody) (h : 7 < b.window.toNat) : readWindow s b = none := by
  simp [readWindow, windowOf_above b.window h]

theorem readWindow_of_not_right (s : State) (b : WindowBody) (n : Fin 8) (hn : b.window.toNat = n.val)
    (h : ¬ MapFieldsRight (s.working.windows.look n) b) : readWindow s b = none := by
  cases hr : readWindow s b with
  | none => rfl
  | some x => exact absurd (right_of_readWindow s b n x.1 x.2 hn hr) h

/-! ### MAP WRITE and MAP DISABLE -/

theorem handleMapWrite_none (s : State) (b : WindowBody) (h : readWindow s b = none) :
    handleMapWrite b s = refuse .badField s := by
  simp [handleMapWrite, h]

theorem handleMapWrite_some (s : State) (b : WindowBody) (n : Fin 8) (w : GradeWindow) (h : readWindow s b = some (n, w)) :
    handleMapWrite b s = accept (storeWindow n w) s := by
  simp [handleMapWrite, h]

theorem handleMapDisable_above (window : Byte) (s : State) (h : 7 < window.toNat) :
    handleMapDisable window s = refuse .badField s := by
  simp [handleMapDisable, windowOf_above window h]

theorem handleMapDisable_eq (window : Byte) (n : Fin 8) (s : State) (h : window.toNat = n.val) :
    handleMapDisable window s = accept (storeWindow n { s.working.windows.look n with enabled := false }) s := by
  simp [handleMapDisable, windowOf_eq window n h, accept]

/-- A disabled window takes no part in lookups (R45). -/
theorem windowCovers_disabled (w : GradeWindow) (grade : Nat) (k : Strand) :
    windowCovers { w with enabled := false } grade k = false := by
  simp [windowCovers]

/-- Settles O16: MAP WRITE turns on whether its fields are right for the window they name, MAP DISABLE on its number. -/
theorem mapWriteAndDisable : Obligations.MapWriteAndDisable := by
  intro tag b n window grade k s
  rw [exec_mapWrite, exec_mapDisable]
  refine ⟨fun hq => ⟨fun above => ?_, fun hn wrong => ?_, fun hn right => ?_⟩, fun hq => ⟨fun above => ?_, fun hn => ?_⟩⟩
  · exact request_refuses _ _ _ .badField s hq (handleMapWrite_none s b (readWindow_above s b above))
  · exact request_refuses _ _ _ .badField s hq (handleMapWrite_none s b (readWindow_of_not_right s b n hn wrong))
  · exact request_stores _ _ _ _ _ s hq (handleMapWrite_some s b n _ (readWindow_of_right s b n hn right)) rfl
  · exact request_refuses _ _ _ .badField s hq (handleMapDisable_above window s above)
  · obtain ⟨t, reached, answered, same⟩ := request_stores tag 0x16 _ _ _ s hq (handleMapDisable_eq window n s hn) rfl
    refine ⟨t, reached, answered, same, ?_⟩
    rw [same.working_eq, look_put_same]
    exact windowCovers_disabled _ grade k

/-! ### The lookup -/

/-- The search of a table ends at the lowest entry that satisfies `p`. -/
theorem find?_tab_eq_some_iff {n : Nat} {α : Type} (t : Tab n α) (p : α → Bool) (x : α) :
    t.toList.find? p = some x ↔
      ∃ i : Fin n, t.look i = x ∧ p (t.look i) = true ∧ ∀ j : Fin n, j < i → p (t.look j) ≠ true := by
  rw [List.find?_eq_some_iff_getElem]
  constructor
  · rintro ⟨hp, i, hi, hx, before⟩
    have hin : i < n := by simpa using hi
    have look : t.look ⟨i, hin⟩ = x := by simpa [Tab.look] using hx
    refine ⟨⟨i, hin⟩, look, look ▸ hp, fun j hj => ?_⟩
    simpa [Tab.look] using before j.val hj
  · rintro ⟨i, rfl, hp, before⟩
    refine ⟨hp, i.val, by simp, by simp [Tab.look], fun j hj => ?_⟩
    simpa [Tab.look] using before ⟨j, by omega⟩ hj

theorem windowCovers_iff (w : GradeWindow) (grade : Nat) (k : Strand) :
    windowCovers w grade k = true ↔
      w.enabled = true ∧ w.base ≤ grade ∧ grade < w.base + 2 ^ w.sizeExp ∧ w.strands.look k = true := by
  simp [windowCovers, and_assoc]

/-- A lookup gives a plan exactly where the window found names its slot and the slot holds it with the kind asked for. -/
theorem lookupPlan_eq_some_iff (w : Settings) (k : Strand) (kind : RestartKind) (n : Fin 32) (p : Plan) :
    lookupPlan w k kind = some (n, p) ↔
      ∃ win, w.windows.toList.find? (windowCovers · (w.strands.look k).grade k) = some win ∧
        windowPlan win kind = some n ∧ w.plans.look n = some p ∧ p.kind = kind := by
  unfold lookupPlan
  constructor
  · intro h
    split at h
    · cases h
    next win found =>
    split at h
    · cases h
    next m field =>
    split at h
    · cases h
    next q slot =>
    split at h
    · next hk =>
      cases h
      exact ⟨win, found, field, slot, hk⟩
    · cases h
  · rintro ⟨win, found, field, slot, hk⟩
    simp [found, field, slot, hk]

/-- Settles O17: the search through the windows ends at the lowest that covers, and only that one is asked for a plan. -/
theorem lookupTakesLowestWindow : Obligations.LookupTakesLowestWindow := by
  intro w k kind n p grade covers
  have covers_iff (i : Fin 8) : windowCovers (w.windows.look i) grade k = true ↔ covers i := windowCovers_iff _ _ _
  rw [lookupPlan_eq_some_iff]
  constructor
  · rintro ⟨win, found, field, slot, hk⟩
    obtain ⟨i, rfl, here, before⟩ := (find?_tab_eq_some_iff _ _ _).mp found
    exact ⟨i, (covers_iff i).mp here, fun j hj c => before j hj ((covers_iff j).mpr c),
      by cases kind <;> exact field, slot, hk⟩
  · rintro ⟨i, here, before, field, slot, hk⟩
    refine ⟨w.windows.look i, (find?_tab_eq_some_iff _ _ _).mpr ⟨i, rfl, (covers_iff i).mpr here, fun j hj c => ?_⟩,
      by cases kind <;> exact field, slot, hk⟩
    exact before j hj ((covers_iff j).mp c)

end Sys2Proof.Machine
end

section
/-! PROOFS. The slot arbiter's exclusion sets: what INCLUDE answers and removes (R99). -/

namespace Sys2Proof.Machine

/-! ### The removal from the named sets -/

theorem put_put {n : Nat} {α : Type} (t : Tab n α) (i : Fin n) (x y : α) : (t.put i x).put i y = t.put i y := by
  simp [Tab.put]

/-- A removal changes the set only where the request names the pool and the strand stands in its set. -/
theorem includeIn_absent (p : PoolId) (named : Bool) (k : Strand) (s : State)
    (h : (named && (s.pool p).excluded.look k) = false) : includeIn p named k s = s := by
  simp_all [includeIn]

theorem includeIn_present (p : PoolId) (named : Bool) (k : Strand) (s : State)
    (h : (named && (s.pool p).excluded.look k) = true) :
    includeIn p named k s = pend .arbiter (modPool p (fun x => { x with excluded := x.excluded.erase k }) s) := by
  simp_all [includeIn]

/-- What INCLUDE leaves of `s`, where it takes strand `k` out of POUR's set (`p`) and out of DRIVE's (`d`). -/
def removed (p d : Bool) (k : Strand) (s : State) : State :=
  { s with
    pour := { s.pour with excluded := if p then s.pour.excluded.put k false else s.pour.excluded }
    drive := { s.drive with excluded := if d then s.drive.excluded.put k false else s.drive.excluded }
    noticePending := if p || d then s.noticePending.put 4 true else s.noticePending }

/-- The removal from POUR's set leaves DRIVE's to the second removal, and two changed sets ask for one notice. -/
theorem includeIn_both (namesPour namesDrive : Bool) (k : Strand) (s : State) :
    includeIn .drive namesDrive k (includeIn .pour namesPour k s) =
      removed (namesPour && s.pour.excluded.look k) (namesDrive && s.drive.excluded.look k) k s := by
  cases hp : namesPour && s.pour.excluded.look k <;> cases hd : namesDrive && s.drive.excluded.look k
  · rw [includeIn_absent .pour _ k s hp, includeIn_absent .drive _ k s hd]; rfl
  · rw [includeIn_absent .pour _ k s hp, includeIn_present .drive _ k s hd]; rfl
  · rw [includeIn_present .pour _ k s hp]; exact includeIn_absent .drive _ k _ hd
  · rw [includeIn_present .pour _ k s hp, includeIn_present .drive]
    · exact congrArg (fun n => { removed true true k s with noticePending := n }) (put_put s.noticePending 4 true true)
    · exact hd

/-! ### INCLUDE -/

theorem exec_include (tag b pools : Byte) (s : State) :
    exec (.includeStrand tag b pools) s = request tag 0x19 (handleInclude b pools) s := rfl

/-- A request that needs a strand in service is NOT_FITTED for a strand above the configured count. -/
theorem namingInService_above (b : Byte) (h : Strand → Handler) (s : State) (h0 : b ≠ 0)
    (hb : s.configuredCount < b.toNat) : namingInService b h s = refuse .notFitted s :=
  namingStrand_above b _ s h0 hb

/-- A mask that names neither pool, or more than the two, is BAD_FIELD. -/
theorem handleInclude_badMask (pools : Byte) (k : Strand) (s : State) (hk : s.inService k = true)
    (h : pools = 0 ∨ 3 < pools.toNat) : handleInclude (nameByte k) pools s = refuse .badField s := by
  rw [handleInclude, namingInService_name k _ s hk]
  have fails : (pools == 0 || decide (3 < pools.toNat)) = true := by simpa using h
  exact checked_fails _ _ _ _ (by rw [fails]; rfl)

theorem handleInclude_named (pools : Byte) (k : Strand) (s : State) (hk : s.inService k = true)
    (h1 : 1 ≤ pools.toNat) (h3 : pools.toNat ≤ 3) :
    handleInclude (nameByte k) pools s =
      accept (removed (pools.getLsbD 0 && s.pour.excluded.look k) (pools.getLsbD 1 && s.drive.excluded.look k) k) s := by
  have passes : (pools == 0 || decide (3 < pools.toNat)) = false := by
    have : pools ≠ 0 := by rintro rfl; cases h1
    simpa [h3] using this
  rw [handleInclude, namingInService_name k _ s hk, checked_passes _ _ _ (by rw [passes]; rfl), accept, includeIn_both, accept]

/-- Settles O19: the checks in their order, then one removal for each pool. -/
theorem includeRemovesExclusion : Obligations.IncludeRemovesExclusion := by
  intro tag pools b k s hq
  simp only [exec_include]
  refine ⟨fun h0 above => ?_, fun hk offline => ?_, fun hk mask => ?_, fun hk h1 h3 => ?_⟩
  · exact request_refuses _ _ _ .notFitted s hq (namingInService_above b _ s h0 above)
  · exact request_refuses _ _ _ .wrongState s hq (namingInService_offline k _ s hk offline)
  · exact request_refuses _ _ _ .badField s hq (handleInclude_badMask pools k s hk mask)
  · exact ⟨_, rfl, handleRequest_accepted _ _ _ _ s hq (handleInclude_named pools k s hk h1 h3) rfl rfl⟩

end Sys2Proof.Machine
end

section
/-! PROOFS. The lock detector: how it takes a mold depth sample with LOCK clear and with LOCK set (R110 to R112). -/

namespace Sys2Proof.Machine

/-! ### The values in effect and the band -/

theorem effectiveUnlockBand_eq_max (p : LevelParams) : effectiveUnlockBand p = max p.unlockBand p.lockBand := by
  unfold effectiveUnlockBand
  split <;> omega

theorem errorMagnitude_le_iff (p : LevelParams) (d band : Nat) :
    errorMagnitude p d ≤ band ↔ d ≤ p.target + band ∧ p.target ≤ d + band := by
  unfold errorMagnitude
  split <;> omega

theorem withinBand_valid_iff (p : LevelParams) (band d : Nat) :
    withinBand p band (.valid d) = true ↔ d ≤ p.target + band ∧ p.target ≤ d + band := by
  rw [← errorMagnitude_le_iff]
  exact decide_eq_true_iff

@[simp] theorem withinBand_invalid (p : LevelParams) (band : Nat) : withinBand p band .invalid = false := rfl

/-! ### What a sample does to the counts and LOCK -/

section
variable {p : LevelParams} {x : Sample} {u : UnitState}

theorem seekLock_counts (near : withinBand p p.lockBand x = true) (short : u.inCount + 1 < effectiveLockCount p) :
    u.seekLock p x = { u with inCount := u.inCount + 1 } := by
  rw [UnitState.seekLock, if_pos near, if_neg (Nat.not_le_of_lt short)]

theorem seekLock_locks (near : withinBand p p.lockBand x = true) (reached : effectiveLockCount p ≤ u.inCount + 1) :
    u.seekLock p x = { u with lock := true, inCount := 0, outCount := 0 } := by
  rw [UnitState.seekLock, if_pos near, if_pos reached]

theorem seekLock_breaks (far : ¬ withinBand p p.lockBand x = true) : u.seekLock p x = { u with inCount := 0 } := by
  rw [UnitState.seekLock, if_neg far]

theorem keepLock_keeps (near : withinBand p (effectiveUnlockBand p) x = true) :
    u.keepLock p x = { u with outCount := 0 } := by
  rw [UnitState.keepLock, if_pos near]

theorem keepLock_counts (far : ¬ withinBand p (effectiveUnlockBand p) x = true)
    (short : u.outCount + 1 < effectiveUnlockCount p) : u.keepLock p x = { u with outCount := u.outCount + 1 } := by
  rw [UnitState.keepLock, if_neg far, if_neg (Nat.not_le_of_lt short)]

theorem keepLock_unlocks (far : ¬ withinBand p (effectiveUnlockBand p) x = true)
    (reached : effectiveUnlockCount p ≤ u.outCount + 1) :
    u.keepLock p x = { u with lock := false, inCount := 0, outCount := 0 } := by
  rw [UnitState.keepLock, if_neg far, if_pos reached, UnitState.clearLock]

/-! ### A sample at the unit -/

theorem detectorActive_iff (p : LevelParams) (u : UnitState) :
    detectorActive p u = true ↔ u.levelOn = true ∧ u.controlMode = .auto ∧ p.lockBand ≠ 0 := by
  simp [detectorActive, and_assoc]

/-- Last depth is neither read nor written by what decides how the detector takes the sample. -/
theorem detectorActive_noteDepth (p : LevelParams) (x : Sample) (u : UnitState) :
    detectorActive p (u.noteDepth x) = detectorActive p u := by
  cases x <;> rfl

theorem lock_noteDepth (x : Sample) (u : UnitState) : (u.noteDepth x).lock = u.lock := by
  cases x <;> rfl

theorem takeDepth_of_unlocked (active : detectorActive p u = true) (clear : u.lock = false) :
    u.takeDepth p x = (u.noteDepth x).seekLock p x := by
  simp [UnitState.takeDepth, detectorActive_noteDepth, lock_noteDepth, active, clear]

theorem takeDepth_of_locked (active : detectorActive p u = true) (set : u.lock = true) :
    u.takeDepth p x = (u.noteDepth x).keepLock p x := by
  simp [UnitState.takeDepth, detectorActive_noteDepth, lock_noteDepth, active, set]

end

/-- Settles O45: an active detector takes the sample by LOCK (R111, R112), and each rule's branches are the band and the
count in effect. -/
theorem lockDetectorMovesLock : Obligations.LockDetectorMovesLock := by
  intro p u d
  constructor
  · intro on auto band clear need near
    have active := (detectorActive_iff p u).mpr ⟨on, auto, band⟩
    have near_iff : withinBand p p.lockBand (.valid d) = true ↔ near := withinBand_valid_iff p _ d
    simp only [takeDepth_of_unlocked active clear]
    exact ⟨fun h short => seekLock_counts (near_iff.mpr h) short, fun h reached => seekLock_locks (near_iff.mpr h) reached,
      fun h => seekLock_breaks (mt near_iff.mp h), seekLock_breaks (by simp)⟩
  · intro on auto lockBand set need band near
    have active := (detectorActive_iff p u).mpr ⟨on, auto, lockBand⟩
    have near_iff : withinBand p (effectiveUnlockBand p) (.valid d) = true ↔ near := by
      rw [effectiveUnlockBand_eq_max]
      exact withinBand_valid_iff p _ d
    simp only [takeDepth_of_locked active set]
    exact ⟨fun h => keepLock_keeps (near_iff.mpr h), fun h short => keepLock_counts (mt near_iff.mp h) short,
      fun h reached => keepLock_unlocks (mt near_iff.mp h) reached, fun short => keepLock_counts (by simp) short,
      fun reached => keepLock_unlocks (by simp) reached⟩

end Sys2Proof.Machine
end

section
/-! PROOFS. The trip latch: what TRIP RESET answers and clears (R157). -/

namespace Sys2Proof.Machine

/-! ### An accepted request whose effect asks for a notice -/

/-- A notice pending before a reply joins the queue is pending after it: a choice that takes a reply takes no notice. -/
theorem SameButReply.noticed {u t : State} {src : Source} (h : SameButReply u t)
    (pending : u.noticePending.look src.number = true) : Noticed t src :=
  .inl ((congrArg (·.noticePending.look src.number) h).trans pending)

/-- Frames and pending flags aside, a reply adds nothing to what the effect did. -/
theorem SameButReply.sameButNotices {s u t : State} (reply : SameButReply u t) (effect : SameButNotices s u) :
    SameButNotices s t := by
  unfold SameButReply SameButNotices at *
  rw [reply, effect]

theorem pend_sameButNotices (src : Source) (s : State) : SameButNotices s (pend src s) := by
  unfold pend
  split <;> rfl

/-- A request whose handler accepts a change that leaves the link's sending side alone is answered with OK and makes it. -/
theorem request_accepts (tag kind : Byte) (h : Handler) (f : State → State) (s : State) (hq : s.queueFree)
    (he : h s = accept f s) (hr : (f s).replies = s.replies) (hs : (f s).sending = s.sending) :
    ∃ t, request tag kind h s = .next t ∧ Answered s t tag kind [ReplyCode.ok.byte] ∧ SameButReply (f s) t :=
  ⟨_, rfl, handleRequest_accepted tag kind h f s hq he hr hs⟩

/-! ### TRIP RESET -/

theorem exec_tripReset (tag : Byte) (s : State) :
    exec (.tripReset tag) s = request tag 0x1E handleTripReset s := rfl

theorem handleTripReset_asserted (s : State) (line : s.trip.line = true) : handleTripReset s = refuse .wrongState s :=
  checked_fails _ _ _ _ (by rw [line]; rfl)

theorem handleTripReset_released (s : State) (line : s.trip.line = false) : handleTripReset s = accept unlatch s :=
  checked_passes _ _ _ (by rw [line]; rfl)

theorem unlatch_clear (s : State) (clear : s.trip.latched = false) : unlatch s = s := by
  simp [unlatch, clear]

theorem unlatch_latched (s : State) (latched : s.trip.latched = true) :
    unlatch s = pend .trip (modTrip (fun x => { x with latched := false }) s) := by
  simp [unlatch, latched]

/-- Settles O37: the line alone decides whether the request is refused, and latched whether its effect is one. -/
theorem tripResetClears : Obligations.TripResetClears := by
  intro tag s
  rw [exec_tripReset]
  refine ⟨fun hq line => ?_, fun hq line clear => ?_, fun hq line latched => ?_⟩
  · exact request_refuses _ _ _ .wrongState s hq (handleTripReset_asserted s line)
  · have effect := unlatch_clear s clear
    have accepted := request_accepts tag 0x1E _ _ s hq (handleTripReset_released s line) (by rw [effect]) (by rw [effect])
    rwa [effect] at accepted
  · have effect := unlatch_latched s latched
    obtain ⟨t, reached, answered, same⟩ := request_accepts tag 0x1E _ _ s hq (handleTripReset_released s line)
      (by rw [effect, pend_replies]; rfl) (by rw [effect, pend_sending]; rfl)
    rw [effect] at same
    exact ⟨t, reached, answered, same.noticed (pend_look .trip _ rfl), same.sameButNotices (pend_sameButNotices .trip _)⟩

end Sys2Proof.Machine
end

section
/-! PROOFS. The input filter: what a sample does to a line's run, accepted level and data mark (R161, R162). -/

namespace Sys2Proof.Machine

/-- R162: the accepted level outlives the run that NO_DATA breaks. -/
theorem Line.sample_noData (l : Line) : l.sample .noData = ⟨l.accepted, none, 0, .noData⟩ := rfl

section
variable {l : Line} {b : Bool}

/-- R161, a sample of the run's own level. -/
theorem Line.sample_lengthens (same : l.runLevel = some b) :
    l.sample (.level b) =
      ⟨if min 3 (l.runLength + 1) = 3 then some b else l.accepted, some b, min 3 (l.runLength + 1), .ok⟩ := by
  rw [Line.sample, if_pos same]

/-- R161, a sample of another level than the run's, or with no run standing: a run of 1 accepts nothing. -/
theorem Line.sample_begins (other : l.runLevel ≠ some b) :
    l.sample (.level b) = ⟨l.accepted, some b, 1, .ok⟩ := by
  rw [Line.sample, if_neg other]
  rfl

end

/-- Settles O43: a level lengthens the standing run or begins one, by whether it is the run level. -/
theorem lineTakesSample : Obligations.LineTakesSample := by
  intro l b
  refine ⟨l.sample_noData, ?_⟩
  by_cases same : l.runLevel = some b
  · rw [Line.sample_lengthens same, if_pos same]
  · rw [Line.sample_begins same, if_neg same]
    rfl

end Sys2Proof.Machine
end

section
/-! PROOFS. Fault records: what a fault writes (R172), and what FAULT CLEAR answers and clears (R176). -/

namespace Sys2Proof.Machine

/-! ### A fault is written -/

/-- R172: a valid record is kept, and a later fault only sets multiple. -/
theorem faultAfter_valid (k : Strand) (code : FaultCode) (detail : Nat) (f : FaultRecord) (s : State)
    (valid : s.faults.look k = some f) : faultAfter k code detail s = { f with multiple := true } := by
  rw [faultAfter, valid]

/-- R172: with no valid record the fault is written whole, as the strand stands. -/
theorem faultAfter_invalid (k : Strand) (code : FaultCode) (detail : Nat) (s : State)
    (invalid : s.faults.look k = none) :
    faultAfter k code detail s =
      ⟨code, (s.strand k).condition.name, (s.record? k).map (·.planNumber), (s.record? k).map (·.stepIndex), s.now,
        detail, false⟩ := by
  rw [faultAfter, invalid]

theorem writeFault_faults (k : Strand) (code : FaultCode) (detail : Nat) (s : State) :
    (writeFault k code detail s).faults = s.faults.put k (some (faultAfter k code detail s)) :=
  pend_faults ..

/-- A configured strand's FAULT notice becomes pending with its fault (R177). -/
theorem writeFault_pends (k : Strand) (code : FaultCode) (detail : Nat) (s : State) (hk : s.isConfigured k = true) :
    (writeFault k code detail s).noticePending.look (Source.fault k).number = true :=
  pend_look (.fault k) _ hk

/-! ### FAULT CLEAR -/

theorem exec_faultClear (tag b : Byte) (s : State) :
    exec (.faultClear tag b) s = request tag 0x0E (handleFaultClear b) s := rfl

theorem handleFaultClear_named (k : Strand) (s : State) (hk : s.inService k = true) :
    handleFaultClear (nameByte k) s = accept (clearFault k) s :=
  namingInService_name k _ s hk

/-- A strand in service lies within the configured count. -/
theorem isConfigured_of_inService (k : Strand) (s : State) (hk : s.inService k = true) : s.isConfigured k = true :=
  (Bool.and_eq_true_iff.mp hk).1

/-- R176: an invalid record stays so, and no notice becomes pending. -/
theorem clearFault_invalid (k : Strand) (s : State) (invalid : s.faults.look k = none) : clearFault k s = s := by
  rw [clearFault, invalid]

/-- R176: a configured strand's valid record becomes invalid with its FAULT notice pending. -/
theorem clearFault_valid (k : Strand) (s : State) (hk : s.isConfigured k = true) (valid : s.faults.look k ≠ none) :
    clearFault k s =
      { s with faults := s.faults.put k none, noticePending := s.noticePending.put (Source.fault k).number true } := by
  obtain ⟨f, record⟩ := Option.ne_none_iff_exists'.mp valid
  rw [clearFault, record]
  exact if_pos hk

/-- Settles O27: a fault's record turns on whether one is kept already; FAULT CLEAR goes through the strand's checks and
then turns on the same. -/
theorem faultRecordIsWrittenAndCleared : Obligations.FaultRecordIsWrittenAndCleared := by
  intro k code detail f tag b s
  simp only [exec_faultClear]
  refine ⟨⟨fun valid => ?_, fun invalid => ?_, writeFault_pends k code detail s, writeFault_strands ..⟩,
    fun hq => ⟨fun h0 above => ?_, fun hk offline => ?_, fun hk invalid => ?_, fun hk valid => ?_⟩⟩
  · rw [writeFault_faults, faultAfter_valid k code detail f s valid]
  · rw [writeFault_faults, faultAfter_invalid k code detail s invalid]
  · exact request_refuses _ _ _ .notFitted s hq (namingInService_above b _ s h0 above)
  · exact request_refuses _ _ _ .wrongState s hq (namingInService_offline k _ s hk offline)
  · have effect := clearFault_invalid k s invalid
    have accepted := request_accepts tag 0x0E _ _ s hq (handleFaultClear_named k s hk) (by rw [effect]) (by rw [effect])
    rwa [effect] at accepted
  · have effect := clearFault_valid k s (isConfigured_of_inService k s hk) valid
    have accepted := request_accepts tag 0x0E _ _ s hq (handleFaultClear_named k s hk) (by rw [effect]) (by rw [effect])
    rwa [effect] at accepted

end Sys2Proof.Machine
end

section
/-! PROOFS. The notice sources: what NOTICE LEVELS and NOTICE CLEAR answer and change (R180, R182). -/

namespace Sys2Proof.Machine

/-! ### NOTICE LEVELS -/

theorem exec_noticeLevels (tag : Byte) (levels : Tab 29 Byte) (s : State) :
    exec (.noticeLevels tag levels) s = request tag 0x1F (handleNoticeLevels levels) s := rfl

theorem any_toList_iff {n : Nat} {α : Type} (t : Tab n α) (p : α → Bool) :
    t.toList.any p = true ↔ ∃ i, p (t.look i) = true := by
  rw [Vector.any_toList, Vector.any_eq_true]
  exact ⟨fun ⟨i, hi, h⟩ => ⟨⟨i, hi⟩, h⟩, fun ⟨i, h⟩ => ⟨i.val, i.isLt, h⟩⟩

theorem handleNoticeLevels_above (levels : Tab 29 Byte) (n : Fin 29) (s : State) (above : 7 < (levels.look n).toNat) :
    handleNoticeLevels levels s = refuse .badField s := by
  have fails : levels.toList.any (7 < ·.toNat) = true := (any_toList_iff _ _).mpr ⟨n, decide_eq_true above⟩
  exact checked_fails _ _ _ _ (by rw [fails]; rfl)

/-- R180: every source takes its new level. -/
def withLevels (levels : Tab 29 Byte) (w : Settings) : Settings := { w with noticeLevels := levels.map (·.toNat) }

theorem handleNoticeLevels_inRange (levels : Tab 29 Byte) (s : State) (inRange : levels.every (·.toNat ≤ 7) = true) :
    handleNoticeLevels levels s = accept (fun s => { s with working := withLevels levels s.working }) s := by
  have passes : levels.toList.any (7 < ·.toNat) = false := by
    rw [Bool.eq_false_iff, Ne, any_toList_iff]
    rintro ⟨n, above⟩
    have low := (every_iff _ _).mp inRange n
    exact Nat.not_lt.mpr (of_decide_eq_true low) (of_decide_eq_true above)
  exact checked_passes _ _ _ (by rw [passes]; rfl)

/-! ### NOTICE CLEAR -/

/-- A reply leaves the pending flags as the effect left them. -/
theorem SameButReply.noticePending_eq {u t : State} (h : SameButReply u t) : t.noticePending = u.noticePending :=
  congrArg (·.noticePending) h

theorem exec_noticeClear (tag : Byte) (mask : BitVec 32) (s : State) :
    exec (.noticeClear tag mask) s = request tag 0x21 (handleNoticeClear mask) s := rfl

/-- R182: bits 29 to 31 of a mask are clear exactly where its value lies below 2 ^ 29. -/
theorem reservedBits_clear_iff (mask : BitVec 32) :
    (mask.getLsbD 29 || mask.getLsbD 30 || mask.getLsbD 31) = false ↔ mask.toNat < 2 ^ 29 := by
  simp only [Bool.or_eq_false_iff]
  constructor
  · rintro ⟨⟨clear29, clear30⟩, clear31⟩
    refine Nat.lt_pow_two_of_testBit _ fun i hi => ?_
    rcases Nat.lt_or_ge i 32 with inside | outside
    · have reserved : i = 29 ∨ i = 30 ∨ i = 31 := by omega
      obtain rfl | rfl | rfl := reserved
      · exact clear29
      · exact clear30
      · exact clear31
    · exact mask.getLsbD_of_ge i outside
  · intro small
    have clear (i : Nat) (hi : 29 ≤ i) : mask.getLsbD i = false :=
      Nat.testBit_lt_two_pow (Nat.lt_of_lt_of_le small (Nat.pow_le_pow_right (by decide) hi))
    exact ⟨⟨clear 29 (by decide), clear 30 (by decide)⟩, clear 31 (by decide)⟩

/-- What NOTICE CLEAR leaves of `s`: the flags that the mask names are clear. -/
def clearFlags (mask : BitVec 32) (s : State) : State :=
  { s with noticePending := Vector.ofFn fun n => s.noticePending.look n && !mask.getLsbD n.val }

@[simp] theorem clearFlags_replies (mask : BitVec 32) (s : State) : (clearFlags mask s).replies = s.replies := by
  rw [clearFlags]

@[simp] theorem clearFlags_sending (mask : BitVec 32) (s : State) : (clearFlags mask s).sending = s.sending := by
  rw [clearFlags]

theorem clearFlags_sameButNotices (mask : BitVec 32) (s : State) : SameButNotices s (clearFlags mask s) := by
  rw [SameButNotices, clearFlags]

@[simp] theorem clearFlags_look (mask : BitVec 32) (n : Fin 29) (s : State) :
    (clearFlags mask s).noticePending.look n = (s.noticePending.look n && !mask.getLsbD n.val) := look_ofFn ..

theorem handleNoticeClear_badMask (mask : BitVec 32) (s : State) (large : 2 ^ 29 ≤ mask.toNat) :
    handleNoticeClear mask s = refuse .badField s := by
  have fails : (mask.getLsbD 29 || mask.getLsbD 30 || mask.getLsbD 31) = true := by
    rw [← Bool.not_eq_false, reservedBits_clear_iff]
    exact Nat.not_lt.mpr large
  exact checked_fails _ _ _ _ (by rw [fails]; rfl)

theorem handleNoticeClear_mask (mask : BitVec 32) (s : State) (small : mask.toNat < 2 ^ 29) :
    handleNoticeClear mask s = accept (clearFlags mask) s :=
  checked_passes _ _ _ (by rw [(reservedBits_clear_iff mask).mpr small]; rfl)

/-- Settles O40: each request turns on its one check; the levels change the working copy alone, the mask the pending flags
alone. -/
theorem noticeRequestsAct : Obligations.NoticeRequestsAct := by
  intro tag levels mask n s hq
  rw [exec_noticeLevels, exec_noticeClear]
  refine ⟨fun above => ?_, fun inRange => ?_, fun large => ?_, fun small => ?_⟩
  · exact request_refuses _ _ _ .badField s hq (handleNoticeLevels_above levels n s above)
  · obtain ⟨t, reached, answered, same⟩ :=
      request_stores tag 0x1F _ _ _ s hq (handleNoticeLevels_inRange levels s inRange) rfl
    have stored : t.working.noticeLevels = levels.map (·.toNat) := by rw [same.working_eq, withLevels]
    exact ⟨t, reached, answered, by rw [stored]; exact same, by rw [stored, look_map]⟩
  · exact request_refuses _ _ _ .badField s hq (handleNoticeClear_badMask mask s large)
  · obtain ⟨t, reached, answered, same⟩ :=
      request_accepts tag 0x21 _ _ s hq (handleNoticeClear_mask mask s small) (by simp) (by simp)
    exact ⟨t, reached, answered, same.sameButNotices (clearFlags_sameButNotices mask s),
      by rw [same.noticePending_eq, clearFlags_look]⟩

end Sys2Proof.Machine
end
section
/-! PROOFS. The two kinds of command: a request, which is handled by one of the 33 handlers whether it comes as a command or as
a frame, and an event, which is one effect with the notice choice at its end. -/

namespace Sys2Proof.Machine

/-! ### Requests -/

/-- The handler of a request command; a command that is no request has none. -/
def handlerOf : Instr → Option Handler
  | .status _ => some handleStatus
  | .settingsRead _ => some handleSettingsRead
  | .settingsWrite _ b => some (handleSettingsWrite b)
  | .store _ => some handleStore
  | .strandRead _ k => some (handleStrandRead k)
  | .strandSettings _ k b => some (handleStrandSettings k b)
  | .start _ k => some (handleStart k)
  | .abort _ k => some (handleAbort k)
  | .strandControl _ k level draw mode choice => some (handleStrandControl k level draw mode choice)
  | .resume _ k => some (handleResume k)
  | .clearStrand _ k => some (handleClearStrand k)
  | .service _ k r => some (handleService k r)
  | .faultRead _ k => some (handleFaultRead k)
  | .faultClear _ k => some (handleFaultClear k)
  | .planWrite _ n p => some (handlePlanWrite n p)
  | .planRead _ n => some (handlePlanRead n)
  | .planErase _ n => some (handlePlanErase n)
  | .protect _ w r => some (handleProtect w r)
  | .unprotect _ w r => some (handleUnprotect w r)
  | .mapRead _ w => some (handleMapRead w)
  | .mapWrite _ b => some (handleMapWrite b)
  | .mapDisable _ w => some (handleMapDisable w)
  | .arbiterRead _ p => some (handleArbiterRead p)
  | .arbiterWrite _ b => some (handleArbiterWrite b)
  | .includeStrand _ k p => some (handleInclude k p)
  | .tundishChange _ => some handleTundishChange
  | .tundishInPlace _ => some handleTundishInPlace
  | .tundishAbort _ => some handleTundishAbort
  | .tripArm _ => some handleTripArm
  | .tripReset _ => some handleTripReset
  | .noticeLevels _ l => some (handleNoticeLevels l)
  | .noticePoll _ => some handleNoticePoll
  | .noticeClear _ m => some (handleNoticeClear m)
  | _ => none

/-- A request command is its handler's request, with the tag and the kind of its frame. -/
theorem exec_request {i : Instr} {f : Frame} (hf : requestFrame? i = some f) :
    ∃ h, handlerOf i = some h ∧ ∀ s, exec i s = request f.tag f.kind h s := by
  cases i <;> cases hf <;> exact ⟨_, rfl, fun _ => rfl⟩

/-- What a received request of any kind is handled by: a request command's handler, or a refusal of its kind or body. -/
def IsHandler (h : Handler) : Prop := (∃ i, handlerOf i = some h) ∨ ∃ c, h = refuse c

theorem IsHandler.refused (c : ReplyCode) : IsHandler (refuse c) := .inr ⟨c, rfl⟩

theorem IsHandler.of_command {h : Handler} (i : Instr) (hi : handlerOf i = some h) : IsHandler h := .inl ⟨i, hi⟩

/-! A body of the wrong length is refused; a body of the right one reaches the request's handler. -/

theorem bare_isHandler {h : Handler} (hh : IsHandler h) (l : List Byte) : IsHandler (bare h l) := by
  unfold bare; split
  · exact hh
  · exact .refused _

theorem oneByte_isHandler {h : Byte → Handler} (hh : ∀ a, IsHandler (h a)) (l : List Byte) : IsHandler (oneByte h l) := by
  unfold oneByte; split
  · exact hh _
  · exact .refused _

theorem twoBytes_isHandler {h : Byte → Byte → Handler} (hh : ∀ a b, IsHandler (h a b)) (l : List Byte) :
    IsHandler (twoBytes h l) := by
  unfold twoBytes; split
  · exact hh _ _
  · exact .refused _

theorem receivePlanWrite_isHandler (l : List Byte) : IsHandler (receivePlanWrite l) := by
  unfold receivePlanWrite; split
  · split
    · exact .refused _
    · split
      · exact .of_command (.planWrite 0 _ _) rfl
      · exact .refused _
  · exact .refused _

theorem receiveArbiterWrite_isHandler (l : List Byte) : IsHandler (receiveArbiterWrite l) := by
  unfold receiveArbiterWrite; split
  · split
    · exact .of_command (.arbiterWrite 0 _) rfl
    · exact .refused _
  · split
    · exact .of_command (.arbiterWrite 0 _) rfl
    · exact .refused _
  · exact .refused _

/-- A request received as a frame is handled as a request command is, or refused (section 10.3). -/
theorem receivedRequest_isHandler (kind : Byte) (body : List Byte) : IsHandler (receivedRequest kind body) := by
  unfold receivedRequest
  split
  · exact bare_isHandler (.of_command (.status 0) rfl) _
  · exact bare_isHandler (.of_command (.settingsRead 0) rfl) _
  · unfold receiveSettingsWrite; split
    · exact .of_command (.settingsWrite 0 _) rfl
    · exact .refused _
  · exact bare_isHandler (.of_command (.store 0) rfl) _
  · exact oneByte_isHandler (fun a => .of_command (.strandRead 0 a) rfl) _
  · unfold receiveStrandSettings; split
    · exact .of_command (.strandSettings 0 _ _) rfl
    · exact .refused _
  · exact oneByte_isHandler (fun a => .of_command (.start 0 a) rfl) _
  · exact oneByte_isHandler (fun a => .of_command (.abort 0 a) rfl) _
  · unfold receiveStrandControl; split
    · exact .of_command (.strandControl 0 _ _ _ _ _) rfl
    · exact .refused _
  · exact oneByte_isHandler (fun a => .of_command (.resume 0 a) rfl) _
  · exact oneByte_isHandler (fun a => .of_command (.clearStrand 0 a) rfl) _
  · exact twoBytes_isHandler (fun a b => .of_command (.service 0 a b) rfl) _
  · exact oneByte_isHandler (fun a => .of_command (.faultRead 0 a) rfl) _
  · exact oneByte_isHandler (fun a => .of_command (.faultClear 0 a) rfl) _
  · exact receivePlanWrite_isHandler _
  · exact oneByte_isHandler (fun a => .of_command (.planRead 0 a) rfl) _
  · exact oneByte_isHandler (fun a => .of_command (.planErase 0 a) rfl) _
  · exact twoBytes_isHandler (fun a b => .of_command (.protect 0 a b) rfl) _
  · exact twoBytes_isHandler (fun a b => .of_command (.unprotect 0 a b) rfl) _
  · exact oneByte_isHandler (fun a => .of_command (.mapRead 0 a) rfl) _
  · unfold receiveMapWrite; split
    · exact .of_command (.mapWrite 0 _) rfl
    · exact .refused _
  · exact oneByte_isHandler (fun a => .of_command (.mapDisable 0 a) rfl) _
  · exact oneByte_isHandler (fun a => .of_command (.arbiterRead 0 a) rfl) _
  · exact receiveArbiterWrite_isHandler _
  · exact twoBytes_isHandler (fun a b => .of_command (.includeStrand 0 a b) rfl) _
  · exact bare_isHandler (.of_command (.tundishChange 0) rfl) _
  · exact bare_isHandler (.of_command (.tundishInPlace 0) rfl) _
  · exact bare_isHandler (.of_command (.tundishAbort 0) rfl) _
  · exact bare_isHandler (.of_command (.tripArm 0) rfl) _
  · exact bare_isHandler (.of_command (.tripReset 0) rfl) _
  · unfold receiveNoticeLevels; split
    · exact .of_command (.noticeLevels 0 _) rfl
    · exact .refused _
  · exact bare_isHandler (.of_command (.noticePoll 0) rfl) _
  · unfold receiveNoticeClear; split
    · exact .of_command (.noticeClear 0 _) rfl
    · exact .refused _
  · exact .refused _

/-! ### Events -/

/-- What the expiry of a step timer does (R55). -/
def stepTimerEffect (k : Strand) (s : State) : State :=
  match s.action? k with
  | some a => if stepTimed k s then stepExpiry k a s else s
  | none => s

theorem execStepTimerExpiry_eq (k : Strand) (s : State) : execStepTimerExpiry k s = finish (stepTimerEffect k s) := by
  unfold execStepTimerExpiry stepTimerEffect
  cases s.action? k <;> rfl

/-- What a command that is no request and no received byte does before the notice choice at its end. -/
def effect : Instr → State → State
  | .reset, s => restart s
  | .gapTimerExpiry, s => { s with receiver := .hunting }
  | .transmissionEnd, s => endSending s
  | .storeWriteEnd w, s => endWrite w s
  | .filterSample (.classA p), s => takeClassA p s
  | .filterSample (.classB p), s => takeClassB p s
  | .steelPresentFirstLevel k b, s =>
    if s.isConfigured k ∧ (s.strand k).check = .pending then endStartUp k b s else s
  | .supplyOkFirstLevel b stamp, s => takeFirstSupply b stamp s
  | .breakoutAlarmRise k, s => if s.inService k then takeBreakout k s else s
  | .driveReadyFall k, s => if s.inService k then takeReadyFall k s else s
  | .driveReadyRise k, s => if s.inService k then stepReadyRise k s else s
  | .permissiveLevelChange line, s => inOpenOrder examineCheck (lineStrands line s).length (lineStrands line s) s
  | .supplyOkFall stamp, s => takeSupplyFall stamp s
  | .supplyOkRise stamp, s => takeSupplyRise stamp s
  | .tcRequestRise, s => takeTcRequest s
  | .tundishInPlaceRise, s => takeTundishInPlace s
  | .measurementInstant c, s => takeMeasurement c s
  | .depthSampleUnit k x, s => if s.inService k then unitDepth k x s else s
  | .depthSampleOpenStep k (.valid d), s => if s.inService k then openStepDepth k d s else s
  | .speedReferenceSample k (.valid v), s =>
    if s.inService k then referenceReport k v (updUnit k (UnitState.takeReference v) s) else s
  | .weightSample (.valid w), s => takeWeight w s
  | .tripSample b, s => takeTrip b { s with port := { s.port with trip := b } }
  | .holdTimerExpiry k, s => if (s.strand k).holdTimer.running then holdExpiry k s else s
  | .stepTimerExpiry k, s => stepTimerEffect k s
  | .preChargeEnd k, s => if s.phase k = .preCharge then openForAttempt k s else s
  | .retryDwellEnd k, s => if s.phase k = .retryDwell then openForAttempt k s else s
  | .inrushHoldEnd k, s => if s.phase k = .inrush then drain [.inrushEnd k] s else s
  | .pourResponseExpiry k, s => if responseRunning .pour k s then pourExpiry k s else s
  | .driveResponseExpiry k, s => if responseRunning .drive k s then driveExpiry k s else s
  | .rampTargetReached k, s =>
    if (s.unit k).ramp.isSome then targetReport k (updUnit k UnitState.reachTarget s) else s
  | .rideThroughExpiry, s => rideExpiry s
  | .settleExpiry, s => settleEnd s
  | .stepFailureClaim k c, s => takeFailure k c s
  | .restartCompleteClaim k n, s => takeCompletion k n s
  | _, s => s

/-- Whether a command is an event: no request and no received byte. -/
def isEvent (i : Instr) : Prop := requestFrame? i = none ∧ ∀ b, i ≠ .receivedByte b

/-- An event is its effect, with the notice choice at the end (log 11). -/
theorem exec_event {i : Instr} (hi : isEvent i) (s : State) : exec i s = .next (noticeChoice (effect i s)) := by
  cases i
  case receivedByte b => exact absurd rfl (hi.2 b)
  case filterSample x => cases x <;> rfl
  case depthSampleOpenStep k x => cases x <;> rfl
  case speedReferenceSample k x => cases x <;> rfl
  case weightSample x => cases x <;> rfl
  case stepTimerExpiry k => exact execStepTimerExpiry_eq k s
  all_goals first | exact absurd hi.1 (Option.some_ne_none _) | rfl

/-- Every command is a request, a received byte or an event. -/
theorem command_cases (i : Instr) : (∃ f, requestFrame? i = some f) ∨ (∃ b, i = .receivedByte b) ∨ isEvent i := by
  by_cases hb : ∃ b, i = .receivedByte b
  · exact .inr (.inl hb)
  · cases hf : requestFrame? i with
    | some f => exact .inl ⟨f, rfl⟩
    | none => exact .inr (.inr ⟨hf, fun b hi => hb ⟨b, hi⟩⟩)

/-- A received byte moves the receiver alone, or completes a frame, which is handled as a request (R185). -/
theorem receiveByte_cases (b : Byte) (s : State) :
    (∃ r, receiveByte b s = { s with receiver := r }) ∨
      ∃ tag kind h, IsHandler h ∧ receiveByte b s = handleRequest tag kind h { s with receiver := .hunting } := by
  unfold receiveByte
  split
  · split
    · exact .inl ⟨_, rfl⟩
    · exact .inl ⟨s.receiver, rfl⟩
  · unfold takeAssembly
    split
    · exact .inl ⟨_, rfl⟩
    · exact .inl ⟨_, rfl⟩
    · exact .inr ⟨_, _, _, receivedRequest_isHandler _ _, rfl⟩

end Sys2Proof.Machine
end
section
/-! PROOFS. What every step keeps, reduced to what the named updates keep: a law is shown for each update once, and the walk
through the operations of the blocks, the handlers and the events is made once for all the laws. -/

namespace Sys2Proof.Machine

/-! ### The updates and their occasions -/

/-- The two states agree on everything the laws of the strand blocks read; pending flags may have been cleared. -/
def SameCore (s t : State) : Prop :=
  t.strands = s.strands ∧ t.units = s.units ∧ t.pour = s.pour ∧ t.drive = s.drive ∧ t.coordinator = s.coordinator ∧
  t.faults = s.faults ∧ t.working = s.working ∧ t.configuredCount = s.configuredCount ∧
  ∀ n, t.noticePending.look n = true → s.noticePending.look n = true

/-- Strand `k` is no unfitted strand at its reset values: it is configured, or not OFFLINE, or its hold timer runs. -/
def Live (s : State) (k : Strand) : Prop :=
  s.isConfigured k = true ∨ (s.strand k).condition.isOffline = false ∨ (s.strand k).holdTimer.running = true

/-- The unit's law as a relation of a condition, a level parameter set and the unit's fields. -/
def unitLawOf (c : Condition) (p : LevelParams) (u : UnitState) : Bool :=
  (!u.draw || (u.levelOn && c.restartingOrCasting))
    && (!u.levelOn || p.lockBand != 0)
    && (detectorActive p u || (!u.lock && u.inCount == 0 && u.outCount == 0))
    && (match u.stopper with
      | .fill _ => true
      | .regulator => u.levelOn
      | .closed => !u.levelOn)

theorem unitLawAt_eq (s : State) (k : Strand) :
    unitLawAt s k = unitLawOf (s.strand k).condition (s.levelSet k) (s.unit k) := rfl

/-- The change `f` of strand `k`'s unit keeps the unit's law. -/
def UnitOK (s : State) (k : Strand) (f : UnitState → UnitState) : Prop :=
  unitLawOf (s.strand k).condition (s.levelSet k) (s.unit k) = true →
    unitLawOf (s.strand k).condition (s.levelSet k) (f (s.unit k)) = true

/-- A change of a context that keeps its condition and hold flags, and may stop the hold timer of a restart. -/
def SmallChange (s : State) (k : Strand) (f : StrandContext → StrandContext) : Prop :=
  let c := s.strand k
  (f c).condition = c.condition ∧ (f c).heldForTundish = c.heldForTundish ∧ (f c).heldForDip = c.heldForDip ∧
  (f c).heldByOperator = c.heldByOperator ∧
  ((f c).holdTimer.running = c.holdTimer.running ∨ ((f c).holdTimer.running = false ∧ (s.record? k).isSome = true))

/-- The Coordinator's changes (R126, R129, R130, R133, R135, R137, R138): the state and the set kept; a passage between two
states other than RELEASING; the set emptied; the entry into RELEASING with the strands HELD for the tundish. -/
def CoordinatorMove (s : State) (c : Coordinator) : Prop :=
  (c.state = s.coordinator.state ∧ c.releaseSet = s.coordinator.releaseSet) ∨
  (s.coordinator.state ≠ .releasing ∧ c.state ≠ .releasing ∧ c.releaseSet = s.coordinator.releaseSet) ∨
  c.releaseSet.isEmpty = true ∨
  (c.state = .releasing ∧ c.releaseSet = Vector.ofFn (heldForTundish s))

/-- The record `r'` is that of the same restart as `r`, at the same step or a later one. -/
def RestartRecord.Onward (r r' : RestartRecord) : Prop :=
  r'.serial = r.serial ∧ r'.kind = r.kind ∧ r'.planNumber = r.planNumber ∧ r'.snapshot = r.snapshot ∧
    r.stepIndex ≤ r'.stepIndex

/-- Strand `k`, where it is RESTARTING, has left the Slot Arbiter. -/
def Freed (s : State) (k : Strand) : Prop := (s.record? k).isSome = true → Withdrawn s k

/-- A context of a strand at rest: DRY, HALTED or OFFLINE, no hold flag, the hold timer stopped. -/
def Settled (c : StrandContext) : Prop :=
  c.condition.waitsForHost = true ∧ c.anyHold = false ∧ c.holdTimer.running = false

/-- The context of a strand that enters HELD (R11). -/
def StrandContext.hold (f : HoldFlag) (c : StrandContext) : StrandContext :=
  { StrandContext.setFlag f true c with
    condition := .held
    driveLost := c.driveLost || f == .dip
    holdTimer := c.holdTimer.start }

/-- The context of a strand that enters CASTING (R17). -/
def StrandContext.cast (c : StrandContext) : StrandContext :=
  { c with condition := .casting, holdTimer := { c.holdTimer with running := false } }

/-- The settings of strand `k` may be replaced by `p` and `l` (R102, R105, R193). -/
def MayStoreStrand (s : State) (k : Strand) (p : StrandSettings) (l : LevelParams) : Prop :=
  strandInRange p = true ∧ levelInRange l = true ∧ (l = s.levelSet k ∨ (s.unit k).levelOn = false)

/-- The window `n` may be replaced by `w` (R43 to R45). -/
def MayStoreWindow (s : State) (n : Fin 8) (w : GradeWindow) : Prop :=
  (w.sizeExp ≤ 12 ∧ aligned w.base w.sizeExp = true ∧ (w.base ≤ 65535 ∨ w.base = (s.working.windows.look n).base)) ∨
  w = { s.working.windows.look n with enabled := false }

/-! ### What a law's updates keep -/

/-- `P` is kept by the updates that neither ask for a slot nor give one back. -/
structure UpdatesKeep (P : State → Prop) : Prop where
  same : ∀ s t, SameCore s t → P s → P t
  pend : ∀ src s, P s → P (pend src s)
  record : ∀ k f s, (∀ r : RestartRecord, r.Onward (f r)) → P s → P (modRecord k f s)
  modGrant : ∀ p k f s, P s → P (modGrant p k f s)
  unit : ∀ k f s, Live s k ∨ f UnitState.initial = UnitState.initial → UnitOK s k f → P s → P (updUnit k f s)

/-- `P` is kept by the updates that the tasks of an action are made of. -/
structure TasksKeep (P : State → Prop) : Prop extends UpdatesKeep P where
  join : ∀ p k s, (s.record? k).isSome = true → P s → P (joinWaits p k s)
  grant : ∀ p e rest s, (s.pool p).isOpen = true → (s.pool p).holderCount < capacity s p →
    (s.pool p).waits = e :: rest → P s → P (makeGrant p e.strand rest s)
  dropGrant : ∀ p k s, P s → P (dropGrant p k s)
  levels : ∀ k p s, s.action? k = some (.level (.plan p)) → p.lockBand ≠ 0 → P s →
    P { s with working := { s.working with levels := s.working.levels.put k p } }
  calm : ∀ k s, P s → P (modStrand k (fun c => { c with driveLost := false }) s)

/-- The family `Q` is kept by the updates that the operations at one strand, the settings and the clock are made of. `Q none`
is a law, and `Q (some k)` the law but for strand `k`, as it stands within a change of that strand's condition. -/
structure StrandKept (Q : Option Strand → State → Prop) : Prop where
  weaken : ∀ k s, Q none s → Q (some k) s
  updates : ∀ o, UpdatesKeep (Q o)
  drain : ∀ o l s, Q o s → Q o (drain l s)
  release : ∀ o p k l s, .grantChoice p ∈ l → Q o s → Q o (Machine.drain l (dropGrant p k s))
  dropEntry : ∀ o p k s, Q o s → Q o (dropEntry p k s)
  excluded : ∀ p m s, Q none s → Q none (modPool p (fun x => { x with excluded := m }) s)
  cleared : ∀ p s, Q none s → Q none (clearPool p s)
  small : ∀ k f s, Live s k → SmallChange s k f → Q none s → Q none (modStrand k f s)
  fault : ∀ k c d s, Live s k → Q (some k) s → Q (some k) (writeFault k c d s)
  faultAtRest : ∀ k c d s, Live s k → (s.strand k).condition.waitsForHost = true → Q none s → Q none (writeFault k c d s)
  noFault : ∀ k s, Q none s → Q none { s with faults := s.faults.put k none }
  setFlag : ∀ k f s, (s.strand k).condition = .held → Q none s → Q none (modStrand k (StrandContext.setFlag f true) s)
  clearFlag : ∀ k f s, Live s k → (s.strand k).flag f = true →
    ((s.strand k).condition = .held → ((s.strand k).setFlag f false).anyHold = true) →
    Q none s → Q none (modStrand k (StrandContext.setFlag f false) s)
  clearLast : ∀ k f s, Live s k → Q none s → Q (some k) (modStrand k (StrandContext.setFlag f false) s)
  breakout : ∀ k c s, (s.strand k).condition = .halted c → Q none s →
    Q none (modStrand k (fun c => { c with condition := .halted .breakout }) s)
  settle : ∀ k f s, (∀ c, Settled (f c)) → Live s k → Freed s k → (s.unit k).draw = false → Q (some k) s →
    Q none (reportSettled k (modStrand k f s))
  hold : ∀ k f s, (s.strand k).condition.restartingOrCasting = true → Freed s k → (s.unit k).draw = false →
    Q none s → Q none (modStrand k (StrandContext.hold f) s)
  cast : ∀ k s, (s.record? k).isSome = true → Withdrawn s k → Q none s →
    Q none (reportSettled k (modStrand k StrandContext.cast s))
  restartDry : ∀ k r n s, (s.strand k).condition = .dry → s.faults.look k = none →
    s.working.plans.look n = some r.snapshot.plan → Q none s → Q none (setCondition k (.restarting r) s)
  restartHeld : ∀ k f r n s, (s.strand k).condition = .held → ((s.strand k).setFlag f false).anyHold = false →
    s.working.plans.look n = some r.snapshot.plan → Q none s →
    Q none (setCondition k (.restarting r) (modStrand k (StrandContext.setFlag f false) s))
  tick : ∀ s, Q none s → Q none (tick s)
  caster : ∀ c s, casterInRange c = true → Q none s → Q none { s with working := { s.working with caster := c } }
  strandSettings : ∀ k p l s, MayStoreStrand s k p l → Q none s → Q none (storeStrand k p l s)
  plan : ∀ n p s, slotInRange p = true → Q none s → Q none (storeSlot n p s)
  banks : ∀ b s, Q none s → Q none { s with working := { s.working with banks := b } }
  window : ∀ n w s, MayStoreWindow s n w → Q none s → Q none (storeWindow n w s)
  pour : ∀ p s, pourInRange p = true → s.pour.inUse = false → Q none s → Q none (storePour p s)
  drive : ∀ p s, driveInRange p = true → s.drive.inUse = false → Q none s → Q none (storeDrive p s)
  noticeLevels : ∀ l s, l.every (· ≤ 7) = true → Q none s →
    Q none { s with working := { s.working with noticeLevels := l } }

/-- The family `Q` is kept as well by the updates that the caster-wide operations add: the pools opened and closed, the
Coordinator moved, and reset. -/
structure Kept (Q : Option Strand → State → Prop) : Prop extends StrandKept Q where
  opened : ∀ p s, Q none s → Q none (Machine.drain [.grantChoice p] (modPool p (fun x => { x with isOpen := true }) s))
  closed : ∀ p s, Q none s → Q none (closePool p s)
  coordinator : ∀ c s, CoordinatorMove s c → Q none s → Q none { s with coordinator := c }
  reset : ∀ s, Q none s → Q none (Machine.restart s)

end Sys2Proof.Machine
end
section
/-! PROOFS. The walk through the tasks of an action: what its updates keep, every task keeps. -/

namespace Sys2Proof.Machine

/-! ### Who is live -/

theorem record?_of_condition {s t : State} {k : Strand} (h : (t.strand k).condition = (s.strand k).condition) :
    t.record? k = s.record? k := by
  simp only [State.record?, h]

theorem isOffline_of_name {c d : Condition} (h : c.name = d.name) : c.isOffline = d.isOffline := by
  cases c <;> cases d <;> first | rfl | cases h

theorem record?_isSome_of_name {c d : Condition} (h : c.name = d.name) : c.record?.isSome = d.record?.isSome := by
  cases c <;> cases d <;> first | rfl | cases h

theorem live_of_record {s : State} {k : Strand} (h : (s.record? k).isSome = true) : Live s k := by
  right; left
  simp only [State.record?] at h
  cases hc : (s.strand k).condition <;> first | rfl | simp [hc, Condition.record?] at h

/-- Strand `k` is live in `t` where its condition's name, its hold timer and the configured count are those of `s`. -/
theorem live_of {s t : State} {k : Strand} (hn : (t.strand k).condition.name = (s.strand k).condition.name)
    (ht : (t.strand k).holdTimer = (s.strand k).holdTimer) (hc : t.configuredCount = s.configuredCount)
    (h : Live s k) : Live t k := by
  simpa only [Live, State.isConfigured, hc, isOffline_of_name hn, ht] using h

theorem live_of_carried {s t : State} {k : Strand} (c : Carried s t) (h : Live s k) : Live t k := by
  obtain ⟨⟨⟨-, -, hc, -⟩, -⟩, hs, -⟩ := c
  obtain ⟨hn, -, -, -, -, ht, -⟩ := hs k
  exact live_of hn ht hc h

theorem record?_isSome_of_carried {s t : State} {k : Strand} (c : Carried s t) :
    (t.record? k).isSome = (s.record? k).isSome :=
  record?_isSome_of_name (c.2.1 k).1

/-! ### Changes of a unit that keep its law -/

section
variable {s : State} {k : Strand}

theorem detectorActive_eq (p : LevelParams) (u : UnitState) :
    detectorActive p u = (u.levelOn && u.controlMode == .auto && p.lockBand != 0) := rfl

/-- A change of no field that the unit's law reads. -/
theorem unitOK_of_same {f : UnitState → UnitState}
    (h : ∀ u, (f u).draw = u.draw ∧ (f u).levelOn = u.levelOn ∧ (f u).controlMode = u.controlMode ∧ (f u).lock = u.lock ∧
      (f u).inCount = u.inCount ∧ (f u).outCount = u.outCount ∧ (f u).stopper = u.stopper) : UnitOK s k f := by
  intro hu
  obtain ⟨h1, h2, h3, h4, h5, h6, h7⟩ := h (s.unit k)
  simpa only [unitLawOf, detectorActive_eq, h1, h2, h3, h4, h5, h6, h7] using hu

/-- A condition claim brings every engagement to rest (R109). -/
theorem unitOK_rest (b : Bool) (z : Zones) : UnitOK s k (UnitState.rest b z) := fun _ => rfl

theorem unitOK_openStopper (n : Nat) : UnitOK s k (UnitState.openStopper n) := by
  intro hu
  simp only [unitLawOf, detectorActive_eq, UnitState.openStopper, Bool.and_eq_true] at hu ⊢
  exact ⟨hu.1, trivial⟩

theorem unitOK_endFill : UnitOK s k UnitState.endFill := by
  intro hu
  unfold UnitState.endFill
  split
  · simp only [unitLawOf, detectorActive_eq, Bool.and_eq_true] at hu ⊢
    refine ⟨hu.1, ?_⟩
    cases (s.unit k).levelOn <;> rfl
  · exact hu
  · exact hu

theorem unitOK_comp {f g : UnitState → UnitState}
    (hg : ∀ u, unitLawOf (s.strand k).condition (s.levelSet k) u = true →
      unitLawOf (s.strand k).condition (s.levelSet k) (g u) = true) (hf : UnitOK s k f) : UnitOK s k (fun u => g (f u)) :=
  fun h => hg _ (hf h)

end

/-! ### The step at hand -/

theorem record?_of_action {s : State} {k : Strand} {a : Action} (h : s.action? k = some a) :
    (s.record? k).isSome = true := by
  unfold State.action? at h
  cases hr : s.record? k with
  | some r => rfl
  | none => simp [hr] at h

theorem record?_of_phase {s : State} {k : Strand} {ph : Phase} (h : s.phase k = ph) (hp : ph ≠ .noPhase) :
    (s.record? k).isSome = true := by
  unfold State.phase at h
  split at h
  · next r hr => rw [hr]; rfl
  · exact absurd h.symm hp

theorem setMode_fields (m : ControlMode) (u : UnitState) :
    (u.setMode m).controlMode = m ∧ (u.setMode m).draw = u.draw ∧ (u.setMode m).levelOn = u.levelOn ∧
      (u.setMode m).stopper = u.stopper := by
  unfold UnitState.setMode
  split
  · next h => exact ⟨h, rfl, rfl, rfl⟩
  · exact ⟨rfl, rfl, rfl, rfl⟩

theorem turnLevelOn_fields (u : UnitState) :
    u.turnLevelOn.controlMode = u.controlMode ∧ u.turnLevelOn.draw = u.draw ∧ u.turnLevelOn.levelOn = true ∧
      u.turnLevelOn.stopper ≠ .closed := by
  unfold UnitState.turnLevelOn
  dsimp only
  refine ⟨by split <;> rfl, by split <;> rfl, rfl, ?_⟩
  split <;> nofun

/-- LEVEL-ON turned on with a lock band that is not 0, in AUTO (R70, R107, R114). -/
theorem unitOK_turnLevelOn {s : State} {k : Strand} (hb : (s.levelSet k).lockBand ≠ 0) :
    UnitOK s k (fun u => (u.setMode .auto).turnLevelOn) := by
  intro hu
  obtain ⟨m1, m2, -, -⟩ := setMode_fields .auto (s.unit k)
  obtain ⟨t1, t2, t3, t4⟩ := turnLevelOn_fields ((s.unit k).setMode .auto)
  simp only [unitLawOf, Bool.and_eq_true, Bool.or_eq_true, Bool.not_eq_true'] at hu
  have hd : detectorActive (s.levelSet k) ((s.unit k).setMode .auto).turnLevelOn = true := by
    rw [detectorActive_eq, t1, t3, m1]
    simp [hb]
  simp only [unitLawOf, hd, t2, m2, t3, Bool.true_and, Bool.true_or, Bool.and_true, Bool.not_true, Bool.false_or,
    Bool.and_eq_true, Bool.or_eq_true, Bool.not_eq_true']
  refine ⟨⟨hu.1.1.1.imp id And.right, by simp [hb]⟩, ?_⟩
  split
  · rfl
  · rfl
  · next hs => exact absurd hs t4

theorem levelSet_writeSource (k : Strand) (src : LevelSource) (s : State) :
    ((writeSource k src s).levelSet k).lockBand = bandInForce s k src := by
  unfold Machine.writeSource bandInForce
  split
  · unfold writeLevelSet; dsimp only; split <;> simp [State.levelSet]
  · rfl

/-- Loading a step leaves its action. -/
theorem action?_loadStep (k : Strand) (p : Step) (s : State) : (loadStep k p s).action? k = s.action? k := by
  unfold loadStep
  cases hr : s.record? k with
  | none => simp [modRecord, hr]
  | some r =>
    rw [modRecord_of_record _ _ _ _ hr]
    simp only [State.action?, record?_withRecord, hr, Option.bind_some]
    rfl

/-! ### The tasks -/

section
variable {P : State → Prop} (U : UpdatesKeep P)
include U

theorem UpdatesKeep.toPhase (k : Strand) (ph : Phase) (t : Option Nat) (s : State) (h : P s) : P (toPhase k ph t s) :=
  U.record _ _ _ (fun _ => ⟨rfl, rfl, rfl, rfl, Nat.le_refl _⟩) h

theorem UpdatesKeep.stopStep (k : Strand) (s : State) (h : P s) : P (stopStep k s) :=
  U.record _ _ _ (fun _ => ⟨rfl, rfl, rfl, rfl, Nat.le_refl _⟩) h

theorem UpdatesKeep.emit (i : Instr) (s : State) (h : P s) : P (emit i s) :=
  U.same s _ ⟨rfl, rfl, rfl, rfl, rfl, rfl, rfl, rfl, fun _ h => h⟩ h

theorem UpdatesKeep.failStep (k : Strand) (f : StepFailure) (s : State) (h : P s) : P (failStep k f s) := by
  unfold Machine.failStep
  split
  · exact U.emit _ _ (U.stopStep _ _ h)
  · exact h

theorem UpdatesKeep.answer (p : PoolId) (k : Strand) (s : State) (h : P s) : P (answer p k s) := U.modGrant _ _ _ _ h

theorem UpdatesKeep.openForAttempt (k : Strand) (s : State) (h : P s) : P (openForAttempt k s) := by
  unfold Machine.openForAttempt
  split
  · next n hn =>
    have hr : (s.record? k).isSome = true := by
      unfold fillOpening at hn
      split at hn
      · next ha => exact record?_of_action ha
      · cases hn
    exact U.toPhase _ _ _ _ (U.modGrant _ _ _ _ (U.unit _ _ _ (.inl (live_of_record hr)) (unitOK_openStopper n) h))
  · exact h

theorem UpdatesKeep.enterInrush (k : Strand) (s : State) (h : P s) : P (enterInrush k s).1 :=
  U.toPhase _ _ _ _ (U.answer _ _ _ h)

theorem UpdatesKeep.takeDriveGrant (k : Strand) (s : State) (hr : (s.record? k).isSome = true) (h : P s) :
    P (takeDriveGrant k s).1 := by
  have hu : P (updUnit k UnitState.runDrive s) :=
    U.unit _ _ _ (.inl (live_of_record hr)) (unitOK_of_same fun _ => ⟨rfl, rfl, rfl, rfl, rfl, rfl, rfl⟩) h
  unfold Machine.takeDriveGrant
  dsimp only
  split
  · exact U.enterInrush _ _ hu
  · exact U.toPhase _ _ _ _ hu

theorem UpdatesKeep.takePourGrant (k : Strand) (s : State) (h : P s) : P (takePourGrant k s) := by
  unfold Machine.takePourGrant
  dsimp only
  split
  · exact U.openForAttempt _ _ h
  · split
    · exact U.openForAttempt _ _ (U.toPhase _ _ _ _ h)
    · exact U.toPhase _ _ _ _ h

theorem UpdatesKeep.deliverGrant (p : PoolId) (k : Strand) (s : State) (h : P s) : P (deliverGrant p k s).1 := by
  unfold Machine.deliverGrant
  split
  · next hp =>
    cases p
    · exact U.takePourGrant _ _ h
    · exact U.takeDriveGrant _ _ (record?_of_phase hp (by decide)) h
  · exact h

theorem UpdatesKeep.advanceStep (k : Strand) (s : State) (h : P s) : P (advanceStep k s) :=
  U.pend _ _ (U.record _ _ _ (fun _ => ⟨rfl, rfl, rfl, rfl, Nat.le_succ _⟩) (U.stopStep _ _ h))

theorem UpdatesKeep.finishStep (k : Strand) (s : State) (h : P s) : P (finishStep k s).1 := by
  unfold Machine.finishStep
  split
  · exact h
  · split
    · exact U.advanceStep _ _ h
    · exact U.emit _ _ (U.stopStep _ _ h)

end

section
variable {P : State → Prop} (T : TasksKeep P)
include T

theorem TasksKeep.grantPass (p : PoolId) (s : State) (h : P s) : P (grantPass p s).1 := by
  unfold Machine.grantPass
  split
  · next hg =>
    rw [Bool.and_eq_true, decide_eq_true_eq] at hg
    split
    · exact h
    · next e rest hw => exact T.deliverGrant _ _ _ (T.grant p e rest s hg.1 hg.2 hw h)
  · exact h

theorem TasksKeep.endInrush (k : Strand) (s : State) (h : P s) : P (endInrush k s).1 :=
  T.calm _ _ (T.dropGrant _ _ _ h)

theorem TasksKeep.requestSlot (p : PoolId) (k : Strand) (s : State) (hr : (s.record? k).isSome = true) (h : P s) :
    P (requestSlot p k s).1 := by
  unfold Machine.requestSlot
  split
  · exact T.failStep _ _ _ h
  · refine T.join _ _ _ ?_ (T.toPhase _ _ _ _ h)
    rw [record?_isSome_of_carried (toPhase_carried k .slotWait none s), hr]

theorem TasksKeep.writeSource (k : Strand) (src : LevelSource) (s : State) (ha : s.action? k = some (.level src))
    (hb : bandInForce s k src ≠ 0) (h : P s) : P (writeSource k src s) := by
  unfold Machine.writeSource
  split
  · next p =>
    have hs := T.levels k p s ha hb h
    unfold writeLevelSet
    dsimp only
    split
    · refine T.unit _ _ _ (.inl (live_of_record (k := k) ?_)) ?_ hs
      · exact record?_of_action (s := s) ha
      · intro hu
        simp only [unitLawOf, detectorActive_eq, UnitState.clearLock, Bool.and_eq_true] at hu ⊢
        exact ⟨⟨hu.1.1, by simp⟩, hu.2⟩
    · exact hs
  · exact h

theorem TasksKeep.beginLevel (k : Strand) (src : LevelSource) (s : State) (ha : s.action? k = some (.level src))
    (h : P s) : P (beginLevel k src s).1 := by
  unfold Machine.beginLevel
  split
  · exact T.failStep _ _ _ h
  · next hb =>
    have hr : ((Machine.writeSource k src s).record? k).isSome = true := by
      have c : Carried s (Machine.writeSource k src s) := by
        unfold Machine.writeSource
        split
        · exact writeLevelSet_carried _ _ _
        · exact Carried.refl _
      rw [record?_isSome_of_carried c]
      exact record?_of_action ha
    refine T.toPhase _ _ _ _ (T.unit _ _ _ (.inl (live_of_record hr)) (unitOK_turnLevelOn ?_) (T.writeSource k src s ha hb h))
    rw [levelSet_writeSource]
    exact hb

theorem TasksKeep.beginDraw (k : Strand) (a b c : Nat) (s : State) (hr : (s.record? k).isSome = true) (h : P s) :
    P (beginDraw k a b c s).1 := by
  unfold Machine.beginDraw
  split
  · exact T.toPhase _ _ _ _ (T.unit _ _ _ (.inl (live_of_record hr))
      (unitOK_of_same fun _ => ⟨rfl, rfl, rfl, rfl, rfl, rfl, rfl⟩) h)
  · split
    · next hd =>
      refine T.toPhase _ _ _ _ (T.unit _ _ _ (.inl (live_of_record hr)) (fun hu => ?_) h)
      have hc : (s.strand k).condition.restartingOrCasting = true := by
        simp only [State.record?] at hr
        cases hc : (s.strand k).condition <;> first | rfl | simp [hc, Condition.record?] at hr
      simp only [drawAllowed, Bool.and_eq_true] at hd
      simp only [unitLawOf, detectorActive_eq, UnitState.engageDraw, UnitState.giveRamp, Bool.and_eq_true] at hu ⊢
      exact ⟨⟨⟨by rw [hd.1, hc]; rfl, hu.1.1.2⟩, hu.1.2⟩, hu.2⟩
    · exact T.failStep _ _ _ h

theorem TasksKeep.beginAction (k : Strand) (a : Action) (s : State) (ha : s.action? k = some a) (h : P s) :
    P (beginAction k a s).1 := by
  have hr := record?_of_action ha
  cases a with
  | check m => exact T.toPhase _ _ _ _ h
  | cool z =>
    exact T.unit k (fun u => { u with cooling := z }) s (.inl (live_of_record hr))
      (unitOK_of_same fun _ => ⟨rfl, rfl, rfl, rfl, rfl, rfl, rfl⟩) h
  | drive => exact T.requestSlot _ _ _ hr h
  | opening => exact T.requestSlot _ _ _ hr h
  | level src => exact T.beginLevel _ _ _ ha h
  | wait => exact T.toPhase _ _ _ _ h
  | draw => exact T.beginDraw _ _ _ _ _ hr h
  | handover => exact T.toPhase _ _ _ _ h

theorem TasksKeep.beginStep (k : Strand) (s : State) (h : P s) : P (beginStep k s).1 := by
  unfold Machine.beginStep
  split
  · next p hp =>
    refine T.beginAction _ _ _ ?_ (T.record _ _ _ (fun _ => ⟨rfl, rfl, rfl, rfl, Nat.le_refl _⟩) h)
    rw [action?_loadStep]
    unfold State.action?
    cases hr : s.record? k with
    | none => simp [hr] at hp
    | some r => simp only [hr, Option.bind_some] at hp ⊢; rw [hp]; rfl
  · exact h

theorem TasksKeep.runTask (t : Task) (s : State) (h : P s) : P (runTask t s).1 := by
  cases t with
  | enterStep k => exact T.beginStep _ _ h
  | completeStep k => exact T.finishStep _ _ h
  | grantChoice p => exact T.grantPass _ _ h
  | inrushEnd k => exact T.endInrush _ _ h

/-- What the updates of the tasks keep, every action's tasks keep. -/
theorem TasksKeep.drain (l : List Task) (s : State) (h : P s) : P (drain l s) := drain_keeps T.runTask l s h

end

end Sys2Proof.Machine
end
section
/-! PROOFS. The walk through the Strand Table's operations: what a law's updates keep, every change of condition and every claim
keeps. -/

namespace Sys2Proof.Machine

/-! ### After an abandonment -/

theorem slotLawAt_of_record {s : State} {k : Strand} (h : (s.record? k).isSome = true) : slotLawAt s k = true := by
  simp only [State.record?] at h
  simp [slotLawAt, h]

/-- A step abandoned, a RESTARTING strand has left the Slot Arbiter (R76, R86). -/
theorem freed_abandon (k : Strand) (s : State) : Freed (abandon k s) k := by
  intro h
  rw [record?_isSome_of_carried (abandon_carried k s)] at h
  exact (abandon_own k s (slotLawAt_of_record h)).1

/-- A change of the unit leaves strands and pools. -/
theorem freed_updUnit {s : State} {k : Strand} (f : UnitState → UnitState) (h : Freed s k) : Freed (updUnit k f s) k := by
  intro hr
  have : ((updUnit k f s).record? k) = s.record? k := record?_of_condition (by simp [State.strand])
  rw [this] at hr
  simpa [Withdrawn] using h hr

theorem setCondition_pend (k : Strand) (c : Condition) (src : Source) (s : State) :
    setCondition k c (pend src s) = pend src (setCondition k c s) := by
  have e : src.mayPend (setCondition k c s) = src.mayPend s := by cases src <;> rfl
  unfold pend
  rw [e]
  split <;> rfl

theorem forgetGranted_modStrand (k : Strand) (f : StrandContext → StrandContext) (s : State) :
    forgetGranted k (modStrand k f s) = modStrand k f (forgetGranted k s) := by
  unfold forgetGranted
  rw [modStrand_lastGranted]
  split <;> rfl

theorem restartingOrCasting_of_name {c d : Condition} (h : c.name = d.name) :
    c.restartingOrCasting = d.restartingOrCasting := by
  cases c <;> cases d <;> first | rfl | cases h

theorem live_of_restartingOrCasting {s : State} {k : Strand} (h : (s.strand k).condition.restartingOrCasting = true) :
    Live s k := by
  right; left
  cases hc : (s.strand k).condition <;> first | rfl | (rw [hc] at h; cases h)

theorem restartingOrCasting_of_record {s : State} {k : Strand} {r : RestartRecord}
    (h : (s.strand k).condition = .restarting r) : (s.strand k).condition.restartingOrCasting = true := by rw [h]; rfl

theorem record?_of_restarting {s : State} {k : Strand} {r : RestartRecord}
    (h : (s.strand k).condition = .restarting r) : s.record? k = some r := by simp [State.record?, h, Condition.record?]

theorem live_of_held {s : State} {k : Strand} (h : (s.strand k).condition = .held) : Live s k := by
  right; left; rw [h]; rfl

theorem live_writeFault {s : State} {k : Strand} (c : FaultCode) (d : Nat) (h : Live s k) : Live (writeFault k c d s) k :=
  live_of (by simp [State.strand]) (by simp [State.strand]) (by simp) h

/-- The flag `f` cleared of a strand that has it set. -/
theorem modReported_clear {s : State} {k : Strand} {f : HoldFlag} (h : (s.strand k).flag f = true) :
    modReported k (StrandContext.setFlag f false) s = pend (.state k) (modStrand k (StrandContext.setFlag f false) s) := by
  unfold modReported
  rw [if_neg]
  intro he
  have : (StrandContext.setFlag f false (s.strand k)).flag f = false := by cases f <;> rfl
  rw [he, h] at this
  cases this

/-! ### The walk -/

section
variable {Q : Option Strand → State → Prop} (K : StrandKept Q)
include K

theorem StrandKept.same {o : Option Strand} {s t : State} (hc : SameCore s t) (h : Q o s) : Q o t := (K.updates o).same s t hc h

theorem StrandKept.pend {o : Option Strand} {s : State} (src : Source) (h : Q o s) : Q o (pend src s) := (K.updates o).pend src s h

theorem StrandKept.emit {o : Option Strand} {s : State} (i : Instr) (h : Q o s) : Q o (emit i s) := (K.updates o).emit i s h

theorem StrandKept.withdrawFrom {o : Option Strand} (p : PoolId) (k : Strand) (s : State) (h : Q o s) :
    Q o (withdrawFrom p k s) := by
  have hd := K.dropEntry o p k s h
  unfold Machine.withdrawFrom
  split
  · exact K.release o p k _ _ (List.mem_singleton.mpr rfl) hd
  · exact hd

theorem StrandKept.abandon {o : Option Strand} (k : Strand) (s : State) (h : Q o s) : Q o (abandon k s) := by
  unfold Machine.abandon
  split
  · exact h
  · next r hr =>
    have hw := K.withdrawFrom .drive k _ (K.withdrawFrom .pour k _ ((K.updates o).stopStep k s h))
    refine (K.updates o).unit _ _ _ (.inl (live_of_record ?_)) (unitOK_comp (fun u hu => hu) unitOK_endFill) hw
    rw [record?_isSome_of_carried (withdrawFrom_carried _ _ _), record?_isSome_of_carried (withdrawFrom_carried _ _ _),
      record?_isSome_of_carried (stopStep_carried _ _), hr]
    rfl

/-- A strand's step abandoned and its unit at rest, it settles in DRY, HALTED or OFFLINE. -/
theorem StrandKept.settled (k : Strand) (b : Bool) (z : Zones) (f : StrandContext → StrandContext) (s : State)
    (hf : ∀ c, Settled (f c)) (hl : Live s k) (h : Q (some k) s) :
    Q none (reportSettled k (modStrand k f (updUnit k (UnitState.rest b z) (Machine.abandon k s)))) := by
  have hl' := live_of_carried (abandon_carried k s) hl
  have hu := (K.updates _).unit k (UnitState.rest b z) _ (.inl hl') (unitOK_rest b z) (K.abandon k s h)
  refine K.settle k f _ hf (live_of_carried (updUnit_carried _ _ _) hl') (freed_updUnit _ (freed_abandon k s)) ?_ hu
  rw [updUnit_unit_same]
  exact (rest_fields b z _).1

theorem StrandKept.enterHalted (k : Strand) (cause : HaltCause) (s : State) (hl : Live s k) (h : Q (some k) s) :
    Q none (enterHalted k cause s) :=
  K.pend _ (K.settled k _ _ _ s (fun _ => ⟨rfl, rfl, rfl⟩) hl h)

theorem StrandKept.enterDry (k : Strand) (s : State) (hl : Live s k) (h : Q (some k) s) : Q none (enterDry k s) :=
  K.pend _ (K.settled k _ _ _ s (fun _ => ⟨rfl, rfl, rfl⟩) hl h)

theorem StrandKept.enterOffline (k : Strand) (s : State) (hl : Live s k) (h : Q none s) : Q none (enterOffline k s) := by
  have hl' := live_of_carried (abandon_carried k s) hl
  have hu := (K.updates _).unit k (UnitState.rest false zeroZones) _ (.inl hl') (unitOK_rest false zeroZones)
    (K.abandon k s (K.weaken k s h))
  unfold Machine.enterOffline
  rw [forgetGranted_modStrand]
  have hs : ∀ u, SameCore u (forgetGranted k u) := by
    intro u; unfold forgetGranted; split <;> exact ⟨rfl, rfl, rfl, rfl, rfl, rfl, rfl, rfl, fun _ h => h⟩
  obtain ⟨e1, e2, e3, e4, -, -, -, e8, -⟩ := hs (updUnit k (UnitState.rest false zeroZones) (Machine.abandon k s))
  refine K.pend _ (K.settle k _ _ (fun _ => ⟨rfl, rfl, rfl⟩) ?_ ?_ ?_ (K.same (hs _) hu))
  · exact live_of (by simp only [State.strand, e1]) (by simp only [State.strand, e1]) e8
      (live_of_carried (updUnit_carried _ _ _) hl')
  · have hfr := freed_updUnit (UnitState.rest false zeroZones) (freed_abandon k s)
    simpa only [Freed, State.record?, State.strand, Withdrawn, e1, e3, e4] using hfr
  · simp only [State.unit, e2]
    exact (congrArg UnitState.draw (updUnit_unit_same k _ _)).trans (rest_fields _ _ _).1

theorem StrandKept.enterHeld (k : Strand) (f : HoldFlag) (s : State) (hc : (s.strand k).condition.restartingOrCasting = true)
    (h : Q none s) : Q none (enterHeld k f s) := by
  have hl' := live_of_carried (abandon_carried k s) (live_of_restartingOrCasting hc)
  have hu := (K.updates none).unit k (UnitState.rest (f != .dip) ((Machine.abandon k s).settingsOf k).holdCooling) _ (.inl hl')
    (unitOK_rest _ _) (K.abandon k s h)
  refine K.pend _ (K.hold k f _ ?_ (freed_updUnit _ (freed_abandon k s)) ?_ hu)
  · have c := (abandon_carried k s).trans
      (updUnit_carried k (UnitState.rest (f != .dip) ((Machine.abandon k s).settingsOf k).holdCooling) _)
    rw [restartingOrCasting_of_name (c.2.1 k).1, hc]
  · rw [updUnit_unit_same]
    exact (rest_fields _ _ _).1

theorem StrandKept.enterCasting (k : Strand) (s : State) (hr : (s.record? k).isSome = true) (h : Q none s) :
    Q none (enterCasting k s) := by
  have hr' : ((Machine.abandon k s).record? k).isSome = true := by
    rw [record?_isSome_of_carried (abandon_carried k s), hr]
  exact K.pend _ (K.cast k _ hr' (freed_abandon k s hr') (K.abandon k s h))

/-- A record given to a strand begins its restart (R16, R22). -/
theorem StrandKept.enterRestarting (k : Strand) (kind : RestartKind) (n : Fin 32) (p : Plan) (s : State)
    (h : Q none (setCondition k (.restarting (newRecord s kind n p)) s)) : Q none (enterRestarting k kind n p s) :=
  K.drain _ _ _ (K.pend _ (K.same (s := setCondition k (.restarting (newRecord s kind n p)) s)
    ⟨rfl, rfl, rfl, rfl, rfl, rfl, rfl, rfl, fun _ h => h⟩ h))

/-- A fault, and the end of what the strand was at. -/
theorem StrandKept.faultHalted (k : Strand) (cause : HaltCause) (c : FaultCode) (d : Nat) (s : State) (hl : Live s k)
    (h : Q none s) : Q none (Machine.enterHalted k cause (writeFault k c d s)) :=
  K.enterHalted k cause _ (live_writeFault c d hl) (K.fault k c d s hl (K.weaken k s h))

theorem StrandKept.faultStopped (k : Strand) (cause : HaltCause) (c : FaultCode) (d : Nat) (s : State) (hl : Live s k)
    (h : Q none s) : Q none (stopStrand k cause (writeFault k c d s)) := by
  unfold stopStrand
  split
  · exact K.faultHalted k cause c d s hl h
  · exact K.enterDry k _ (live_writeFault c d hl) (K.fault k c d s hl (K.weaken k s h))

/-! ### The claims -/

theorem StrandKept.modReported (k : Strand) (f : StrandContext → StrandContext) (s : State) (h : Q none s)
    (hm : Q none (modStrand k f s)) : Q none (modReported k f s) := by
  unfold Machine.modReported
  split
  · exact h
  · exact K.pend _ hm

theorem StrandKept.addHold (k : Strand) (f : HoldFlag) (s : State) (hc : (s.strand k).condition = .held) (h : Q none s) :
    Q none (addHold k f s) := by
  have hm := K.modReported k (StrandContext.setFlag f true) s h (K.setFlag k f s hc h)
  have hc' : ((Machine.modReported k (StrandContext.setFlag f true) s).strand k).condition = .held := by
    unfold Machine.modReported
    split
    · exact hc
    · rw [pend_strand, modStrand_strand_same]; cases f <;> exact hc
  unfold Machine.addHold
  cases f with
  | dip =>
    have hs := K.small k (fun c => { c with driveLost := true }) _ (live_of_held hc') ⟨rfl, rfl, rfl, rfl, .inl rfl⟩ hm
    refine (K.updates none).unit _ _ _ (.inl (live_of_held ?_))
      (unitOK_of_same fun _ => ⟨rfl, rfl, rfl, rfl, rfl, rfl, rfl⟩) hs
    rw [modStrand_strand_same]
    exact hc'
  | tundish => exact hm
  | operator => exact hm

theorem StrandKept.holdClaim (f : HoldFlag) (k : Strand) (s : State) (h : Q none s) : Q none (holdClaim f k s) := by
  unfold Machine.holdClaim
  split
  · next hc => exact K.enterHeld k f s (by rw [hc]; rfl) h
  · next hc => exact K.addHold k f s hc h
  · next r hc =>
    have hr := restartingOrCasting_of_record hc
    split
    · exact K.enterHeld k f s hr h
    · exact K.enterDry k s (live_of_restartingOrCasting hr) (K.weaken k s h)
  all_goals exact h

/-- The last hold flag cleared, the strand restarts or is HALTED for want of a plan (R16). -/
theorem StrandKept.releaseLast (f : HoldFlag) (k : Strand) (s : State) (hc : (s.strand k).condition = .held)
    (ha : ((s.strand k).setFlag f false).anyHold = false) (h : Q none s) :
    Q none (restartFromHeld k (Machine.pend (.state k) (modStrand k (StrandContext.setFlag f false) s))) := by
  have hl : Live s k := live_of_held hc
  have hl' : Live (Machine.pend (.state k) (modStrand k (StrandContext.setFlag f false) s)) k := by
    refine live_of ?_ ?_ ?_ hl <;> simp <;> cases f <;> rfl
  unfold restartFromHeld
  dsimp only
  split
  · next n p hp =>
    have hplan := ((lookupPlan_eq_some_iff _ _ _ n p).mp hp).choose_spec.2.2.1
    refine K.enterRestarting k _ n p _ ?_
    rw [setCondition_pend]
    refine K.pend _ (K.restartHeld k f _ n s hc ha ?_ h)
    simpa [newRecord, takeSnapshot] using hplan
  · exact K.enterHalted k _ _ (live_writeFault _ _ hl') (K.fault k _ _ _ hl' (K.pend _ (K.clearLast k f s hl h)))

theorem StrandKept.releaseFlag (f : HoldFlag) (k : Strand) (s : State) (hl : Live s k) (h : Q none s) :
    Q none (releaseFlag f k s) := by
  unfold Machine.releaseFlag
  split
  · next hf =>
    dsimp only
    rw [modReported_clear hf]
    have hs : ((Machine.pend (.state k) (modStrand k (StrandContext.setFlag f false) s)).strand k)
        = StrandContext.setFlag f false (s.strand k) := by simp
    by_cases hc : (s.strand k).condition = .held
    · rw [hc, hs]
      dsimp only
      split
      · next ha => exact K.pend _ (K.clearFlag k f s hl hf (fun _ => ha) h)
      · next ha => exact K.releaseLast f k s hc (by simpa using ha) h
    · have hm := K.pend (.state k) (K.clearFlag k f s hl hf (fun e => absurd e hc) h)
      split
      · next e => exact absurd e hc
      all_goals exact hm
  · exact h

theorem StrandKept.takeFailure (k : Strand) (c : FailureClaim) (s : State) (h : Q none s) : Q none (takeFailure k c s) := by
  unfold Machine.takeFailure
  split
  · next r hr =>
    split
    · exact K.faultStopped k _ _ _ s (live_of_record (by rw [hr]; rfl)) h
    · exact h
  · exact h

theorem StrandKept.takeCompletion (k : Strand) (n : Nat) (s : State) (h : Q none s) : Q none (takeCompletion k n s) := by
  unfold Machine.takeCompletion
  split
  · next r hr =>
    split
    · exact K.enterCasting k s (by rw [hr]; rfl) h
    · exact h
  · exact h

theorem StrandKept.takeBreakout (k : Strand) (s : State) (hl : Live s k) (h : Q none s) : Q none (takeBreakout k s) := by
  unfold Machine.takeBreakout
  dsimp only
  split
  · next hc => exact K.faultAtRest k _ _ s hl (by rw [hc]; rfl) h
  · exact K.faultStopped k _ _ _ s hl h
  · exact K.faultHalted k _ _ _ s hl h
  · exact K.faultHalted k _ _ _ s hl h
  · next c hc =>
    have hw := K.faultAtRest k .breakout 0 s hl (by rw [hc]; rfl) h
    have hc' : ((writeFault k .breakout 0 s).strand k).condition = .halted c := by simpa [State.strand] using hc
    have hm := K.modReported k (fun c => { c with condition := .halted .breakout }) _ hw (K.breakout k c _ hc' hw)
    refine (K.updates none).unit k (fun u => { u with cooling := (s.settingsOf k).breakoutCooling }) _ (.inl ?_)
      (unitOK_of_same fun _ => ⟨rfl, rfl, rfl, rfl, rfl, rfl, rfl⟩) hm
    right; left
    unfold Machine.modReported
    split
    · rw [hc']; rfl
    · rw [pend_strand, modStrand_strand_same]; rfl
  · exact h

theorem StrandKept.stepReadyFall (k : Strand) (s : State) (h : Q none s) : Q none (stepReadyFall k s) := by
  unfold Machine.stepReadyFall
  split
  · exact (K.updates none).toPhase _ _ _ _ h
  · exact h

theorem StrandKept.lostDrive (k : Strand) (s : State) (h : Q none s) : Q none (lostDrive k s) := by
  unfold Machine.lostDrive
  split
  · next hc => exact K.faultHalted k _ _ _ s (live_of_restartingOrCasting (by rw [hc]; rfl)) h
  · next r hc =>
    split
    · exact K.stepReadyFall k s h
    · split
      · exact K.faultStopped k _ _ _ s (live_of_restartingOrCasting (by rw [hc]; rfl)) h
      · exact h
  · next hc =>
    split
    · exact K.small k _ s (live_of_held hc) ⟨rfl, rfl, rfl, rfl, .inl rfl⟩ h
    · exact h
  all_goals exact h

theorem StrandKept.takeReadyFall (k : Strand) (s : State) (h : Q none s) : Q none (takeReadyFall k s) := by
  unfold Machine.takeReadyFall
  split
  · exact K.lostDrive k s h
  · split
    · exact K.stepReadyFall k s h
    · exact h

theorem StrandKept.reexamine (k : Strand) (s : State) (h : Q none s) : Q none (reexamine k s) := by
  unfold Machine.reexamine
  split
  · exact K.lostDrive k s h
  · exact h

theorem StrandKept.haltClaim (k : Strand) (s : State) (h : Q none s) : Q none (haltClaim k s) := by
  unfold Machine.haltClaim
  split
  · next hc => exact K.faultHalted k _ _ _ s (live_of_restartingOrCasting (by rw [hc]; rfl)) h
  · next hc => exact K.faultHalted k _ _ _ s (live_of_held hc) h
  · next r hc =>
    have hl := live_of_restartingOrCasting (restartingOrCasting_of_record hc)
    split
    · exact K.faultHalted k _ _ _ s hl h
    · exact K.enterDry k s hl (K.weaken k s h)
  all_goals exact h

theorem StrandKept.abortStrand (k : Strand) (d : Nat) (s : State) (h : Q none s) : Q none (abortStrand k d s) := by
  unfold Machine.abortStrand
  dsimp only
  split
  · next r hc => exact K.faultStopped k _ _ _ s (live_of_restartingOrCasting (restartingOrCasting_of_record hc)) h
  · next hc => exact K.faultHalted k _ _ _ s (live_of_restartingOrCasting (by rw [hc]; rfl)) h
  · next hc => exact K.faultHalted k _ _ _ s (live_of_held hc) h
  all_goals exact h

theorem StrandKept.freeze (k : Strand) (s : State) (hl : Live s k) (h : Q none s) : Q none (freeze k s) :=
  K.faultHalted k _ _ _ s hl h

theorem StrandKept.endStartUp (k : Strand) (b : Bool) (s : State) (hl : Live s k) (h : Q none s) : Q none (endStartUp k b s) := by
  have hs := K.small k (fun c => { c with check := .done }) s hl ⟨rfl, rfl, rfl, rfl, .inl rfl⟩ h
  have hl' : Live (modStrand k (fun c => { c with check := .done }) s) k := live_of (s := s) (by simp) (by simp) rfl hl
  unfold Machine.endStartUp
  dsimp only
  split
  · exact K.faultHalted k _ _ _ _ hl' hs
  · exact K.pend _ hs

theorem StrandKept.returnToService (k : Strand) (s : State) (hl : Live s k) (h : Q none s) : Q none (returnToService k s) := by
  unfold Machine.returnToService
  split
  · exact K.faultHalted k _ _ _ s hl h
  · exact K.enterDry k s hl (K.weaken k s h)

/-- The events under way may be any. -/
theorem StrandKept.inFlight (l : List Instr) (s : State) (h : Q none s) : Q none { s with inFlight := l } :=
  K.same (s := s) ⟨rfl, rfl, rfl, rfl, rfl, rfl, rfl, rfl, fun _ h => h⟩ h

theorem StrandKept.takeOwnFailure (k : Strand) (s : State) (h : Q none s) : Q none (takeOwnFailure k s) := by
  unfold Machine.takeOwnFailure
  split
  · exact h
  · split
    · exact K.takeFailure _ _ _ (K.inFlight _ s h)
    · exact h

theorem StrandKept.takeOwnCompletion (k : Strand) (s : State) (h : Q none s) : Q none (takeOwnCompletion k s) := by
  unfold Machine.takeOwnCompletion
  split
  · split
    · exact K.takeCompletion _ _ _ (K.inFlight _ s h)
    · exact h
  · exact h

theorem StrandKept.holdStrand (f : HoldFlag) (k : Strand) (s : State) (h : Q none s) : Q none (holdStrand f k s) :=
  K.holdClaim f k _ (K.takeOwnCompletion k s h)

theorem StrandKept.tripStrand (k : Strand) (s : State) (h : Q none s) : Q none (tripStrand k s) :=
  K.haltClaim k _ (K.takeOwnCompletion k s h)

end

end Sys2Proof.Machine
end
section
/-! PROOFS. The walk through the caster-wide operations, the events, the handlers and the step: what a law's updates keep, every
step keeps. -/

namespace Sys2Proof.Machine

theorem live_of_configured {s : State} {k : Strand} (h : s.isConfigured k = true) : Live s k := .inl h

theorem isConfigured_of_inService' {s : State} {k : Strand} (h : s.inService k = true) : s.isConfigured k = true :=
  (Bool.and_eq_true _ _ ▸ h : _ ∧ _).1

/-- The empty set has no member. -/
theorem isEmpty_none : StrandSet.none.isEmpty = true := by decide

/-- What a change that the strand laws do not read leaves of them. -/
theorem sameCore_of {s t : State} (h1 : t.strands = s.strands) (h2 : t.units = s.units) (h3 : t.pour = s.pour)
    (h4 : t.drive = s.drive) (h5 : t.coordinator = s.coordinator) (h6 : t.faults = s.faults) (h7 : t.working = s.working)
    (h8 : t.configuredCount = s.configuredCount) (h9 : t.noticePending = s.noticePending) : SameCore s t :=
  ⟨h1, h2, h3, h4, h5, h6, h7, h8, fun _ h => h9 ▸ h⟩

/-! ### A rise confirmed -/

theorem modReported_condition (k : Strand) (f : StrandContext → StrandContext) (s : State)
    (hf : ∀ c, (f c).condition = c.condition) : ((modReported k f s).strand k).condition = (s.strand k).condition := by
  unfold modReported
  split
  · rfl
  · rw [pend_strand, modStrand_strand_same, hf]

theorem filling_carried (k : Strand) (s : State) : Carried s (toPhase k .filling none (answer .pour k s)) :=
  (answer_carried _ _ _).trans (toPhase_carried _ _ _ _)

/-- The confirmation of a rise leaves the strand RESTARTING. -/
theorem record?_confirmRise (k : Strand) (s : State) : ((confirmRise k s).record? k).isSome = (s.record? k).isSome := by
  rw [← record?_isSome_of_carried (filling_carried k s)]
  refine congrArg Option.isSome (record?_of_condition ?_)
  unfold confirmRise
  rw [modStrand_strand_same]
  exact modReported_condition k _ _ fun _ => rfl

/-- What the taking of a configured strand keeps, the taking of every configured strand keeps. -/
theorem forConfigured_keeps_configured {P : State → Prop} (f : Strand → State → State)
    (hf : ∀ k s, s.isConfigured k = true → P s → P (f k s)) (s : State) (h : P s) : P (forConfigured f s) := by
  refine foldl_keeps _ (fun k t ht => ?_) _ s h
  split
  · next hk => exact hf k t hk ht
  · exact ht

section
variable {Q : Option Strand → State → Prop} (K : StrandKept Q)
include K

/-! ### The Trip Latch's own fields -/

theorem StrandKept.modTrip (f : TripLatch → TripLatch) (s : State) (h : Q none s) : Q none (modTrip f s) :=
  K.same (s := s) (sameCore_of rfl rfl rfl rfl rfl rfl rfl rfl rfl) h

theorem StrandKept.unlatch (s : State) (h : Q none s) : Q none (unlatch s) := by
  unfold Machine.unlatch
  split
  · exact K.pend _ (K.modTrip _ s h)
  · exact h

/-! ### Two claims within a caster-wide operation -/

theorem StrandKept.releaseTundish (k : Strand) (s : State) (hk : s.isConfigured k = true) (h : Q none s) :
    Q none (releaseTundish k s) := by
  have hr := K.releaseFlag .tundish k s (live_of_configured hk) h
  unfold Machine.releaseTundish
  split
  · exact K.takeOwnFailure k _ hr
  · exact hr

theorem StrandKept.forceOutputs (k : Strand) (s : State) (hk : s.isConfigured k = true) (h : Q none s) :
    Q none (forceOutputs k s) := (K.updates none).unit _ _ _ (.inl (live_of_configured hk)) (unitOK_rest _ _) h

end

section
variable {Q : Option Strand → State → Prop} (K : Kept Q)
include K

/-! ### The caster-wide operations -/

theorem Kept.openPool (p : PoolId) (s : State) (h : Q none s) : Q none (openPool p s) := by
  unfold Machine.openPool
  split
  · exact h
  · exact K.opened p s h

theorem Kept.modCoordinator (f : Coordinator → Coordinator) (s : State) (hm : CoordinatorMove s (f s.coordinator))
    (h : Q none s) : Q none (modCoordinator f s) := K.coordinator _ s hm h

theorem Kept.modSupply (f : SupplyMonitor → SupplyMonitor) (s : State) (h : Q none s) : Q none (modSupply f s) :=
  K.same (s := s) (sameCore_of rfl rfl rfl rfl rfl rfl rfl rfl rfl) h

theorem Kept.enterHolding (s : State) (hs : s.coordinator.state = .steady) (h : Q none s) : Q none (enterHolding s) :=
  K.pend _ (K.closed _ _ (forConfigured_keeps_configured _ (fun k t _ => K.holdStrand .tundish k t) _
    (K.modCoordinator _ s (.inr (.inl ⟨by rw [hs]; decide, nofun, rfl⟩)) h)))

theorem Kept.enterFilling (s : State) (hs : s.coordinator.state = .holding) (h : Q none s) : Q none (enterFilling s) :=
  K.pend _ (K.modCoordinator _ s (.inr (.inl ⟨by rw [hs]; decide, nofun, rfl⟩)) h)

theorem Kept.endEntry (s : State) (h : Q none s) : Q none (endEntry s) := by
  have ht := K.modCoordinator (fun c => { c with entering := false }) s (.inl ⟨rfl, rfl⟩) h
  unfold Machine.endEntry
  dsimp only
  split
  · next he => exact K.pend _ (K.modCoordinator _ _ (.inr (.inr (.inl he))) ht)
  · exact ht

theorem Kept.enterReleasing (s : State) (h : Q none s) : Q none (enterReleasing s) := by
  have ht := K.modCoordinator
    (fun c => { c with state := .releasing, releaseSet := Vector.ofFn (heldForTundish s), entering := true }) s
    (.inr (.inr (.inr ⟨rfl, rfl⟩))) h
  unfold Machine.enterReleasing
  exact K.endEntry _ (K.pend _ (K.openPool _ _
    (forConfigured_keeps_configured _ (fun k t hk => K.releaseTundish k t hk) _ ht)))

theorem Kept.abandonChange (s : State) (h : Q none s) : Q none (abandonChange s) := by
  have ht := K.modCoordinator (fun c => { c with entering := true }) s (.inl ⟨rfl, rfl⟩) h
  unfold Machine.abandonChange
  refine K.pend _ (K.openPool _ _ (K.modCoordinator _ _ (.inr (.inr (.inl isEmpty_none)))
    (forConfigured_keeps_configured _ (fun k t hk ht => ?_) _ ht)))
  split
  · exact K.faultHalted k _ _ _ t (live_of_configured hk) ht
  · exact ht

theorem Kept.judgeWeight (w : Nat) (s : State) (h : Q none s) : Q none (judgeWeight w s) := by
  unfold Machine.judgeWeight
  dsimp only
  split
  · exact h
  · exact K.pend _ (K.modCoordinator _ s (.inl ⟨rfl, rfl⟩) h)

theorem Kept.takeWeight (w : Nat) (s : State) (h : Q none s) : Q none (takeWeight w s) := by
  have ht := K.modCoordinator (fun c => { c with lastWeight := some w }) s (.inl ⟨rfl, rfl⟩) h
  unfold Machine.takeWeight
  dsimp only
  split
  · exact K.judgeWeight w _ ht
  · split
    · exact K.enterReleasing _ ht
    · exact ht
  · exact ht
  · exact ht

theorem Kept.tripReturn (s : State) (h : Q none s) : Q none (tripReturn s) := by
  have ht := K.modCoordinator (fun c => { c with releaseSet := StrandSet.none }) s (.inr (.inr (.inl isEmpty_none))) h
  unfold Machine.tripReturn
  dsimp only
  refine K.openPool _ _ ?_
  split
  · exact ht
  · exact K.pend _ (K.modCoordinator _ _ (.inr (.inr (.inl isEmpty_none))) ht)

theorem Kept.latch (s : State) (h : Q none s) : Q none (latch s) :=
  K.pend _ (K.tripReturn _ (K.cleared _ _ (K.cleared _ _ (forConfigured_keeps_configured _ (fun k t hk => K.forceOutputs k t hk) _
    (forConfigured_keeps_configured _ (fun k t _ => K.tripStrand k t) _ (K.modTrip _ s h))))))

theorem Kept.takeTrip (b : Bool) (s : State) (h : Q none s) : Q none (takeTrip b s) := by
  have ht := K.modTrip (fun x => { x with line := b }) s h
  unfold Machine.takeTrip
  dsimp only
  split
  · refine K.latch _ ?_
    split
    · exact K.pend _ ht
    · exact ht
  · split
    · exact K.pend _ ht
    · exact ht

theorem Kept.arm (s : State) (h : Q none s) : Q none (arm s) := by
  have ht := K.pend .trip (K.modTrip (fun x => { x with armed := true }) s h)
  unfold Machine.arm
  dsimp only
  split
  · exact h
  · split
    · exact K.latch _ ht
    · exact ht

theorem Kept.enterSupplied (c : SuppliedFrom) (s : State) (h : Q none s) : Q none (enterSupplied c s) := by
  refine K.pend _ (K.openPool _ _ ?_)
  have hr := forConfigured_keeps_configured _ (fun k t _ => K.reexamine k t) _ (K.modSupply (SupplyMonitor.supplied c) s h)
  cases c with
  | settling => exact forConfigured_keeps_configured _ (fun k t hk => K.releaseFlag .dip k t (live_of_configured hk)) _ hr
  | riding _ => exact hr
  | startUp => exact hr

theorem Kept.takeFirstSupply (b : Bool) (n : Stamp) (s : State) (h : Q none s) : Q none (takeFirstSupply b n s) := by
  unfold Machine.takeFirstSupply
  split
  · exact h
  · split
    · exact K.enterSupplied _ _ (K.modSupply _ s h)
    · exact K.pend _ (K.modSupply _ s h)

theorem Kept.takeSupplyFall (n : Stamp) (s : State) (h : Q none s) : Q none (takeSupplyFall n s) := by
  unfold Machine.takeSupplyFall
  split
  · exact K.pend _ (K.closed _ _ (K.modSupply _ s h))
  · exact K.pend _ (K.modSupply _ s h)
  all_goals exact h

theorem Kept.takeSupplyRise (n : Stamp) (s : State) (h : Q none s) : Q none (takeSupplyRise n s) := by
  have hs : Q none (enterSettling n s) := K.pend _ (K.modSupply _ s h)
  unfold Machine.takeSupplyRise
  split
  · exact h
  · exact K.enterSupplied _ _ h
  · split
    · exact K.enterSupplied _ _ hs
    · exact hs
  all_goals exact h

theorem Kept.rideExpiry (s : State) (h : Q none s) : Q none (rideExpiry s) := by
  unfold Machine.rideExpiry
  split
  · exact K.pend _ (forConfigured_keeps_configured _ (fun k t _ => K.holdStrand .dip k t) _ (K.modSupply _ s h))
  all_goals exact h

theorem Kept.settleEnd (s : State) (h : Q none s) : Q none (settleEnd s) := by
  unfold Machine.settleEnd
  split
  · exact K.enterSupplied _ _ h
  all_goals exact h

end

/-! ### The events of a step -/

section
variable {Q : Option Strand → State → Prop} (K : StrandKept Q)
include K

theorem StrandKept.toPhase (k : Strand) (ph : Phase) (t : Option Nat) (s : State) (h : Q none s) : Q none (toPhase k ph t s) :=
  (K.updates none).toPhase k ph t s h

theorem StrandKept.failStep (k : Strand) (f : StepFailure) (s : State) (h : Q none s) : Q none (failStep k f s) :=
  (K.updates none).failStep k f s h

theorem StrandKept.stepExpiry (k : Strand) (a : Action) (s : State) (h : Q none s) : Q none (stepExpiry k a s) := by
  cases a with
  | wait => exact K.drain _ _ _ h
  | _ => exact K.failStep _ _ _ h

theorem StrandKept.stepTimerEffect (k : Strand) (s : State) (h : Q none s) : Q none (stepTimerEffect k s) := by
  unfold Machine.stepTimerEffect
  split
  · split
    · exact K.stepExpiry _ _ _ h
    · exact h
  · exact h

theorem StrandKept.examineCheck (k : Strand) (s : State) (h : Q none s) : Q none (examineCheck k s) := by
  unfold Machine.examineCheck
  split
  · split
    · exact K.drain _ _ _ h
    · exact h
  · exact h

theorem StrandKept.stepReadyRise (k : Strand) (s : State) (h : Q none s) : Q none (stepReadyRise k s) := by
  unfold Machine.stepReadyRise
  split
  · exact K.drain _ _ _ ((K.updates none).enterInrush k s h)
  · exact h

/-- The rise confirmed: steel is set and the hold timer of a restart stops (R67). -/
theorem StrandKept.confirmRise (k : Strand) (s : State) (hr : (s.record? k).isSome = true) (h : Q none s) :
    Q none (confirmRise k s) := by
  have ht := K.toPhase k .filling none _ ((K.updates none).answer .pour k s h)
  rw [← record?_isSome_of_carried (filling_carried k s)] at hr
  have hm := K.modReported k (fun c => { c with steel := true }) _ ht
    (K.small k _ _ (live_of_record hr) ⟨rfl, rfl, rfl, rfl, .inl rfl⟩ ht)
  rw [← record?_of_condition (modReported_condition k (fun c => { c with steel := true }) _ fun _ => rfl)] at hr
  unfold Machine.confirmRise
  exact K.small k _ _ (live_of_record hr) ⟨rfl, rfl, rfl, rfl, .inr ⟨rfl, hr⟩⟩ hm

theorem StrandKept.fillTo (k : Strand) (a d : Nat) (s : State) (hl : Live s k) (h : Q none s) : Q none (fillTo k a d s) := by
  unfold Machine.fillTo
  split
  · refine K.release _ .pour k _ _ (by simp) ?_
    exact (K.updates none).unit _ _ _ (.inl (live_of_carried (stopStep_carried k s) hl)) unitOK_endFill
      ((K.updates none).stopStep k s h)
  · exact h

theorem StrandKept.pourTo (k : Strand) (a d : Nat) (s : State) (hr : (s.record? k).isSome = true) (h : Q none s) :
    Q none (pourTo k a d s) := by
  unfold Machine.pourTo
  split
  · exact (K.updates none).record _ _ _ (fun _ => ⟨rfl, rfl, rfl, rfl, Nat.le_refl _⟩) h
  · split
    · exact (K.updates none).record _ _ _ (fun _ => ⟨rfl, rfl, rfl, rfl, Nat.le_refl _⟩) h
    · split
      · exact K.fillTo _ _ _ _ (live_of_record ((record?_confirmRise k s).trans hr)) (K.confirmRise k s hr h)
      · exact h

theorem StrandKept.openStepDepth (k : Strand) (d : Nat) (s : State) (h : Q none s) : Q none (openStepDepth k d s) := by
  unfold Machine.openStepDepth
  split
  · next ha =>
    have hr := record?_of_action ha
    split
    · exact K.pourTo _ _ _ _ hr h
    · split
      · exact K.fillTo _ _ _ _ (live_of_record hr) h
      · exact h
  · exact h

theorem StrandKept.exclude (p : PoolId) (k : Strand) (s : State) (h : Q none s) : Q none (exclude p k s) :=
  K.pend _ (K.excluded _ _ _ h)

theorem StrandKept.releaseSlot (p : PoolId) (k : Strand) (s : State) (h : Q none s) : Q none (releaseSlot p k s) :=
  K.release _ p k _ _ (List.mem_singleton.mpr rfl) h

theorem StrandKept.attemptFailed (k : Strand) (a b c : Nat) (s : State) (hl : Live s k) (h : Q none s) :
    Q none (attemptFailed k a b c s) := by
  have ht := (K.updates none).unit k UnitState.endFill s (.inl hl) unitOK_endFill h
  unfold Machine.attemptFailed
  dsimp only
  split
  · exact (K.updates none).record _ _ _ (fun _ => ⟨rfl, rfl, rfl, rfl, Nat.le_refl _⟩) (K.toPhase _ _ _ _ ht)
  · exact K.failStep _ _ _ (K.exclude _ _ _ (K.releaseSlot _ _ _ ((K.updates none).stopStep _ _ ht)))

theorem StrandKept.pourExpiry (k : Strand) (s : State) (h : Q none s) : Q none (pourExpiry k s) := by
  have hg := (K.updates none).modGrant .pour k (fun g => { g with response := .idle }) s h
  unfold Machine.pourExpiry pourExpiryAtStep
  split
  · next r a b c d hr ha =>
    split
    · exact K.attemptFailed _ _ _ _ _ (live_of_record (by rw [hr]; rfl)) hg
    · exact hg
  · exact hg

theorem StrandKept.driveExpiry (k : Strand) (s : State) (h : Q none s) : Q none (driveExpiry k s) := by
  unfold Machine.driveExpiry
  split
  · exact K.failStep _ _ _ (K.exclude _ _ _ (K.releaseSlot _ _ _ ((K.updates none).stopStep _ _ h)))
  · exact K.exclude _ _ _ (K.releaseSlot _ _ _ h)

theorem StrandKept.lockReport (k : Strand) (s : State) (h : Q none s) : Q none (lockReport k s) := by
  unfold Machine.lockReport
  split
  · exact K.drain _ _ _ h
  · exact h

theorem StrandKept.targetReport (k : Strand) (s : State) (h : Q none s) : Q none (targetReport k s) := by
  unfold Machine.targetReport
  split
  · exact K.drain _ _ _ h
  · exact h

theorem StrandKept.referenceReport (k : Strand) (v : Nat) (s : State) (hl : Live s k) (h : Q none s) :
    Q none (referenceReport k v s) := by
  unfold Machine.referenceReport
  split
  · exact K.drain _ _ _ ((K.updates none).unit _ _ _ (.inl hl)
      (unitOK_of_same fun _ => ⟨rfl, rfl, rfl, rfl, rfl, rfl, rfl⟩) h)
  · exact h

end

/-! ### A depth sample at the unit -/

/-- A depth sample is taken by an active detector alone, which it leaves active; without one it moves no field that the unit's
law reads (R110). -/
theorem unitOK_takeDepth {s : State} {k : Strand} (x : Sample) : UnitOK s k (UnitState.takeDepth (s.levelSet k) x) := by
  have fields : ∀ (p : LevelParams) (u : UnitState),
      ((u.takeDepth p x).draw = u.draw ∧ (u.takeDepth p x).levelOn = u.levelOn ∧
        (u.takeDepth p x).controlMode = u.controlMode ∧ (u.takeDepth p x).stopper = u.stopper) ∧
      (detectorActive p u = true ∨ ((u.takeDepth p x).lock = u.lock ∧ (u.takeDepth p x).inCount = u.inCount ∧
        (u.takeDepth p x).outCount = u.outCount)) := by
    intro p u
    have hn : (u.noteDepth x).draw = u.draw ∧ (u.noteDepth x).levelOn = u.levelOn ∧
        (u.noteDepth x).controlMode = u.controlMode ∧ (u.noteDepth x).stopper = u.stopper ∧
        (u.noteDepth x).lock = u.lock ∧ (u.noteDepth x).inCount = u.inCount ∧ (u.noteDepth x).outCount = u.outCount := by
      unfold UnitState.noteDepth
      cases x <;> exact ⟨rfl, rfl, rfl, rfl, rfl, rfl, rfl⟩
    obtain ⟨h1, h2, h3, h4, h5⟩ := hn
    unfold UnitState.takeDepth
    dsimp only
    split
    · next ha =>
      refine ⟨?_, .inl (detectorActive_noteDepth p x u ▸ ha)⟩
      split
      · unfold UnitState.keepLock UnitState.clearLock
        split
        · exact ⟨h1, h2, h3, h4⟩
        · split <;> exact ⟨h1, h2, h3, h4⟩
      · unfold UnitState.seekLock
        split
        · split <;> exact ⟨h1, h2, h3, h4⟩
        · exact ⟨h1, h2, h3, h4⟩
    · exact ⟨⟨h1, h2, h3, h4⟩, .inr h5⟩
  intro hu
  obtain ⟨⟨h1, h2, h3, h4⟩, h5⟩ := fields (s.levelSet k) (s.unit k)
  have hd : detectorActive (s.levelSet k) ((s.unit k).takeDepth (s.levelSet k) x) = detectorActive (s.levelSet k) (s.unit k) := by
    simp only [detectorActive, h2, h3]
  simp only [unitLawOf, h1, h2, h4, hd] at hu ⊢
  rcases h5 with ha | ⟨e1, e2, e3⟩
  · simpa only [ha, Bool.true_or] using hu
  · simpa only [e1, e2, e3] using hu

end Sys2Proof.Machine
end
section
/-! PROOFS. The walk's end: what a law's updates keep, every event, every request and every step keeps. -/

namespace Sys2Proof.Machine

/-! ### What a request may be taken to have passed -/

/-- The checks of a request have passed where none of them fails. -/
theorem firstFailure_none_iff (l : List (Bool × ReplyCode)) : firstFailure l = none ↔ ∀ c ∈ l, c.1 = false := by
  induction l with
  | nil => simp [firstFailure]
  | cons c l ih =>
    obtain ⟨b, r⟩ := c
    cases b <;> simp [firstFailure, ih]

section
variable {P : State → Prop}

/-- A refused request changes nothing; one whose checks pass does what its handler does. -/
theorem checked_keeps (checks : State → List (Bool × ReplyCode)) (h : Handler) (s : State) (hs : P s)
    (hh : (∀ c ∈ checks s, c.1 = false) → P (h s).1) : P (checked checks h s).1 := by
  unfold checked
  split
  · exact hs
  · next hc => exact hh ((firstFailure_none_iff _).mp hc)

theorem namingStrand_keeps (b : Byte) (h : Strand → Handler) (s : State) (hs : P s)
    (hh : ∀ k, s.isConfigured k = true → P (h k s).1) : P (namingStrand b h s).1 := by
  unfold namingStrand
  split
  · exact hs
  · next h0 =>
    split
    · exact hs
    · next ha =>
      split
      · next hb =>
        have h0' : b.toNat ≠ 0 := fun e => h0 (BitVec.eq_of_toNat_eq e)
        exact hh _ (decide_eq_true (show b.toNat - 1 < s.configuredCount by omega))
      · exact hs

theorem namingInService_keeps (b : Byte) (h : Strand → Handler) (s : State) (hs : P s)
    (hh : ∀ k, s.isConfigured k = true → (s.strand k).condition.isOffline = false → P (h k s).1) :
    P (namingInService b h s).1 :=
  namingStrand_keeps b _ s hs fun k hk => checked_keeps _ _ s hs fun hc => hh k hk (hc _ (List.mem_singleton.mpr rfl))

end

/-! ### The reads of a slot, a window and a pool -/

theorem handlePlanRead_state (n : Byte) (s : State) : (handlePlanRead n s).1 = s := by
  unfold handlePlanRead; cases slotOf n <;> rfl

theorem handleMapRead_state (n : Byte) (s : State) : (handleMapRead n s).1 = s := by
  unfold handleMapRead; cases windowOf n <;> rfl

theorem handleArbiterRead_state (n : Byte) (s : State) : (handleArbiterRead n s).1 = s := by
  unfold handleArbiterRead; cases readPool n <;> rfl

/-! ### What the bodies of requests carry -/

theorem readAction_inRange {r : RawStep} {a : Action} (h : readAction r = .ok a) : actionInRange a = true := by
  have ranged : ∀ x : Action, (if actionInRange x then Except.ok x else .error PlanFault.param) = .ok a →
      actionInRange a = true := by
    intro x hx
    split at hx
    · next hr => cases hx; exact hr
    · cases hx
  unfold readAction at h
  dsimp only at h
  split at h
  · split at h
    · exact ranged _ h
    · cases h
  · exact ranged _ h
  · cases h; rfl
  · exact ranged _ h
  · split at h
    · exact ranged _ h
    · split at h
      · split at h
        · cases h; rfl
        · cases h
      · cases h
  · cases h; rfl
  · exact ranged _ h
  · cases h; rfl
  · cases h

theorem readStep_inRange {r : RawStep} {p : Step} (h : readStep r = .ok p) : stepInRange p = true := by
  unfold readStep at h
  split at h
  · cases h
  · split at h <;> cases h
  · next a ha =>
    split at h
    · next ht => cases h; exact Bool.and_eq_true _ _ ▸ ⟨ht, readAction_inRange ha⟩
    · cases h

theorem readSteps_inRange {n : Nat} {l : List RawStep} {ps : List Step} (h : readSteps n l = .ok ps) :
    ps.all stepInRange = true ∧ ps.length = l.length := by
  induction l generalizing n ps with
  | nil => cases h; exact ⟨rfl, rfl⟩
  | cons r l ih =>
    unfold readSteps at h
    split at h
    · cases h
    · next p hp =>
      split at h
      · cases h
      · next ps' hps =>
        cases h
        obtain ⟨ha, hl⟩ := ih hps
        exact ⟨by rw [List.all_cons, ha, readStep_inRange hp]; rfl, congrArg (· + 1) hl⟩

/-- An accepted plan lies in the plan ranges (R28 to R30). -/
theorem readPlan_inRange {raw : RawPlan} {p : Plan} (h : readPlan raw = .ok p) : planInRange p = true := by
  unfold readPlan at h
  split at h
  · cases h
  · next hn =>
    split at h
    · cases h
    · split at h
      · cases h
      · next hl =>
        split at h
        · cases h
        · next steps hs =>
          split at h
          · cases h
          · cases h
            obtain ⟨ha, he⟩ := readSteps_inRange hs
            simp only [planInRange, ha, Bool.and_true, Bool.and_eq_true, decide_eq_true_eq]
            exact ⟨⟨by simpa using hn, by omega⟩, by omega⟩

theorem readPour_inRange {a b c d f g : Byte} {e : Half} {p : PourSettings} (h : readPour a b c d e f g = some p) :
    pourInRange p = true := by
  unfold readPour at h
  split at h
  · dsimp only at h
    split at h
    · next hr => cases h; exact hr
    · cases h
  · cases h

theorem readDrive_inRange {a b c : Byte} {d : Half} {p : DriveSettings} (h : readDrive a b c d = some p) :
    driveInRange p = true := by
  unfold readDrive at h
  split at h
  · dsimp only at h
    split at h
    · next hr => cases h; exact hr
    · cases h
  · cases h

theorem readStrandBody_inRange {b : StrandBody} {p : StrandSettings} {l : LevelParams}
    (h : readStrandBody b = some (p, l)) : strandInRange p = true ∧ levelInRange l = true := by
  unfold readStrandBody at h
  split at h
  · dsimp only at h
    split at h
    · next hr => cases h; exact hr
    · cases h
  · cases h

theorem readWindow_mayStore {s : State} {b : WindowBody} {n : Fin 8} {w : GradeWindow}
    (h : readWindow s b = some (n, w)) : MayStoreWindow s n w := by
  unfold readWindow at h
  split at h
  · dsimp only at h
    split at h
    · next hr =>
      cases h
      obtain ⟨hs, -, ha⟩ := hr
      refine .inl ⟨hs, ha, ?_⟩
      unfold writtenWindow
      dsimp only
      split
      · exact .inl (Nat.le_of_lt_succ b.base.isLt)
      · exact .inr rfl
    · cases h
  · cases h

theorem noticeLevels_inRange {l : Tab 29 Byte} (h : l.toList.any (7 < ·.toNat) = false) :
    Tab.every (Vector.map (fun b : Byte => b.toNat) l) (· ≤ 7) = true := by
  rw [every_iff]
  intro i
  rw [look_map, decide_eq_true_eq]
  refine Classical.byContradiction fun hi => ?_
  have hm : l.look i ∈ l.toList := by simp [Tab.look]
  rw [List.any_eq_false] at h
  exact h _ hm (decide_eq_true (by omega))

/-! ### Events -/

/-- The notice choice clears flags and moves frames (R178). -/
theorem noticeChoice_sameCore (s : State) : SameCore s (noticeChoice s) := by
  unfold noticeChoice
  split
  · exact sameCore_of rfl rfl rfl rfl rfl rfl rfl rfl rfl
  · split
    · exact sameCore_of rfl rfl rfl rfl rfl rfl rfl rfl rfl
    · split
      · next n _ =>
        refine ⟨rfl, rfl, rfl, rfl, rfl, rfl, rfl, rfl, fun m hm => ?_⟩
        rw [look_put] at hm
        split at hm
        · cases hm
        · exact hm
      · exact sameCore_of rfl rfl rfl rfl rfl rfl rfl rfl rfl

/-! A sampling instant moves lines and instants, and sends events. -/

theorem takeClassA_sameCore (p : ClassALevels) (s : State) : SameCore s (takeClassA p s) := by
  unfold takeClassA setLines emitAll
  exact sameCore_of rfl rfl rfl rfl rfl rfl rfl rfl rfl

theorem takeClassB_sameCore (p : ClassBLevels) (s : State) : SameCore s (takeClassB p s) := by
  unfold takeClassB setLines emitAll
  exact sameCore_of rfl rfl rfl rfl rfl rfl rfl rfl rfl

theorem takeMeasurement_sameCore (p : MeasurementLevels) (s : State) : SameCore s (takeMeasurement p s) := by
  unfold takeMeasurement emitAll
  exact sameCore_of rfl rfl rfl rfl rfl rfl rfl rfl rfl

theorem freeIndex_sameCore (n : Nat) (s : State) : SameCore s (freeIndex n s).2 := by
  unfold freeIndex
  split <;> exact sameCore_of rfl rfl rfl rfl rfl rfl rfl rfl rfl

/-- The commands that open or close a pool or move the Coordinator, the Supply Monitor or the whole part. -/
def isCasterWide : Instr → Bool
  | .reset | .supplyOkFirstLevel _ _ | .supplyOkFall _ | .supplyOkRise _ | .tcRequestRise | .tundishInPlaceRise
  | .weightSample _ | .tripSample _ | .rideThroughExpiry | .settleExpiry | .tundishChange _ | .tundishInPlace _
  | .tundishAbort _ | .tripArm _ => true
  | _ => false

section
variable {Q : Option Strand → State → Prop} (K : StrandKept Q)
include K

theorem StrandKept.endWrite (w : Image) (s : State) (h : Q none s) : Q none (endWrite w s) := by
  unfold Machine.endWrite
  split
  · split
    · exact K.pend _ (K.same (s := s) (sameCore_of rfl rfl rfl rfl rfl rfl rfl rfl rfl) h)
    · exact K.pend _ (K.same (s := s) (sameCore_of rfl rfl rfl rfl rfl rfl rfl rfl rfl) h)
  all_goals exact h

theorem StrandKept.holdExpiry (k : Strand) (s : State) (hr : (s.strand k).holdTimer.running = true) (h : Q none s) :
    Q none (holdExpiry k s) := by
  have hs := K.small k (fun c => { c with holdTimer :=
    { c.holdTimer with elapsed := max c.holdTimer.elapsed ((s.settingsOf k).freezeLimit * 1000) } }) s (.inr (.inr hr))
    ⟨rfl, rfl, rfl, rfl, .inl rfl⟩ h
  unfold Machine.holdExpiry
  refine K.freeze k _ (.inr (.inr ?_)) hs
  rw [modStrand_strand_same]
  exact hr

theorem StrandKept.unitDepth (k : Strand) (x : Sample) (s : State) (hl : Live s k) (h : Q none s) :
    Q none (unitDepth k x s) := by
  have hu := (K.updates none).unit k (UnitState.takeDepth (s.levelSet k) x) s (.inl hl) (unitOK_takeDepth x) h
  unfold Machine.unitDepth
  dsimp only
  split
  · exact K.lockReport k _ hu
  · exact hu

/-- What an event that is not caster-wide does before the choice at its end keeps the law. -/
theorem StrandKept.effect (i : Instr) (hi : isCasterWide i = false) (s : State) (h : Q none s) : Q none (effect i s) := by
  have live : ∀ {k}, s.inService k = true → Live s k := fun hk => live_of_configured (isConfigured_of_inService' hk)
  have guarded : ∀ (c : Prop) [Decidable c] (t : State), (c → Q none t) → Q none (if c then t else s) :=
    fun c _ t ht => by
      split
      · next hc => exact ht hc
      · exact h
  cases i with
  | gapTimerExpiry => exact K.same (s := s) (sameCore_of rfl rfl rfl rfl rfl rfl rfl rfl rfl) h
  | transmissionEnd => exact K.same (s := s) (sameCore_of rfl rfl rfl rfl rfl rfl rfl rfl rfl) h
  | storeWriteEnd w => exact K.endWrite w s h
  | filterSample x =>
    cases x with
    | classA p => exact K.same (takeClassA_sameCore p s) h
    | classB p => exact K.same (takeClassB_sameCore p s) h
  | steelPresentFirstLevel k b => exact guarded _ _ fun hk => K.endStartUp k b s (live_of_configured hk.1) h
  | breakoutAlarmRise k => exact guarded _ _ fun hk => K.takeBreakout k s (live hk) h
  | driveReadyFall k => exact guarded _ _ fun _ => K.takeReadyFall k s h
  | driveReadyRise k => exact guarded _ _ fun _ => K.stepReadyRise k s h
  | permissiveLevelChange line =>
    exact inOpenOrder_keeps _ (fun k t ht => K.examineCheck k t ht) (fun n t ht => K.same (freeIndex_sameCore n t) ht) _ _ s h
  | measurementInstant c => exact K.same (takeMeasurement_sameCore c s) h
  | depthSampleUnit k x => exact guarded _ _ fun hk => K.unitDepth k x s (live hk) h
  | depthSampleOpenStep k x =>
    cases x with
    | valid d => exact guarded _ _ fun _ => K.openStepDepth k d s h
    | invalid => exact h
  | speedReferenceSample k x =>
    cases x with
    | valid v =>
      refine guarded _ _ fun hk => K.referenceReport k v _ (live_of_carried (updUnit_carried _ _ _) (live hk)) ?_
      exact (K.updates none).unit _ _ s (.inl (live hk))
        (unitOK_of_same fun _ => ⟨rfl, rfl, rfl, rfl, rfl, rfl, rfl⟩) h
    | invalid => exact h
  | holdTimerExpiry k => exact guarded _ _ fun hk => K.holdExpiry k s hk h
  | stepTimerExpiry k => exact K.stepTimerEffect k s h
  | preChargeEnd k => exact guarded _ _ fun _ => (K.updates none).openForAttempt k s h
  | retryDwellEnd k => exact guarded _ _ fun _ => (K.updates none).openForAttempt k s h
  | inrushHoldEnd k => exact guarded _ _ fun _ => K.drain _ _ s h
  | pourResponseExpiry k => exact guarded _ _ fun _ => K.pourExpiry k s h
  | driveResponseExpiry k => exact guarded _ _ fun _ => K.driveExpiry k s h
  | rampTargetReached k =>
    refine guarded _ _ fun _ => K.targetReport k _ ((K.updates none).unit _ _ s (.inr rfl) (unitOK_of_same fun u => ?_) h)
    unfold UnitState.reachTarget
    split <;> exact ⟨rfl, rfl, rfl, rfl, rfl, rfl, rfl⟩
  | stepFailureClaim k c => exact K.takeFailure k c s h
  | restartCompleteClaim k n => exact K.takeCompletion k n s h
  | reset | supplyOkFirstLevel | supplyOkFall | supplyOkRise | tcRequestRise | tundishInPlaceRise | weightSample
  | tripSample | rideThroughExpiry | settleExpiry => cases hi
  | _ => exact h

theorem StrandKept.noticeChoice (s : State) (h : Q none s) : Q none (noticeChoice s) := K.same (noticeChoice_sameCore s) h

/-! ### Requests -/

theorem StrandKept.coolAfter (k : Strand) (a b : StrandSettings) (s : State) (hl : Live s k) (h : Q none s) :
    Q none (coolAfter k a b s) := by
  have hu : ∀ z, Q none (updUnit k (fun u => { u with cooling := z }) s) := fun z =>
    (K.updates none).unit _ _ s (.inl hl) (unitOK_of_same fun _ => ⟨rfl, rfl, rfl, rfl, rfl, rfl, rfl⟩) h
  unfold Machine.coolAfter
  split
  · split
    · exact h
    · exact hu _
  · split
    · exact h
    · exact hu _
  · exact h

theorem StrandKept.freezeAfter (k : Strand) (a b : StrandSettings) (s : State) (h : Q none s) :
    Q none (freezeAfter k a b s) := by
  unfold Machine.freezeAfter
  split
  · next hf => exact K.freeze k s (.inr (.inr hf.2.1)) h
  · exact h

theorem StrandKept.handleStrandSettings (b : Byte) (body : StrandBody) (s : State) (h : Q none s) :
    Q none (handleStrandSettings b body s).1 := by
  refine namingInService_keeps b _ s h fun k hk _ => ?_
  split
  · exact h
  · next p l hb =>
    refine checked_keeps _ _ s h fun hc => ?_
    have hlock := hc (l != s.levelSet k && (s.unit k).levelOn, .locked) (by simp)
    obtain ⟨hp, hl⟩ := readStrandBody_inRange hb
    refine K.freezeAfter k _ _ _ (K.coolAfter k _ _ _ (live_of_configured hk) (K.strandSettings k p l s ⟨hp, hl, ?_⟩ h))
    by_cases he : l = s.levelSet k
    · exact .inl he
    · exact .inr (by simpa [he] using hlock)

theorem StrandKept.control (k : Strand) (draw mode choice : Byte) (s : State)
    (hc : (s.strand k).condition = .casting) (h : Q none s) : Q none (control k draw mode choice s) := by
  have hl : Live s k := live_of_restartingOrCasting (by rw [hc]; rfl)
  have h1 := (K.updates none).unit k (applyChoice choice) s (.inl hl) (unitOK_of_same fun u => by
    unfold applyChoice UnitState.setChoice
    split
    · exact ⟨rfl, rfl, rfl, rfl, rfl, rfl, rfl⟩
    · split <;> exact ⟨rfl, rfl, rfl, rfl, rfl, rfl, rfl⟩) h
  have ho : ∀ (m : ControlMode) (t : State), UnitOK t k (UnitState.setMode m) := by
    intro m t hu
    unfold UnitState.setMode
    split
    · exact hu
    · simp only [unitLawOf, UnitState.clearLock, Bool.and_eq_true] at hu ⊢
      exact ⟨⟨hu.1.1, by simp⟩, hu.2⟩
  have h2 := (K.updates none).unit k (applyMode mode) _
    (.inl (live_of_carried (updUnit_carried _ _ _) hl)) (by
      unfold applyMode
      intro hu
      split
      · exact ho _ _ hu
      · split
        · exact ho _ _ hu
        · exact hu) h1
  unfold Machine.control
  dsimp only
  split
  · refine K.enterHeld k _ _ ?_ h2
    have c := (updUnit_carried k (applyChoice choice) s).trans (updUnit_carried k (applyMode mode) _)
    rw [restartingOrCasting_of_name (c.2.1 k).1, hc]
    rfl
  · exact h2

theorem StrandKept.includeIn (p : PoolId) (b : Bool) (k : Strand) (s : State) (h : Q none s) : Q none (includeIn p b k s) := by
  unfold Machine.includeIn
  split
  · exact K.pend _ (K.excluded p _ s h)
  · exact h

theorem StrandKept.applyCaster (c : CasterSettings) (s : State) (hc : casterInRange c = true) (h : Q none s) :
    Q none (applyCaster c s) := by
  refine K.same (s := { s with working := { s.working with caster := c } }) ?_ (K.caster c s hc h)
  unfold Machine.applyCaster applyPeriods
  dsimp only
  split <;> split <;> split <;> exact sameCore_of rfl rfl rfl rfl rfl rfl rfl rfl rfl

theorem StrandKept.startCold (k : Strand) (s : State) (hd : (s.strand k).condition = .dry) (hf : s.faults.look k = none)
    (h : Q none s) : Q none (startCold k s).1 := by
  unfold Machine.startCold
  split
  · next n p hp =>
    have hplan := ((lookupPlan_eq_some_iff _ _ _ n p).mp hp).choose_spec.2.2.1
    exact K.enterRestarting k _ n p s (K.restartDry k _ n s hd hf hplan h)
  · exact h

theorem StrandKept.clearFault (k : Strand) (s : State) (h : Q none s) : Q none (clearFault k s) := by
  unfold Machine.clearFault
  split
  · exact K.pend _ (K.noFault k s h)
  · exact h

theorem StrandKept.handleArbiterWrite (b : ArbiterBody) (s : State) (h : Q none s) : Q none (handleArbiterWrite b s).1 := by
  unfold Machine.handleArbiterWrite
  split
  · exact h
  · next a b c d e f g =>
    cases hp : readPour a b c d e f g with
    | none => exact h
    | some p =>
      exact checked_keeps _ _ s h fun hc => K.pour p s (readPour_inRange hp) (hc (s.pour.inUse, .busy) (by simp)) h
  · next a b c d =>
    cases hp : readDrive a b c d with
    | none => exact h
    | some p =>
      exact checked_keeps _ _ s h fun hc => K.drive p s (readDrive_inRange hp) (hc (s.drive.inUse, .busy) (by simp)) h

/-- The handlers of the requests to the Plan Store and the Grade Map. -/
theorem StrandKept.handlePlanWrite (n : Byte) (p : RawPlan) (s : State) (h : Q none s) : Q none (handlePlanWrite n p s).1 := by
  unfold Machine.handlePlanWrite
  split
  · exact h
  · split
    · exact h
    · split
      · exact h
      · next p hp => exact K.plan _ _ s (readPlan_inRange hp) h

theorem StrandKept.handlePlanErase (n : Byte) (s : State) (h : Q none s) : Q none (handlePlanErase n s).1 := by
  unfold Machine.handlePlanErase
  cases slotOf n with
  | none => exact h
  | some n => exact checked_keeps _ _ s h fun _ => K.plan n none s rfl h

theorem StrandKept.handleMapWrite (b : WindowBody) (s : State) (h : Q none s) : Q none (handleMapWrite b s).1 := by
  unfold Machine.handleMapWrite
  split
  · next n w hw => exact K.window n w s (readWindow_mayStore hw) h
  · exact h

theorem StrandKept.handleMapDisable (b : Byte) (s : State) (h : Q none s) : Q none (handleMapDisable b s).1 := by
  unfold Machine.handleMapDisable
  cases windowOf b with
  | none => exact h
  | some n => exact K.window n _ s (.inr rfl) h

/-- The requests that change a strand's condition. -/
theorem StrandKept.handleService (b r : Byte) (s : State) (h : Q none s) : Q none (handleService b r s).1 := by
  refine namingStrand_keeps b _ s h fun k hk => checked_keeps _ _ s h fun _ => ?_
  have hl := live_of_configured hk
  split
  · unfold serviceOff
    split
    · exact K.enterOffline k s hl h
    · exact K.enterOffline k s hl h
    all_goals exact h
  · unfold serviceOn
    split
    · exact K.returnToService k s hl h
    all_goals exact h

theorem StrandKept.handleStart (b : Byte) (s : State) (h : Q none s) : Q none (handleStart b s).1 := by
  refine namingInService_keeps b _ s h fun k _ _ => checked_keeps _ _ s h fun hc => ?_
  have hd := hc ((s.strand k).condition != .dry, .wrongState) (by simp [startChecks])
  have hf := hc ((s.faults.look k).isSome, .faultPending) (by simp [startChecks])
  exact K.startCold k s (by simpa using hd) (by simpa using hf) h

theorem StrandKept.handleStrandControl (b l d m c : Byte) (s : State) (h : Q none s) :
    Q none (handleStrandControl b l d m c s).1 := by
  refine namingInService_keeps b _ s h fun k _ _ => checked_keeps _ _ s h fun hc => ?_
  have hd := hc ((s.strand k).condition != .casting, .wrongState) (by simp [controlChecks])
  exact K.control k d m c s (by simpa using hd) h

theorem StrandKept.handleStore (s : State) (h : Q none s) : Q none (handleStore s).1 := by
  unfold Machine.handleStore
  split
  · exact h
  all_goals exact K.same (s := s) (sameCore_of rfl rfl rfl rfl rfl rfl rfl rfl rfl) h

theorem StrandKept.handleNoticeClear (m : BitVec 32) (s : State) (h : Q none s) : Q none (handleNoticeClear m s).1 := by
  have hc : SameCore s
      { s with noticePending := Vector.ofFn fun n => s.noticePending.look n && !m.getLsbD n.val } := by
    refine ⟨rfl, rfl, rfl, rfl, rfl, rfl, rfl, rfl, fun n hn => ?_⟩
    rw [look_ofFn, Bool.and_eq_true] at hn
    exact hn.1
  exact checked_keeps _ _ s h fun _ => K.same hc h

/-- What the handler of a request that is not caster-wide does keeps the law. -/
theorem StrandKept.handler {i : Instr} (hi : isCasterWide i = false) (f : Handler) (hf : handlerOf i = some f) (s : State)
    (h : Q none s) : Q none (f s).1 := by
  unfold handlerOf at hf
  split at hf <;> cases hf
  case h_3 => exact checked_keeps _ _ s h fun hc => K.applyCaster _ s (by simpa using hc) h
  case h_4 => exact K.handleStore s h
  case h_5 => exact namingStrand_keeps _ _ s h fun _ _ => h
  case h_6 => exact K.handleStrandSettings _ _ s h
  case h_7 => exact K.handleStart _ s h
  case h_8 =>
    exact namingInService_keeps _ _ s h fun k _ _ => checked_keeps _ _ s h fun _ => K.abortStrand k 0 s h
  case h_9 => exact K.handleStrandControl _ _ _ _ _ s h
  case h_10 =>
    exact namingInService_keeps _ _ s h fun k hk _ => checked_keeps _ _ s h fun _ =>
      K.releaseFlag _ k s (live_of_configured hk) h
  case h_11 =>
    exact namingInService_keeps _ _ s h fun k hk _ => checked_keeps _ _ s h fun _ =>
      K.enterDry k s (live_of_configured hk) (K.weaken k s h)
  case h_12 => exact K.handleService _ _ s h
  case h_13 => exact namingStrand_keeps _ _ s h fun _ _ => h
  case h_14 => exact namingInService_keeps _ _ s h fun k _ _ => K.clearFault k s h
  case h_15 => exact K.handlePlanWrite _ _ s h
  case h_16 => rw [handlePlanRead_state]; exact h
  case h_17 => exact K.handlePlanErase _ s h
  case h_18 => exact checked_keeps _ _ s h fun _ => K.banks _ s h
  case h_19 => exact checked_keeps _ _ s h fun _ => K.banks _ s h
  case h_20 => rw [handleMapRead_state]; exact h
  case h_21 => exact K.handleMapWrite _ s h
  case h_22 => exact K.handleMapDisable _ s h
  case h_23 => rw [handleArbiterRead_state]; exact h
  case h_24 => exact K.handleArbiterWrite _ s h
  case h_25 =>
    exact namingInService_keeps _ _ s h fun k _ _ => checked_keeps _ _ s h fun _ =>
      K.includeIn _ _ k _ (K.includeIn _ _ k s h)
  case h_26 | h_27 | h_28 | h_29 => cases hi
  case h_30 => exact checked_keeps _ _ s h fun _ => K.unlatch s h
  case h_31 => exact checked_keeps _ _ s h fun hc => K.noticeLevels _ s (noticeLevels_inRange (by simpa using hc)) h
  case h_33 => exact K.handleNoticeClear _ s h
  all_goals exact h

end

/-! ### Every command -/

section
variable {Q : Option Strand → State → Prop} (K : Kept Q)
include K

/-- What an event does before the choice at its end keeps the law. -/
theorem Kept.effect (i : Instr) (s : State) (h : Q none s) : Q none (effect i s) := by
  have guarded : ∀ (c : Prop) [Decidable c] (t : State), (c → Q none t) → Q none (if c then t else s) :=
    fun c _ t ht => by
      split
      · next hc => exact ht hc
      · exact h
  cases i with
  | reset => exact K.reset s h
  | supplyOkFirstLevel b n => exact K.takeFirstSupply b n s h
  | supplyOkFall n => exact K.takeSupplyFall n s h
  | supplyOkRise n => exact K.takeSupplyRise n s h
  | tcRequestRise => exact guarded _ _ fun hs => K.enterHolding s hs h
  | tundishInPlaceRise => exact guarded _ _ fun hs => K.enterFilling s hs h
  | weightSample x =>
    cases x with
    | valid w => exact K.takeWeight w s h
    | invalid => exact h
  | tripSample b => exact K.takeTrip b _ (K.same (s := s) (sameCore_of rfl rfl rfl rfl rfl rfl rfl rfl rfl) h)
  | rideThroughExpiry => exact K.rideExpiry s h
  | settleExpiry => exact K.settleEnd s h
  | tundishChange | tundishInPlace | tundishAbort | tripArm => exact h
  | _ => exact K.toStrandKept.effect _ rfl s h

/-- What a request's handler does keeps the law. -/
theorem Kept.handler (f : Handler) (hf : IsHandler f) (s : State) (h : Q none s) : Q none (f s).1 := by
  obtain ⟨i, hi⟩ | ⟨c, rfl⟩ := hf
  case inr => exact h
  cases i with
  | tundishChange =>
    cases hi
    exact checked_keeps _ _ s h fun hc => K.enterHolding s (by simpa using hc) h
  | tundishInPlace =>
    cases hi
    exact checked_keeps _ _ s h fun hc => K.enterFilling s (by simpa using hc) h
  | tundishAbort =>
    cases hi
    exact checked_keeps _ _ s h fun _ => K.abandonChange s h
  | tripArm =>
    cases hi
    exact K.arm s h
  | reset | supplyOkFirstLevel | supplyOkFall | supplyOkRise | tcRequestRise | tundishInPlaceRise | weightSample
  | tripSample | rideThroughExpiry | settleExpiry => cases hi
  | _ => exact K.toStrandKept.handler rfl f hi s h

theorem Kept.handleRequest (tag kind : Byte) (f : Handler) (hf : IsHandler f) (s : State) (h : Q none s) :
    Q none (handleRequest tag kind f s) := by
  unfold Machine.handleRequest
  split
  · exact h
  · exact K.noticeChoice _ (K.same (s := (f s).1) (sameCore_of rfl rfl rfl rfl rfl rfl rfl rfl rfl) (K.handler f hf s h))

/-! ### Steps -/

theorem Kept.exec (i : Instr) (s t : State) (h : Q none s) (he : exec i s = .next t) : Q none t := by
  rcases command_cases i with ⟨f, hf⟩ | ⟨b, rfl⟩ | hi
  · obtain ⟨g, hg, hx⟩ := exec_request hf
    cases (hx s).symm.trans he
    exact K.handleRequest _ _ g (.inl ⟨i, hg⟩) s h
  · cases he
    have hr : ∀ r, Q none { s with receiver := r } := fun r =>
      K.same (s := s) (sameCore_of rfl rfl rfl rfl rfl rfl rfl rfl rfl) h
    obtain ⟨r, e⟩ | ⟨tag, kind, g, hg, e⟩ := receiveByte_cases b s
    · rw [e]; exact hr r
    · rw [e]; exact K.handleRequest tag kind g hg _ (hr _)
  · cases (exec_event hi s).symm.trans he
    exact K.noticeChoice _ (K.effect i s h)

/-- What a law's updates keep, every step keeps. -/
theorem Kept.step (s t : State) (h : Q none s) (hs : step s = .next t) : Q none t :=
  step_keeps (P := Q none) (fun i s t => K.exec i s t)
    (fun s _ _ _ h => K.same (s := s) (sameCore_of rfl rfl rfl rfl rfl rfl rfl rfl rfl) h) K.tick s t h hs

end

end Sys2Proof.Machine
end
section
/-! PROOFS. The laws that do not read the pools: what is left to show for each, beside what the walk gives. A law that does not
read a field is kept by a change of that field as it stands, which the fields' defaults say. -/

namespace Sys2Proof.Machine

/-- The family `Q` reads neither the pools nor the pending flags, and is kept by the updates it reads. -/
structure StrandLaw (Q : Option Strand → State → Prop) : Prop where
  weaken : ∀ k s, Q none s → Q (some k) s
  same : ∀ o s t, t.strands = s.strands → t.units = s.units → t.coordinator = s.coordinator → t.faults = s.faults →
    t.working = s.working → t.configuredCount = s.configuredCount →
    (∀ n, t.noticePending.look n = true → s.noticePending.look n = true) → Q o s → Q o t
  pend : ∀ o src s, Q o s → Q o (pend src s)
  record : ∀ o k f s, (∀ r : RestartRecord, r.Onward (f r)) → Q o s → Q o (modRecord k f s)
  calm : ∀ o k s, Q o s → Q o (modStrand k (fun c => { c with driveLost := false }) s)
  unit : ∀ o k f s, Live s k ∨ f UnitState.initial = UnitState.initial → UnitOK s k f → Q o s → Q o (updUnit k f s)
  small : ∀ k f s, Live s k → SmallChange s k f → Q none s → Q none (modStrand k f s)
  breakout : ∀ k c s, (s.strand k).condition = .halted c → Q none s →
    Q none (modStrand k (fun c => { c with condition := .halted .breakout }) s)
  setFlag : ∀ k f s, (s.strand k).condition = .held → Q none s → Q none (modStrand k (StrandContext.setFlag f true) s)
  clearFlag : ∀ k f s, Live s k → (s.strand k).flag f = true →
    ((s.strand k).condition = .held → ((s.strand k).setFlag f false).anyHold = true) →
    Q none s → Q none (modStrand k (StrandContext.setFlag f false) s)
  clearLast : ∀ k f s, Live s k → Q none s → Q (some k) (modStrand k (StrandContext.setFlag f false) s)
  settle : ∀ k f s, (∀ c, Settled (f c)) → Live s k → Freed s k → (s.unit k).draw = false → Q (some k) s →
    Q none (reportSettled k (modStrand k f s))
  hold : ∀ k f s, (s.strand k).condition.restartingOrCasting = true → Freed s k → (s.unit k).draw = false →
    Q none s → Q none (modStrand k (StrandContext.hold f) s)
  cast : ∀ k s, (s.record? k).isSome = true → Withdrawn s k → Q none s →
    Q none (reportSettled k (modStrand k StrandContext.cast s))
  restartDry : ∀ k r n s, (s.strand k).condition = .dry → s.faults.look k = none →
    s.working.plans.look n = some r.snapshot.plan → Q none s → Q none (setCondition k (.restarting r) s)
  restartHeld : ∀ k f r n s, (s.strand k).condition = .held → ((s.strand k).setFlag f false).anyHold = false →
    s.working.plans.look n = some r.snapshot.plan → Q none s →
    Q none (setCondition k (.restarting r) (modStrand k (StrandContext.setFlag f false) s))
  tick : ∀ s, Q none s → Q none (tick s)
  reset : ∀ s, Q none (Machine.restart s)
  coordinator : ∀ c s, CoordinatorMove s c → Q none s → Q none { s with coordinator := c } := by exact fun _ _ _ h => h
  fault : ∀ k c d s, Live s k → Q (some k) s → Q (some k) (writeFault k c d s)
  faultAtRest : ∀ k c d s, Live s k → (s.strand k).condition.waitsForHost = true → Q none s →
    Q none (writeFault k c d s)
  noFault : ∀ k s, Q none s → Q none { s with faults := s.faults.put k none } := by exact fun _ _ h => h
  levels : ∀ o k p s, s.action? k = some (.level (.plan p)) → p.lockBand ≠ 0 → Q o s →
    Q o { s with working := { s.working with levels := s.working.levels.put k p } } := by exact fun _ _ _ _ _ _ h => h
  caster : ∀ c s, casterInRange c = true → Q none s →
    Q none { s with working := { s.working with caster := c } } := by exact fun _ _ _ h => h
  strandSettings : ∀ k p l s, MayStoreStrand s k p l → Q none s → Q none (storeStrand k p l s) := by
    exact fun _ _ _ _ _ h => h
  plan : ∀ n p s, slotInRange p = true → Q none s → Q none (storeSlot n p s) := by exact fun _ _ _ _ h => h
  banks : ∀ b s, Q none s → Q none { s with working := { s.working with banks := b } } := by exact fun _ _ h => h
  window : ∀ n w s, MayStoreWindow s n w → Q none s → Q none (storeWindow n w s) := by exact fun _ _ _ _ h => h
  pour : ∀ p s, pourInRange p = true → Q none s → Q none (storePour p s) := by exact fun _ _ _ h => h
  drive : ∀ p s, driveInRange p = true → Q none s → Q none (storeDrive p s) := by exact fun _ _ _ h => h
  noticeLevels : ∀ l s, l.every (· ≤ 7) = true → Q none s →
    Q none { s with working := { s.working with noticeLevels := l } } := by exact fun _ _ _ h => h

section
variable {Q : Option Strand → State → Prop} (S : StrandLaw Q)
include S

/-- A change of a pool is no change to such a law. -/
theorem StrandLaw.modPool (o : Option Strand) (p : PoolId) (f : Pool → Pool) (s : State) (h : Q o s) :
    Q o (modPool p f s) :=
  S.same o s _ (by simp) (by simp) (by simp) (by simp) (by simp) (by simp) (fun _ h => by simpa using h) h

theorem StrandLaw.tasks (o : Option Strand) : TasksKeep (Q o) where
  same := fun s t ⟨h1, h2, _, _, h5, h6, h7, h8, h9⟩ h => S.same o s t h1 h2 h5 h6 h7 h8 h9 h
  pend := S.pend o
  record := S.record o
  modGrant := fun p k f s h => by
    unfold Machine.modGrant
    split
    · exact S.modPool o p _ s h
    · exact h
  unit := S.unit o
  join := fun p k s _ h => S.modPool o p _ s h
  grant := fun p e l s _ _ _ h =>
    S.same o s _ (by simp) (by simp) (by simp) (by simp) (by simp) (by simp) (fun _ h => by simpa using h) h
  dropGrant := fun p k s h => S.modPool o p _ s h
  levels := S.levels o
  calm := S.calm o

theorem StrandLaw.kept : Kept Q where
  weaken := S.weaken
  updates := fun o => (S.tasks o).toUpdatesKeep
  drain := fun o l s h => (S.tasks o).drain l s h
  release := fun o p k l s _ h => (S.tasks o).drain l _ ((S.tasks o).dropGrant p k s h)
  dropEntry := fun o p _ s h => S.modPool o p _ s h
  excluded := fun p _ s h => S.modPool none p _ s h
  opened := fun p s h => (S.tasks none).drain _ _ (S.modPool none p _ s h)
  closed := fun p s h => S.modPool none p _ s h
  cleared := fun p s h => S.modPool none p _ s h
  coordinator := S.coordinator
  small := S.small
  fault := S.fault
  faultAtRest := S.faultAtRest
  noFault := S.noFault
  setFlag := S.setFlag
  clearFlag := S.clearFlag
  clearLast := S.clearLast
  breakout := S.breakout
  settle := S.settle
  hold := S.hold
  cast := S.cast
  restartDry := S.restartDry
  restartHeld := S.restartHeld
  tick := S.tick
  reset := fun s _ => S.reset s
  caster := S.caster
  strandSettings := S.strandSettings
  plan := S.plan
  banks := S.banks
  window := S.window
  pour := fun p s hp _ h => S.pour p s hp h
  drive := fun p s hp _ h => S.drive p s hp h
  noticeLevels := S.noticeLevels

end

/-- What a law says of a strand, for each strand but the one within a change. -/
def ForStrands (L : State → Strand → Prop) (o : Option Strand) (s : State) : Prop := ∀ j, o ≠ some j → L s j

theorem ForStrands.weaken {L : State → Strand → Prop} (k : Strand) (s : State) (h : ForStrands L none s) :
    ForStrands L (some k) s := fun j _ => h j nofun

end Sys2Proof.Machine
end
section
/-! PROOFS. The hold law and the Fault Log's law: what each change of a strand's condition makes of them (R7, R9, R12, R171). -/

namespace Sys2Proof.Machine

/-! ### Reading a changed context back -/

theorem modStrand_strand (k j : Strand) (f : StrandContext → StrandContext) (s : State) :
    (modStrand k f s).strand j = if j = k then f (s.strand k) else s.strand j := by
  split
  · next h => subst h; simp
  · next h => simp [h]

theorem modRecord_strand (k j : Strand) (f : RestartRecord → RestartRecord) (s : State) :
    (modRecord k f s).strand j = s.strand j ∨
      ∃ r, s.record? j = some r ∧ j = k ∧ (modRecord k f s).strand j = { s.strand j with condition := .restarting (f r) } := by
  by_cases hj : j = k
  · subst hj
    cases hr : s.record? j with
    | none => left; simp [modRecord, hr]
    | some r => right; exact ⟨r, rfl, rfl, by simp [modRecord_of_record _ _ _ _ hr]⟩
  · left
    cases hr : s.record? k with
    | none => simp [modRecord, hr]
    | some r => rw [modRecord_of_record _ _ _ _ hr, strand_withRecord_ne _ _ _ _ hj]

theorem condition_of_record? {s : State} {k : Strand} {r : RestartRecord} (h : s.record? k = some r) :
    (s.strand k).condition = .restarting r := by
  simp only [State.record?, Condition.record?] at h
  cases hc : (s.strand k).condition <;> simp_all

theorem condition_of_record?_isSome {s : State} {k : Strand} (h : (s.record? k).isSome = true) :
    ∃ r, (s.strand k).condition = .restarting r := by
  obtain ⟨r, hr⟩ := Option.isSome_iff_exists.mp h
  exact ⟨r, condition_of_record? hr⟩

theorem restartingOrCasting_cases {c : Condition} (h : c.restartingOrCasting = true) :
    c = .casting ∨ ∃ r, c = .restarting r := by
  cases c with
  | casting => exact .inl rfl
  | restarting r => exact .inr ⟨r, rfl⟩
  | _ => cases h

/-- Two changes of one context are one change. -/
theorem modStrand_modStrand (k : Strand) (f g : StrandContext → StrandContext) (s : State) :
    modStrand k g (modStrand k f s) = modStrand k (fun c => g (f c)) s := by
  unfold modStrand
  simp only [State.strand, look_put_same, put_put]

/-- A millisecond of a strand's context, as it stands in the state after it. -/
theorem tick_strand (s : State) (j : Strand) : (tick s).strand j = (s.strand j).tick := by
  simp only [tick, State.strand, emitAll, advanceClock, look_map]

theorem restart_strand (s : State) (j : Strand) : ∃ b, (restart s).strand j = StrandContext.initial b :=
  ⟨_, look_ofFn _ j⟩

/-- The law `M` of a strand's context, for every strand but the one within a change. -/
def ForContexts (M : StrandContext → Prop) : Option Strand → State → Prop := ForStrands fun s j => M (s.strand j)

section
variable {M : StrandContext → Prop} {o : Option Strand} {s t : State} {k : Strand}

theorem ForContexts.of_strands (ht : t.strands = s.strands) (h : ForContexts M o s) : ForContexts M o t :=
  fun j hj => by simpa only [State.strand, ht] using h j hj

/-- A strand's context is changed to one that the law allows. -/
theorem ForContexts.mod {f : StrandContext → StrandContext} (h : ForContexts M (some k) s) (hf : M (f (s.strand k))) :
    ForContexts M o (modStrand k f s) := fun j _ => by
  simp only [modStrand_strand]
  split
  · exact hf
  · next hj => exact h j (fun e => hj (Option.some.inj e).symm)

/-- A change of a strand's context that the law does not see. -/
theorem ForContexts.mod_of {f : StrandContext → StrandContext} (h : ForContexts M o s)
    (hf : M (s.strand k) → M (f (s.strand k))) : ForContexts M o (modStrand k f s) := fun j hj => by
  simp only [modStrand_strand]
  split
  · next e => exact hf (e ▸ h j hj)
  · exact h j hj

theorem ForContexts.record {f : RestartRecord → RestartRecord} (h : ForContexts M o s)
    (hf : ∀ (c : StrandContext) r, c.condition = .restarting r → M c → M { c with condition := .restarting (f r) }) :
    ForContexts M o (modRecord k f s) := fun j hj => by
  obtain e | ⟨r, hr, -, e⟩ := modRecord_strand k j f s
  · exact e ▸ h j hj
  · exact e ▸ hf _ r (condition_of_record? hr) (h j hj)

theorem ForContexts.reported (h : ForContexts M o s) : ForContexts M o (reportSettled k s) := fun j hj => by
  simpa only [reportSettled_strand] using h j hj

theorem ForContexts.settled {f : StrandContext → StrandContext} (h : ForContexts M (some k) s)
    (hf : ∀ c, Settled c → M c) (hs : ∀ c, Settled (f c)) : ForContexts M o (reportSettled k (modStrand k f s)) :=
  (h.mod (hf _ (hs _))).reported

end

/-! ### The hold law -/

/-- The hold law as a relation of a context's condition, its hold flags and its timer. -/
theorem holdLawAt_iff (c : StrandContext) :
    holdLawAt c = true ↔ (c.anyHold = true ↔ c.condition = .held) ∧
      (c.holdTimer.running = true → c.condition.heldOrRestarting = true) ∧
      (c.condition = .held → c.holdTimer.running = true) := by
  simp only [holdLawAt, Bool.and_eq_true, beq_iff_eq, Bool.or_eq_true, Bool.not_eq_true', bne_iff_ne, ne_eq, and_assoc,
    Decidable.imp_iff_not_or, Bool.not_eq_true]
  rw [Bool.eq_iff_iff, beq_iff_eq]

theorem holdLawAt_of_settled {c : StrandContext} (h : Settled c) : holdLawAt c = true := by
  obtain ⟨hw, ha, hr⟩ := h
  rw [holdLawAt_iff, ha, hr]
  refine ⟨⟨nofun, fun e => ?_⟩, nofun, fun e => ?_⟩ <;> rw [e] at hw <;> cases hw

/-- A context that keeps its condition and its flags, its timer kept or stopped outside HELD, keeps the law. -/
theorem holdLawAt_of_eq {c d : StrandContext} (h1 : d.condition = c.condition) (h2 : d.anyHold = c.anyHold)
    (h3 : d.holdTimer.running = c.holdTimer.running ∨ (d.holdTimer.running = false ∧ c.condition ≠ .held))
    (h : holdLawAt c = true) : holdLawAt d = true := by
  rw [holdLawAt_iff] at h ⊢
  rw [h1, h2]
  rcases h3 with e | ⟨e, hn⟩
  · rwa [e]
  · exact ⟨h.1, fun hr => absurd hr (by rw [e]; nofun), fun hh => absurd hh hn⟩

theorem holdLawAt_tick {c : StrandContext} (h : holdLawAt c = true) : holdLawAt c.tick = true := by
  have hn : c.tick.condition = .held ↔ c.condition = .held := by
    cases hc : c.condition <;> simp [StrandContext.tick, hc, Condition.tick]
  have hh : c.tick.condition.heldOrRestarting = c.condition.heldOrRestarting := by
    cases hc : c.condition <;> simp [StrandContext.tick, hc, Condition.tick, Condition.heldOrRestarting]
  have hr : c.tick.holdTimer.running = c.holdTimer.running := by
    simp only [StrandContext.tick, HoldTimer.tick]
    split <;> rfl
  rw [holdLawAt_iff] at h ⊢
  rw [hn, hh, hr]
  exact h

/-- A flag set: the strand has a hold flag. -/
theorem anyHold_setFlag (f : HoldFlag) (c : StrandContext) : (StrandContext.setFlag f true c).anyHold = true := by
  cases f <;> simp [StrandContext.setFlag, StrandContext.anyHold]

theorem anyHold_of_flag {f : HoldFlag} {c : StrandContext} (h : c.flag f = true) : c.anyHold = true := by
  cases f <;> simp_all [StrandContext.flag, StrandContext.anyHold]

theorem setFlag_fields (f : HoldFlag) (b : Bool) (c : StrandContext) :
    (c.setFlag f b).condition = c.condition ∧ (c.setFlag f b).holdTimer = c.holdTimer := by
  cases f <;> exact ⟨rfl, rfl⟩

theorem holdTimer_start_running (t : HoldTimer) : t.start.running = true := by
  unfold HoldTimer.start
  split
  · next h => exact h
  · rfl

theorem holdLawAt_hold (f : HoldFlag) (c : StrandContext) : holdLawAt (c.hold f) = true := by
  rw [holdLawAt_iff]
  exact ⟨⟨fun _ => rfl, fun _ => anyHold_setFlag f c⟩, fun _ => rfl, fun _ => holdTimer_start_running _⟩

/-- Without a hold flag a strand may be RESTARTING. -/
theorem holdLawAt_restarting {c : StrandContext} (r : RestartRecord) (h : c.anyHold = false) :
    holdLawAt { c with condition := .restarting r } = true := by
  rw [holdLawAt_iff]
  exact ⟨⟨fun e => absurd (h.symm.trans e) nofun, nofun⟩, fun _ => rfl, nofun⟩

theorem anyHold_of_not_held {c : StrandContext} (h : holdLawAt c = true) (hc : c.condition ≠ .held) :
    c.anyHold = false := by
  rw [holdLawAt_iff] at h
  cases ha : c.anyHold with
  | false => rfl
  | true => exact absurd (h.1.mp ha) hc

/-- A restart that has completed is CASTING, its timer stopped (R17). -/
theorem holdLawAt_cast {c : StrandContext} (h : holdLawAt c = true) (hc : c.condition ≠ .held) :
    holdLawAt c.cast = true := by
  rw [holdLawAt_iff]
  exact ⟨⟨fun e => absurd ((anyHold_of_not_held h hc).symm.trans e) nofun, nofun⟩, nofun, nofun⟩

theorem holdLawAt_breakout {c : StrandContext} {a b : HaltCause} (hc : c.condition = .halted a)
    (h : holdLawAt c = true) : holdLawAt { c with condition := .halted b } = true := by
  have ha := anyHold_of_not_held h (by rw [hc]; nofun)
  rw [holdLawAt_iff, hc] at h
  rw [holdLawAt_iff]
  exact ⟨⟨fun e => absurd (ha.symm.trans e) nofun, nofun⟩, h.2.1, nofun⟩

theorem holdLawAt_setFlag {c : StrandContext} (f : HoldFlag) (hc : c.condition = .held) (h : holdLawAt c = true) :
    holdLawAt (StrandContext.setFlag f true c) = true := by
  obtain ⟨e1, e2⟩ := setFlag_fields f true c
  rw [holdLawAt_iff] at h ⊢
  rw [e1, e2]
  exact ⟨⟨fun _ => hc, fun _ => anyHold_setFlag f _⟩, h.2⟩

theorem holdLawAt_clearFlag {c : StrandContext} {f : HoldFlag} (hf : c.flag f = true)
    (ha : c.condition = .held → (c.setFlag f false).anyHold = true) (h : holdLawAt c = true) :
    holdLawAt (StrandContext.setFlag f false c) = true := by
  obtain ⟨e1, e2⟩ := setFlag_fields f false c
  rw [holdLawAt_iff] at h ⊢
  rw [e1, e2]
  exact ⟨⟨fun _ => h.1.mp (anyHold_of_flag hf), ha⟩, h.2⟩

theorem smallChange_anyHold {s : State} {k : Strand} {f : StrandContext → StrandContext} (h : SmallChange s k f) :
    (f (s.strand k)).anyHold = (s.strand k).anyHold := by
  obtain ⟨-, h1, h2, h3, -⟩ := h
  simp only [StrandContext.anyHold, h1, h2, h3]

theorem ne_held_of_record? {s : State} {k : Strand} (h : (s.record? k).isSome = true) : (s.strand k).condition ≠ .held := by
  obtain ⟨r, hc⟩ := condition_of_record?_isSome h
  rw [hc]; nofun

theorem holdLaw_strandLaw : StrandLaw (ForContexts fun c => holdLawAt c = true) where
  weaken := ForStrands.weaken
  same := fun o s t h1 _ _ _ _ _ _ h => h.of_strands h1
  pend := fun o src s h => h.of_strands (by simp)
  record := fun o k f s _ h => h.record fun c r hc hm =>
    holdLawAt_restarting (f r) (anyHold_of_not_held hm (by rw [hc]; nofun))
  calm := fun o k s h => h.mod_of (holdLawAt_of_eq rfl rfl (.inl rfl))
  unit := fun o k f s _ _ h => h.of_strands (by simp)
  small := fun k f s _ hs h => h.mod_of
    (holdLawAt_of_eq hs.1 (smallChange_anyHold hs) (hs.2.2.2.2.imp_right (And.imp_right ne_held_of_record?)))
  breakout := fun k c s hc h => h.mod_of (holdLawAt_breakout hc)
  setFlag := fun k f s hc h => h.mod_of (holdLawAt_setFlag f hc)
  clearFlag := fun k f s _ hf ha h => h.mod_of (holdLawAt_clearFlag hf ha)
  clearLast := fun k f s _ h j hj => by
    simp only [modStrand_strand]
    rw [if_neg fun e => hj (by rw [e])]
    exact h j nofun
  settle := fun k f s hf _ _ _ h => h.settled (fun _ => holdLawAt_of_settled) hf
  hold := fun k f s _ _ _ h => h.mod_of fun _ => holdLawAt_hold f _
  cast := fun k s hr _ h => ForContexts.reported (h.mod_of fun hm => holdLawAt_cast hm (ne_held_of_record? hr))
  restartDry := fun k r n s hc _ _ h => h.mod_of fun hm =>
    holdLawAt_restarting r (anyHold_of_not_held hm (by rw [hc]; nofun))
  restartHeld := fun k f r n s _ ha _ h => by
    unfold setCondition
    rw [modStrand_modStrand]
    exact h.mod_of fun _ => holdLawAt_restarting r ha
  fault := fun k c d s _ h => h.of_strands (by simp)
  faultAtRest := fun k c d s _ _ h => h.of_strands (by simp)
  tick := fun s h j hj => by simp only [tick_strand]; exact holdLawAt_tick (h j hj)
  reset := fun s j _ => by
    obtain ⟨b, e⟩ := restart_strand s j
    simp only [e]
    cases b <;> rfl

theorem holdLaw_iff (s : State) : holdLaw s = true ↔ ForContexts (fun c => holdLawAt c = true) none s := by
  simp only [holdLaw, List.all_eq_true, mem_allStrands, forall_const, ForContexts, ForStrands]
  exact ⟨fun h j _ => h j, fun h j => h j nofun⟩

/-- Settles O55: a hold flag is set with the entry into HELD and cleared with the exit, the last one by a restart or a halt. -/
theorem stepKeepsHoldLaw : Obligations.StepKeepsHoldLaw := fun s t h hs =>
  (holdLaw_iff t).mpr (holdLaw_strandLaw.kept.step s t ((holdLaw_iff s).mp h) hs)

end Sys2Proof.Machine
end
section
/-! PROOFS. The Fault Log's law and the release set's law: both read a strand's condition by its name alone (R12, R134, R171). -/

namespace Sys2Proof.Machine

/-! ### The Fault Log's law -/

theorem waitsForHost_of_name {c d : Condition} (h : c.name = d.name) : c.waitsForHost = d.waitsForHost := by
  cases c <;> cases d <;> first | rfl | cases h

theorem heldOrRestarting_of_name {c d : Condition} (h : c.name = d.name) : c.heldOrRestarting = d.heldOrRestarting := by
  cases c <;> cases d <;> first | rfl | cases h

theorem tick_name (s : State) (j : Strand) : ((tick s).strand j).condition.name = (s.strand j).condition.name := by
  rw [tick_strand]
  unfold StrandContext.tick
  cases (s.strand j).condition <;> rfl

theorem writeFault_strand (k j : Strand) (c : FaultCode) (d : Nat) (s : State) :
    (writeFault k c d s).strand j = s.strand j := by simp [State.strand]

theorem writeFault_faults_ne {k j : Strand} (c : FaultCode) (d : Nat) (s : State) (h : j ≠ k) :
    (writeFault k c d s).faults.look j = s.faults.look j := by simp [writeFault, h]

/-- The Fault Log's law for one strand. -/
def FaultOK (s : State) (j : Strand) : Prop := s.faults.look j = none ∨ (s.strand j).condition.waitsForHost = true

theorem FaultOK.of_name {s t : State} {j : Strand} (hf : t.faults = s.faults)
    (hn : (t.strand j).condition.name = (s.strand j).condition.name) (h : FaultOK s j) : FaultOK t j := by
  simpa only [FaultOK, hf, waitsForHost_of_name hn] using h

/-- A strand that is neither DRY nor HALTED nor OFFLINE has no valid fault record. -/
theorem FaultOK.none_of {s : State} {j : Strand} (h : FaultOK s j) (hw : (s.strand j).condition.waitsForHost = false) :
    s.faults.look j = none := h.resolve_right (by rw [hw]; nofun)

section
variable {o : Option Strand} {s t : State} {k : Strand}

theorem faultLaw_of_carried (c : Carried s t) (h : ForStrands FaultOK o s) : ForStrands FaultOK o t :=
  fun j hj => (h j hj).of_name c.2.2.1 (c.2.1 j).1

theorem faultLaw_of_strands (hs : t.strands = s.strands) (hf : t.faults = s.faults) (h : ForStrands FaultOK o s) :
    ForStrands FaultOK o t := fun j hj => (h j hj).of_name hf (by simp only [State.strand, hs])

/-- A change of strand `k`'s context that leaves the law its say. -/
theorem faultLaw_mod {f : StrandContext → StrandContext} (h : ForStrands FaultOK o s)
    (hk : FaultOK s k → s.faults.look k = none ∨ (f (s.strand k)).condition.waitsForHost = true) :
    ForStrands FaultOK o (modStrand k f s) := fun j hj => by
  by_cases e : j = k
  · subst e
    simpa only [FaultOK, modStrand_faults, modStrand_strand_same] using hk (h j hj)
  · exact (h j hj).of_name (by simp) (by simp [e])

theorem faultLaw_mod_name {f : StrandContext → StrandContext} (h : ForStrands FaultOK o s)
    (hn : (f (s.strand k)).condition.name = (s.strand k).condition.name) : ForStrands FaultOK o (modStrand k f s) :=
  faultLaw_mod h fun hk => by rwa [waitsForHost_of_name hn]

theorem reportSettled_faults (k : Strand) (s : State) : (reportSettled k s).faults = s.faults := by
  unfold reportSettled enterSteady
  dsimp only
  split
  · split <;> simp
  · rfl

theorem reportSettled_strands (k : Strand) (s : State) : (reportSettled k s).strands = s.strands :=
  Vector.ext fun i hi => reportSettled_strand k ⟨i, hi⟩ s

theorem faultLaw_strandLaw : StrandLaw (ForStrands FaultOK) where
  weaken := ForStrands.weaken
  same := fun o s t hs _ _ hf _ _ _ h => faultLaw_of_strands hs hf h
  pend := fun o src s h => faultLaw_of_carried (pend_carried src s) h
  record := fun o k f s _ h => faultLaw_of_carried (modRecord_carried k f s) h
  calm := fun o k s h => faultLaw_mod_name h rfl
  unit := fun o k f s _ _ h => faultLaw_of_carried (updUnit_carried k f s) h
  small := fun k f s _ hs h => faultLaw_mod_name h (congrArg Condition.name hs.1)
  breakout := fun k c s hc h => faultLaw_mod h fun _ => .inr rfl
  setFlag := fun k f s _ h => faultLaw_mod_name h (congrArg Condition.name (setFlag_fields f true _).1)
  clearFlag := fun k f s _ _ _ h => faultLaw_mod_name h (congrArg Condition.name (setFlag_fields f false _).1)
  clearLast := fun k f s _ h => ForStrands.weaken k _ (faultLaw_mod_name h (congrArg Condition.name (setFlag_fields f false _).1))
  settle := fun k f s hf _ _ _ h => faultLaw_of_strands (reportSettled_strands k _) (reportSettled_faults k _) fun j _ => by
    by_cases e : j = k
    · subst e
      exact .inr (by rw [modStrand_strand_same]; exact (hf _).1)
    · exact (h j fun e' => e (Option.some.inj e').symm).of_name (by simp) (by simp [e])
  hold := fun k f s hc _ _ h => faultLaw_mod h fun hk => .inl (hk.none_of (by
    obtain e | ⟨r, e⟩ := restartingOrCasting_cases hc <;> rw [e] <;> rfl))
  cast := fun k s hr _ h => faultLaw_of_strands (reportSettled_strands k _) (reportSettled_faults k _)
    (faultLaw_mod h fun hk => .inl (hk.none_of (by
      obtain ⟨r, e⟩ := condition_of_record?_isSome hr
      rw [e]; rfl)))
  restartDry := fun k r n s _ hf _ h => faultLaw_mod h fun _ => .inl hf
  restartHeld := fun k f r n s hc _ _ h => faultLaw_mod
    (faultLaw_mod_name h (congrArg Condition.name (setFlag_fields f false _).1)) fun hk => .inl (hk.none_of (by
      rw [modStrand_strand_same, (setFlag_fields f false _).1, hc]; rfl))
  fault := fun k c d s _ h j hj => by
    unfold FaultOK
    rw [writeFault_strand, writeFault_faults_ne c d s fun e => hj (by rw [e])]
    exact h j hj
  faultAtRest := fun k c d s _ hw h j hj => by
    by_cases e : j = k
    · subst e
      exact .inr (by rw [writeFault_strand]; exact hw)
    · unfold FaultOK
      rw [writeFault_strand, writeFault_faults_ne c d s e]
      exact h j hj
  noFault := fun k s h j hj => by
    by_cases e : j = k
    · subst e
      exact .inl (look_put_same _ _ _)
    · exact (h j hj).imp_left (fun h => (look_put_ne _ _ _ _ e).trans h)
  tick := fun s h j hj => (h j hj).of_name (by simp [tick, emitAll, advanceClock]) (tick_name s j)
  reset := fun s j _ => .inl (look_all _ _)

theorem faultLaw_iff (s : State) : faultLaw s = true ↔ ForStrands FaultOK none s := by
  simp only [faultLaw, List.all_eq_true, mem_allStrands, forall_const, ForStrands, FaultOK, Bool.or_eq_true,
    Option.isNone_iff_eq_none]
  exact ⟨fun h j _ => h j, fun h j => h j nofun⟩

end

/-- Settles O54: a fault is written only with the halt that it causes, or on a strand that waits for the host. -/
theorem stepKeepsFaultLaw : Obligations.StepKeepsFaultLaw := fun s t h hs =>
  (faultLaw_iff t).mpr (faultLaw_strandLaw.kept.step s t ((faultLaw_iff s).mp h) hs)

/-! ### The release set -/

theorem isEmpty_iff (m : StrandSet) : m.isEmpty = true ↔ ∀ j, m.look j = false := by
  simp [StrandSet.isEmpty, List.all_eq_true]

theorem look_erase (m : StrandSet) (k j : Strand) : (m.erase k).look j = true ↔ j ≠ k ∧ m.look j = true := by
  unfold StrandSet.erase
  rw [look_put]
  split <;> simp_all

/-- The Coordinator once it has heard that strand `k` has settled (R134, R135). -/
def Coordinator.settled (k : Strand) (c : Coordinator) : Coordinator :=
  if c.state = .releasing ∧ c.releaseSet.look k = true then
    { c with
      releaseSet := c.releaseSet.erase k
      state := if (c.releaseSet.erase k).isEmpty ∧ c.entering = false then .steady else .releasing }
  else c

theorem reportSettled_coordinator (k : Strand) (s : State) :
    (reportSettled k s).coordinator = s.coordinator.settled k := by
  unfold reportSettled Coordinator.settled enterSteady
  dsimp only
  split
  · next h =>
    simp only [pend_coordinator, modCoordinator_coordinator]
    split
    · simp
    · simp [h.1]
  · rfl

/-- The release set's law. -/
def ReleaseOK (s : State) : Prop :=
  (s.coordinator.state = .releasing ∨ s.coordinator.releaseSet.isEmpty = true) ∧
    ∀ j, s.coordinator.releaseSet.look j = true → (s.strand j).condition.heldOrRestarting = true

theorem releaseLaw_iff (s : State) : releaseLaw s = true ↔ ReleaseOK s := by
  simp only [releaseLaw, ReleaseOK, Bool.and_eq_true, Bool.or_eq_true, beq_iff_eq, List.all_eq_true, mem_allStrands,
    forall_const, Bool.not_eq_true', Decidable.imp_iff_not_or, Bool.not_eq_true]

section
variable {s t : State} {k : Strand}

theorem ReleaseOK.of_names (hc : t.coordinator = s.coordinator)
    (hn : ∀ j, (t.strand j).condition.name = (s.strand j).condition.name) (h : ReleaseOK s) : ReleaseOK t := by
  unfold ReleaseOK
  simp only [hc, heldOrRestarting_of_name (hn _)]
  exact h

theorem ReleaseOK.of_carried (c : Carried s t) (h : ReleaseOK s) : ReleaseOK t :=
  h.of_names c.2.2.2.2.2.1 fun j => (c.2.1 j).1

/-- Strand `k` may take any condition that is HELD or RESTARTING, and any at all where it is no member. -/
theorem ReleaseOK.mod {f : StrandContext → StrandContext} (h : ReleaseOK s)
    (hk : s.coordinator.releaseSet.look k = true → (f (s.strand k)).condition.heldOrRestarting = true) :
    ReleaseOK (modStrand k f s) := by
  refine ⟨h.1, fun j hj => ?_⟩
  rw [modStrand_strand]
  split
  · next e => exact hk (e ▸ hj)
  · exact h.2 j hj

theorem ReleaseOK.mod_name {f : StrandContext → StrandContext} (h : ReleaseOK s)
    (hn : (f (s.strand k)).condition.name = (s.strand k).condition.name) : ReleaseOK (modStrand k f s) :=
  h.mod fun hk => by rw [heldOrRestarting_of_name hn]; exact h.2 k hk

/-- A strand settles in any condition: it leaves the release set with the report (R134). -/
theorem ReleaseOK.settled {f : StrandContext → StrandContext} (h : ReleaseOK s) :
    ReleaseOK (reportSettled k (modStrand k f s)) := by
  have hs : ∀ j, j ≠ k → s.coordinator.releaseSet.look j = true →
      ((reportSettled k (modStrand k f s)).strand j).condition.heldOrRestarting = true := fun j e hj => by
    rw [reportSettled_strand, modStrand_strand, if_neg e]
    exact h.2 j hj
  unfold ReleaseOK
  rw [reportSettled_coordinator, modStrand_coordinator]
  unfold Coordinator.settled
  split
  · refine ⟨?_, fun j hj => ?_⟩
    · dsimp only
      split
      · next he => exact .inr he.1
      · exact .inl rfl
    · obtain ⟨e, hj⟩ := (look_erase _ _ _).mp hj
      exact hs j e hj
  · next hc =>
    refine ⟨h.1, fun j hj => ?_⟩
    by_cases e : j = k
    · subst e
      rcases h.1 with hr | he
      · exact absurd ⟨hr, hj⟩ hc
      · exact absurd ((isEmpty_iff _).mp he j) (by rw [hj]; nofun)
    · exact hs j e hj

theorem ReleaseOK.move {c : Coordinator} (hm : CoordinatorMove s c) (h : ReleaseOK s) :
    ReleaseOK { s with coordinator := c } := by
  have empty : c.releaseSet.isEmpty = true → ReleaseOK { s with coordinator := c } := fun he =>
    ⟨.inr he, fun j hj => absurd ((isEmpty_iff _).mp he j) (by rw [hj]; nofun)⟩
  rcases hm with ⟨e1, e2⟩ | ⟨hn, -, e2⟩ | he | ⟨e1, e2⟩
  · exact ⟨by rw [e1, e2]; exact h.1, fun j hj => h.2 j (e2 ▸ hj)⟩
  · exact empty (e2 ▸ h.1.resolve_left hn)
  · exact empty he
  · refine ⟨.inl e1, fun j hj => ?_⟩
    have hh : heldForTundish s j = true := by simpa only [e2, look_ofFn] using hj
    simp only [heldForTundish, Bool.and_eq_true, beq_iff_eq] at hh
    change (s.strand j).condition.heldOrRestarting = true
    rw [hh.1.2]
    rfl

end

theorem releaseLaw_strandLaw : StrandLaw fun _ => ReleaseOK where
  weaken := fun _ _ h => h
  same := fun o s t hs _ hc _ _ _ _ h => h.of_names hc fun j => by simp only [State.strand, hs]
  pend := fun o src s h => h.of_carried (pend_carried src s)
  record := fun o k f s _ h => h.of_carried (modRecord_carried k f s)
  calm := fun o k s h => h.mod_name rfl
  unit := fun o k f s _ _ h => h.of_carried (updUnit_carried k f s)
  small := fun k f s _ hs h => h.mod_name (congrArg Condition.name hs.1)
  breakout := fun k c s hc h => h.mod_name (by rw [hc]; rfl)
  setFlag := fun k f s _ h => h.mod_name (congrArg Condition.name (setFlag_fields f true _).1)
  clearFlag := fun k f s _ _ _ h => h.mod_name (congrArg Condition.name (setFlag_fields f false _).1)
  clearLast := fun k f s _ h => h.mod_name (congrArg Condition.name (setFlag_fields f false _).1)
  settle := fun k f s _ _ _ _ h => h.settled
  hold := fun k f s _ _ _ h => h.mod fun _ => rfl
  cast := fun k s _ _ h => h.settled
  restartDry := fun k r n s _ _ _ h => h.mod fun _ => rfl
  restartHeld := fun k f r n s _ _ _ h =>
    (h.mod_name (congrArg Condition.name (setFlag_fields f false _).1)).mod fun _ => rfl
  coordinator := fun c s hm h => h.move hm
  fault := fun k c d s _ h => h.of_names (by simp) fun j => by simp [State.strand]
  faultAtRest := fun k c d s _ _ h => h.of_names (by simp) fun j => by simp [State.strand]
  tick := fun s h => h.of_names (by simp [tick, emitAll, advanceClock]) (tick_name s)
  reset := fun s => ⟨.inr isEmpty_none, fun j hj => absurd (hj.symm.trans ((isEmpty_iff _).mp isEmpty_none j)) nofun⟩

/-- Settles O58: a strand that leaves HELD and RESTARTING is reported to the Coordinator, which takes it out of the set. -/
theorem stepKeepsReleaseLaw : Obligations.StepKeepsReleaseLaw := fun s t h hs =>
  (releaseLaw_iff t).mpr (releaseLaw_strandLaw.kept.step s t ((releaseLaw_iff s).mp h) hs)

end Sys2Proof.Machine
end
section
/-! PROOFS. The settings' law, the unit's law and the law of the strands above the configured count. -/

namespace Sys2Proof.Machine

/-! ### The settings' law -/

theorem settingsInRange_iff (w : Settings) : settingsInRange w = true ↔
    casterInRange w.caster = true ∧ (∀ k, strandInRange (w.strands.look k) = true) ∧
    (∀ k, levelInRange (w.levels.look k) = true) ∧ (∀ n, slotInRange (w.plans.look n) = true) ∧
    (∀ n, windowInRange (w.windows.look n) = true) ∧ pourInRange w.pour = true ∧ driveInRange w.drive = true ∧
    w.noticeLevels.every (· ≤ 7) = true := by
  simp only [settingsInRange, Bool.and_eq_true, every_iff, and_assoc]

/-- The settings' law. -/
def SettingsOK (s : State) : Prop :=
  settingsInRange s.working = true ∧ ∀ j, snapshotInRange (s.strand j).condition = true

theorem settingsLaw_iff (s : State) : settingsLaw s = true ↔ SettingsOK s := by
  simp only [settingsLaw, SettingsOK, Bool.and_eq_true, List.all_eq_true, mem_allStrands, forall_const]

theorem snapshotInRange_of_settled {c : StrandContext} (h : Settled c) : snapshotInRange c.condition = true := by
  obtain ⟨hw, -, -⟩ := h
  unfold snapshotInRange
  cases hc : c.condition <;> first | rfl | (rw [hc] at hw; cases hw)

theorem snapshotInRange_tick (c : Condition) : snapshotInRange c.tick = snapshotInRange c := by cases c <;> rfl

/-- A slot of the table replaced by an entry in its range. -/
theorem look_put_inRange {n : Nat} {α : Type} {p : α → Bool} {t : Tab n α} {x : α} (i : Fin n)
    (h : ∀ j, p (t.look j) = true) (hx : p x = true) (j : Fin n) : p ((t.put i x).look j) = true := by
  rw [look_put]
  split
  · exact hx
  · exact h j

theorem windowInRange_mayStore {s : State} {n : Fin 8} {w : GradeWindow}
    (h : windowInRange (s.working.windows.look n) = true) (hw : MayStoreWindow s n w) : windowInRange w = true := by
  simp only [windowInRange, Bool.and_eq_true, decide_eq_true_eq] at h ⊢
  rcases hw with ⟨hs, ha, hb⟩ | e
  · exact ⟨⟨hb.elim id fun e => e ▸ h.1.1, hs⟩, ha⟩
  · subst e
    exact h

/-- The level parameter set of a LEVEL step at hand lies in its ranges, as the step's plan does (R30). -/
theorem levelInRange_of_action {s : State} {k : Strand} {p : LevelParams} (ha : s.action? k = some (.level (.plan p)))
    (h : snapshotInRange (s.strand k).condition = true) : levelInRange p = true := by
  obtain ⟨r, hr⟩ := Option.isSome_iff_exists.mp (record?_of_action ha)
  simp only [State.action?, hr, Option.bind_some, Option.map_eq_some_iff] at ha
  obtain ⟨q, hq, hqa⟩ := ha
  rw [condition_of_record? hr] at h
  simp only [snapshotInRange, Condition.record?, planInRange, Bool.and_eq_true] at h
  have hs := List.all_eq_true.mp h.2 q (List.mem_of_getElem? hq)
  simp only [stepInRange, hqa, Bool.and_eq_true] at hs
  exact hs.2

section
variable {s t : State} {k : Strand}

theorem SettingsOK.of_eq (hs : t.strands = s.strands) (hw : t.working = s.working) (h : SettingsOK s) : SettingsOK t :=
  ⟨hw ▸ h.1, fun j => by simpa only [State.strand, hs] using h.2 j⟩

theorem SettingsOK.mod {f : StrandContext → StrandContext} (h : SettingsOK s)
    (hf : snapshotInRange (s.strand k).condition = true → snapshotInRange (f (s.strand k)).condition = true) :
    SettingsOK (modStrand k f s) := ⟨h.1, fun j => by
  rw [modStrand_strand]
  split
  · exact hf (h.2 k)
  · exact h.2 j⟩

theorem SettingsOK.mod_same {f : StrandContext → StrandContext} (h : SettingsOK s)
    (hf : (f (s.strand k)).condition = (s.strand k).condition) : SettingsOK (modStrand k f s) :=
  h.mod fun hk => by rwa [hf]

theorem reportSettled_working (k : Strand) (s : State) : (reportSettled k s).working = s.working := by
  unfold reportSettled enterSteady
  dsimp only
  split
  · split <;> simp
  · rfl

theorem SettingsOK.reported (h : SettingsOK s) : SettingsOK (reportSettled k s) :=
  h.of_eq (reportSettled_strands k s) (reportSettled_working k s)

/-- A plan of the store becomes a snapshot (R49). -/
theorem SettingsOK.snapshot {r : RestartRecord} {n : Fin 32} (h : SettingsOK s)
    (hp : s.working.plans.look n = some r.snapshot.plan) : snapshotInRange (.restarting r) = true := by
  obtain ⟨-, -, -, hplans, -⟩ := (settingsInRange_iff _).mp h.1
  exact (congrArg slotInRange hp).symm.trans (hplans n)

theorem loadImage_inRange (i : Image) : settingsInRange (loadImage i).1 = true := by
  have hd : settingsInRange Config.defaultSettings = true := by decide +kernel
  unfold loadImage
  split
  · split
    · next h => exact h
    · exact hd
  · exact hd
  · exact hd

/-- Settings replaced by settings that lie in their ranges. -/
theorem SettingsOK.store {w : Settings} (h : SettingsOK s) (hw : settingsInRange w = true) :
    SettingsOK { s with working := w } := ⟨hw, h.2⟩

theorem settingsLaw_strandLaw : StrandLaw fun _ => SettingsOK where
  weaken := fun _ _ h => h
  same := fun o s t hs _ _ _ hw _ _ h => h.of_eq hs hw
  pend := fun o src s h => h.of_eq (by simp) (by simp)
  record := fun o k f s hf h => ⟨by rw [modRecord_working]; exact h.1, fun j => by
    obtain e | ⟨r, hr, -, e⟩ := modRecord_strand k j f s
    · exact e ▸ h.2 j
    · have hj := h.2 j
      rw [condition_of_record? hr] at hj
      rw [e]
      simpa only [snapshotInRange, Condition.record?, (hf r).2.2.2.1] using hj⟩
  calm := fun o k s h => h.mod_same rfl
  unit := fun o k f s _ _ h => h.of_eq (by simp) (by simp)
  small := fun k f s _ hs h => h.mod_same hs.1
  breakout := fun k c s _ h => h.mod fun _ => rfl
  setFlag := fun k f s _ h => h.mod_same (setFlag_fields f true _).1
  clearFlag := fun k f s _ _ _ h => h.mod_same (setFlag_fields f false _).1
  clearLast := fun k f s _ h => h.mod_same (setFlag_fields f false _).1
  settle := fun k f s hf _ _ _ h => (h.mod fun _ => snapshotInRange_of_settled (hf _)).reported
  hold := fun k f s _ _ _ h => h.mod fun _ => rfl
  cast := fun k s _ _ h => (h.mod fun _ => rfl).reported
  restartDry := fun k r n s _ _ hp h => h.mod fun _ => h.snapshot hp
  restartHeld := fun k f r n s _ _ hp h => (h.mod_same (setFlag_fields f false _).1).mod fun _ => h.snapshot hp
  fault := fun k c d s _ h => h.of_eq (by simp) (by simp)
  faultAtRest := fun k c d s _ _ h => h.of_eq (by simp) (by simp)
  tick := fun s h => ⟨h.1, fun j => by
    rw [tick_strand]
    exact (snapshotInRange_tick _).trans (h.2 j)⟩
  reset := fun s => ⟨loadImage_inRange _, fun j => by
    obtain ⟨b, e⟩ := restart_strand s j
    rw [e]
    cases b <;> rfl⟩
  levels := fun o k p s ha _ h => h.store (by
    obtain ⟨h1, h2, h3, h4⟩ := (settingsInRange_iff _).mp h.1
    exact (settingsInRange_iff _).mpr ⟨h1, h2, look_put_inRange k h3 (levelInRange_of_action ha (h.2 k)), h4⟩)
  caster := fun c s hc h => h.store ((settingsInRange_iff _).mpr ⟨hc, ((settingsInRange_iff _).mp h.1).2⟩)
  strandSettings := fun k p l s hm h => h.store (by
    obtain ⟨h1, h2, h3, h4⟩ := (settingsInRange_iff _).mp h.1
    exact (settingsInRange_iff _).mpr ⟨h1, look_put_inRange k h2 hm.1, look_put_inRange k h3 hm.2.1, h4⟩)
  plan := fun n p s hp h => h.store (by
    obtain ⟨h1, h2, h3, h4, h5⟩ := (settingsInRange_iff _).mp h.1
    exact (settingsInRange_iff _).mpr ⟨h1, h2, h3, look_put_inRange n h4 hp, h5⟩)
  window := fun n w s hm h => h.store (by
    obtain ⟨h1, h2, h3, h4, h5, h6⟩ := (settingsInRange_iff _).mp h.1
    exact (settingsInRange_iff _).mpr
      ⟨h1, h2, h3, h4, look_put_inRange n h5 (windowInRange_mayStore (h5 n) hm), h6⟩)
  pour := fun p s hp h => h.store (by
    obtain ⟨h1, h2, h3, h4, h5, -, h7⟩ := (settingsInRange_iff _).mp h.1
    exact (settingsInRange_iff _).mpr ⟨h1, h2, h3, h4, h5, hp, h7⟩)
  drive := fun p s hp h => h.store (by
    obtain ⟨h1, h2, h3, h4, h5, h6, -, h8⟩ := (settingsInRange_iff _).mp h.1
    exact (settingsInRange_iff _).mpr ⟨h1, h2, h3, h4, h5, h6, hp, h8⟩)
  noticeLevels := fun l s hl h => h.store (by
    obtain ⟨h1, h2, h3, h4, h5, h6, h7, -⟩ := (settingsInRange_iff _).mp h.1
    exact (settingsInRange_iff _).mpr ⟨h1, h2, h3, h4, h5, h6, h7, hl⟩)

end

/-- Settles O57: a setting is stored once its request's checks have passed, a LEVEL step's from a snapshot, and a snapshot is
taken of a stored plan. -/
theorem stepKeepsSettingsLaw : Obligations.StepKeepsSettingsLaw := fun s t h hs =>
  (settingsLaw_iff t).mpr (settingsLaw_strandLaw.kept.step s t ((settingsLaw_iff s).mp h) hs)

/-! ### The unit's law -/

/-- A unit whose DRAW is disengaged may be a strand's in any condition. -/
theorem unitLawOf_of_quiet {c d : Condition} {p : LevelParams} {u : UnitState} (hu : u.draw = false)
    (h : unitLawOf c p u = true) : unitLawOf d p u = true := by
  simpa only [unitLawOf, hu, Bool.not_false, Bool.true_or] using h

theorem unitLawOf_of_rc {c d : Condition} {p : LevelParams} {u : UnitState} (hc : d.restartingOrCasting = true)
    (h : unitLawOf c p u = true) : unitLawOf d p u = true := by
  simp only [unitLawOf, Bool.and_eq_true, Bool.or_eq_true] at h ⊢
  exact ⟨⟨⟨h.1.1.1.imp_right fun e => ⟨e.1, hc⟩, h.1.1.2⟩, h.1.2⟩, h.2⟩

/-- Of the level parameter set the law reads the lock band alone, and that only with LEVEL-ON on. -/
theorem unitLawOf_of_band {c : Condition} {p q : LevelParams} {u : UnitState}
    (hq : u.levelOn = false ∨ (q.lockBand != 0) = true) (h : unitLawOf c p u = true) : unitLawOf c q u = true := by
  simp only [unitLawOf, detectorActive_eq, Bool.and_eq_true, Bool.or_eq_true, Bool.not_eq_true'] at h ⊢
  cases hl : u.levelOn with
  | false => simpa [hl] using h
  | true =>
    have hp : (p.lockBand != 0) = true := by simpa [hl] using h.1.1.2
    have hq' : (q.lockBand != 0) = true := by simpa [hl] using hq
    simpa [hl, hp, hq'] using h

theorem unitLawOf_tickRamp (c : Condition) (p : LevelParams) (u : UnitState) :
    unitLawOf c p u.tickRamp = unitLawOf c p u := by
  unfold UnitState.tickRamp
  split <;> rfl

/-- The unit's law for one strand. -/
def UnitLaw (s : State) (j : Strand) : Prop := unitLawOf (s.strand j).condition (s.levelSet j) (s.unit j) = true

section
variable {o : Option Strand} {s t : State} {k : Strand}

/-- A change that leaves the conditions' names, the level parameter sets and the units. -/
theorem unitLaw_of_names (hn : ∀ j, (t.strand j).condition.name = (s.strand j).condition.name)
    (hw : t.working.levels = s.working.levels) (hu : t.units = s.units) (h : ForStrands UnitLaw o s) :
    ForStrands UnitLaw o t := fun j hj => by
  have := h j hj
  simpa only [UnitLaw, unitLawOf, restartingOrCasting_of_name (hn j), State.levelSet, hw, State.unit, hu] using this

theorem unitLaw_of_strands (hs : t.strands = s.strands) (hw : t.working.levels = s.working.levels) (hu : t.units = s.units)
    (h : ForStrands UnitLaw o s) : ForStrands UnitLaw o t :=
  unitLaw_of_names (fun j => by simp only [State.strand, hs]) hw hu h

theorem unitLaw_mod {f : StrandContext → StrandContext} (h : ForStrands UnitLaw o s)
    (hk : (f (s.strand k)).condition.name = (s.strand k).condition.name ∨
      (f (s.strand k)).condition.restartingOrCasting = true ∨ (s.unit k).draw = false) :
    ForStrands UnitLaw o (modStrand k f s) := fun j hj => by
  have hl : unitLawOf (s.strand j).condition (s.levelSet j) (s.unit j) = true := h j hj
  change unitLawOf ((modStrand k f s).strand j).condition (s.levelSet j) (s.unit j) = true
  rw [modStrand_strand]
  split
  · next e =>
    subst e
    rcases hk with hn | hc | hu
    · simpa only [unitLawOf, restartingOrCasting_of_name hn] using hl
    · exact unitLawOf_of_rc hc hl
    · exact unitLawOf_of_quiet hu hl
  · exact hl

theorem unitLaw_mod_same {f : StrandContext → StrandContext} (h : ForStrands UnitLaw o s)
    (hf : (f (s.strand k)).condition = (s.strand k).condition) : ForStrands UnitLaw o (modStrand k f s) :=
  unitLaw_mod h (.inl (congrArg Condition.name hf))

/-- The level parameter set of strand `k` replaced by one with a lock band, or while LEVEL-ON is off. -/
theorem unitLaw_putLevel {w : Settings} {p : LevelParams} (hw : w.levels = s.working.levels.put k p)
    (hp : (s.unit k).levelOn = false ∨ p.lockBand ≠ 0 ∨ p = s.levelSet k) (h : ForStrands UnitLaw o s) :
    ForStrands UnitLaw o { s with working := w } := fun j hj => by
  have hl : unitLawOf (s.strand j).condition (s.levelSet j) (s.unit j) = true := h j hj
  change unitLawOf (s.strand j).condition (w.levels.look j) (s.unit j) = true
  rw [hw, look_put]
  split
  · next e =>
    subst e
    rcases hp with hu | hb | e
    · exact unitLawOf_of_band (.inl hu) hl
    · exact unitLawOf_of_band (.inr (by simpa using hb)) hl
    · exact e ▸ hl
  · exact hl

theorem unitLaw_reported (h : ForStrands UnitLaw o s) : ForStrands UnitLaw o (reportSettled k s) :=
  unitLaw_of_strands (reportSettled_strands k s) (by rw [reportSettled_working])
    (Vector.ext fun i hi => reportSettled_unit k ⟨i, hi⟩ s) h

theorem unitLaw_strandLaw : StrandLaw fun _ => ForStrands UnitLaw none where
  weaken := fun _ _ h => h
  same := fun o s t hs hu _ _ hw _ _ h => unitLaw_of_strands hs (by rw [hw]) hu h
  pend := fun o src s h => unitLaw_of_strands (by simp) (by simp) (by simp) h
  record := fun o k f s _ h =>
    unitLaw_of_names (fun j => ((modRecord_carried k f s).2.1 j).1) (by simp) (by simp) h
  calm := fun o k s h => unitLaw_mod_same h rfl
  unit := fun o k f s _ hf h j hj => by
    have hl := h j hj
    have hs : (updUnit k f s).strand j = s.strand j := by simp [State.strand]
    have hw : (updUnit k f s).levelSet j = s.levelSet j := by simp [State.levelSet]
    unfold UnitLaw at hl ⊢
    rw [hs, hw]
    by_cases e : j = k
    · subst e
      rw [updUnit_unit_same]
      exact hf hl
    · rw [updUnit_unit_ne _ _ _ _ e]
      exact hl
  small := fun k f s _ hs h => unitLaw_mod_same h hs.1
  breakout := fun k c s hc h => unitLaw_mod h (.inl (by rw [hc]; rfl))
  setFlag := fun k f s _ h => unitLaw_mod_same h (setFlag_fields f true _).1
  clearFlag := fun k f s _ _ _ h => unitLaw_mod_same h (setFlag_fields f false _).1
  clearLast := fun k f s _ h => unitLaw_mod_same h (setFlag_fields f false _).1
  settle := fun k f s _ _ _ hu h => unitLaw_reported (unitLaw_mod h (.inr (.inr hu)))
  hold := fun k f s _ _ hu h => unitLaw_mod h (.inr (.inr hu))
  cast := fun k s _ _ h => unitLaw_reported (unitLaw_mod h (.inr (.inl rfl)))
  restartDry := fun k r n s _ _ _ h => unitLaw_mod h (.inr (.inl rfl))
  restartHeld := fun k f r n s _ _ _ h =>
    unitLaw_mod (unitLaw_mod_same h (setFlag_fields f false _).1) (.inr (.inl rfl))
  fault := fun k c d s _ h => unitLaw_of_strands (by simp) (by simp) (by simp) h
  faultAtRest := fun k c d s _ _ h => unitLaw_of_strands (by simp) (by simp) (by simp) h
  tick := fun s h j hj => by
    have hl := h j hj
    have hu : (tick s).unit j = (s.unit j).tickRamp := by
      simp only [tick, State.unit, emitAll, advanceClock, look_map]
    have hw : (tick s).levelSet j = s.levelSet j := rfl
    unfold UnitLaw at hl ⊢
    rw [hu, hw, unitLawOf_tickRamp]
    simpa only [unitLawOf, restartingOrCasting_of_name (tick_name s j)] using hl
  reset := fun s j _ => by
    have hu : (restart s).unit j = UnitState.initial := look_all _ _
    unfold UnitLaw
    rw [hu]
    rfl
  levels := fun o k p s _ hb h => unitLaw_putLevel rfl (.inr (.inl hb)) h
  strandSettings := fun k p l s hm h => unitLaw_putLevel rfl (hm.2.2.elim (fun e => .inr (.inr e)) .inl) h

theorem unitLaw_iff (s : State) : unitLaw s = true ↔ ForStrands UnitLaw none s := by
  simp only [unitLaw, List.all_eq_true, mem_allStrands, forall_const, ForStrands, UnitLaw, ← unitLawAt_eq]
  exact ⟨fun h j _ => h j, fun h j => h j nofun⟩

end

/-- Settles O52: a strand leaves RESTARTING and CASTING with its unit at rest, and a level parameter set changes with LEVEL-ON
off or to one with a lock band. -/
theorem stepKeepsUnitLaw : Obligations.StepKeepsUnitLaw := fun s t h hs =>
  (unitLaw_iff t).mpr (unitLaw_strandLaw.kept.step s t ((unitLaw_iff s).mp h) hs)

/-! ### The strands above the configured count -/

/-- The law of a strand above the configured count. -/
def UnfittedOK (s : State) (j : Strand) : Prop :=
  s.isConfigured j = false → s.strand j = StrandContext.initial false ∧ s.unit j = UnitState.initial ∧
    s.faults.look j = none ∧ ∀ src ∈ [Source.state j, .lock j, .fault j], s.noticePending.look src.number = false

theorem unfittedLaw_iff (s : State) : unfittedLaw s = true ↔ ForStrands UnfittedOK none s := by
  simp only [unfittedLaw, List.all_eq_true, mem_allStrands, forall_const, ForStrands, UnfittedOK, unfittedLawAt,
    Bool.or_eq_true, Bool.and_eq_true, beq_iff_eq, Option.isNone_iff_eq_none, Bool.not_eq_true', List.forall_mem_cons,
    List.not_mem_nil, false_imp_iff, implies_true, and_true, Classical.or_iff_not_imp_left, Bool.not_eq_true, and_assoc]
  exact ⟨fun h j _ => h j, fun h j => h j nofun⟩

/-- Every source has its own number (R177). -/
theorem number_inj {a b : Source} (h : b.number = a.number) : b = a := by
  have inj : ∀ c : Source, Source.ofNumber c.number = c := by
    intro c
    cases c with
    | state k | lock k | fault k => revert k; decide
    | _ => decide
  rw [← inj b, h, inj a]

section
variable {s t : State} {k : Strand}

/-- A live strand at which the law holds is configured. -/
theorem configured_of_live (hl : Live s k) (h : UnfittedOK s k) : s.isConfigured k = true := by
  refine Classical.byContradiction fun hc => ?_
  obtain ⟨hs, -⟩ := h (by simpa using hc)
  rcases hl with h1 | h2 | h3
  · exact hc h1
  · rw [hs] at h2; cases h2
  · rw [hs] at h3; cases h3

/-- Nothing of an unfitted strand has changed. -/
theorem UnfittedOK.of {j : Strand} (hc : t.configuredCount = s.configuredCount) (hs : t.strand j = s.strand j)
    (hu : t.unit j = s.unit j) (hf : t.faults.look j = s.faults.look j)
    (hp : ∀ src ∈ [Source.state j, .lock j, .fault j], t.noticePending.look src.number = true →
      s.noticePending.look src.number = true) (h : UnfittedOK s j) : UnfittedOK t j := by
  intro hj
  obtain ⟨h1, h2, h3, h4⟩ := h (by simpa only [State.isConfigured, hc] using hj)
  refine ⟨hs.trans h1, hu.trans h2, hf.trans h3, fun src hm => ?_⟩
  refine Classical.byContradiction fun he => ?_
  exact absurd (h4 src hm) (by simp [hp src hm (by simpa using he)])

/-- A notice of a strand above the configured count does not become pending (R3). -/
theorem UnfittedOK.pend {j : Strand} (src : Source) (h : UnfittedOK s j) : UnfittedOK (pend src s) j := by
  intro hj
  have hj' : s.isConfigured j = false := by simpa [State.isConfigured] using hj
  obtain ⟨h1, h2, h3, h4⟩ := h hj'
  refine ⟨by simpa using h1, by simpa using h2, by simpa using h3, fun a ha => ?_⟩
  unfold Machine.pend
  split
  · next hm =>
    rw [look_put, if_neg]
    · exact h4 a ha
    · intro e
      have := number_inj e.symm
      subst this
      simp only [List.mem_cons, List.not_mem_nil, or_false] at ha
      rcases ha with e | e | e <;> subst e <;> exact absurd (hm.symm.trans hj') nofun
  · exact h4 a ha

theorem unfittedLaw_pend (src : Source) (h : ForStrands UnfittedOK none s) : ForStrands UnfittedOK none (pend src s) :=
  fun j hj => (h j hj).pend src

/-- A change of a configured strand alone. -/
theorem unfittedLaw_at (hk : Live s k) (hc : t.configuredCount = s.configuredCount)
    (hs : ∀ j, j ≠ k → t.strand j = s.strand j) (hu : ∀ j, j ≠ k → t.unit j = s.unit j)
    (hf : ∀ j, j ≠ k → t.faults.look j = s.faults.look j) (hp : t.noticePending = s.noticePending)
    (h : ForStrands UnfittedOK none s) : ForStrands UnfittedOK none t := fun j hj => by
  by_cases e : j = k
  · subst e
    have hs : t.isConfigured j = true := by
      rw [← configured_of_live hk (h j hj)]
      simp only [State.isConfigured, hc]
    exact fun hn => absurd (hs.symm.trans hn) nofun
  · exact (h j hj).of hc (hs j e) (hu j e) (hf j e) fun src _ h => hp ▸ h

theorem unfittedLaw_mod (f : StrandContext → StrandContext) (hk : Live s k) (h : ForStrands UnfittedOK none s) :
    ForStrands UnfittedOK none (modStrand k f s) :=
  unfittedLaw_at hk (by simp) (fun j e => by simp [e]) (fun j _ => rfl) (fun j _ => rfl) (by simp) h

theorem unfittedLaw_same (hc : t.configuredCount = s.configuredCount) (hs : t.strands = s.strands) (hu : t.units = s.units)
    (hf : t.faults = s.faults) (hp : ∀ n, t.noticePending.look n = true → s.noticePending.look n = true)
    (h : ForStrands UnfittedOK none s) : ForStrands UnfittedOK none t := fun j hj =>
  (h j hj).of hc (by simp only [State.strand, hs]) (by simp only [State.unit, hu]) (by rw [hf]) fun _ _ => hp _

theorem unfittedLaw_reported (h : ForStrands UnfittedOK none s) : ForStrands UnfittedOK none (reportSettled k s) := by
  have hm : ∀ f t, ForStrands UnfittedOK none t → ForStrands UnfittedOK none (pend .tundish (modCoordinator f t)) :=
    fun f t ht => unfittedLaw_pend _ (unfittedLaw_same (s := t) rfl rfl rfl rfl (fun _ h => h) ht)
  unfold reportSettled enterSteady
  dsimp only
  split
  · split
    · exact hm _ _ (hm _ _ h)
    · exact hm _ _ h
  · exact h

/-- A change of a live strand's unit, or of one that leaves a unit at its reset values. -/
theorem unfittedLaw_unit {f : UnitState → UnitState} (hf : Live s k ∨ f UnitState.initial = UnitState.initial)
    (h : ForStrands UnfittedOK none s) : ForStrands UnfittedOK none (modUnit k f s) := by
  rcases hf with hl | hi
  · exact unfittedLaw_at hl rfl (fun j _ => rfl) (fun j e => by simp [e]) (fun j _ => rfl) (by simp) h
  · intro j hj hn
    obtain ⟨h1, h2, h3, h4⟩ := h j hj hn
    refine ⟨h1, ?_, h3, h4⟩
    by_cases e : j = k
    · subst e
      rw [modUnit_unit_same, h2, hi]
    · rw [modUnit_unit_ne _ _ _ _ e, h2]

theorem unfittedLaw_strandLaw : StrandLaw fun _ => ForStrands UnfittedOK none where
  weaken := fun _ _ h => h
  same := fun o s t hs hu _ hf _ hc hp h => unfittedLaw_same hc hs hu hf hp h
  pend := fun o src s h => unfittedLaw_pend src h
  record := fun o k f s _ h => by
    unfold modRecord
    split
    · next r hr => exact unfittedLaw_mod _ (live_of_record (by rw [hr]; rfl)) h
    · exact h
  calm := fun o k s h j hj hn => by
    obtain ⟨h1, h2, h3, h4⟩ := h j hj hn
    refine ⟨?_, h2, h3, h4⟩
    rw [modStrand_strand]
    split
    · next e => subst e; rw [h1]; rfl
    · exact h1
  unit := fun o k f s hf _ h => by
    unfold updUnit
    split
    · exact unfittedLaw_unit hf h
    · exact unfittedLaw_pend _ (unfittedLaw_unit hf h)
  small := fun k f s hl _ h => unfittedLaw_mod f hl h
  breakout := fun k c s hc h => unfittedLaw_mod _ (.inr (.inl (by rw [hc]; rfl))) h
  setFlag := fun k f s hc h => unfittedLaw_mod _ (live_of_held hc) h
  clearFlag := fun k f s hl _ _ h => unfittedLaw_mod _ hl h
  clearLast := fun k f s hl h => unfittedLaw_mod _ hl h
  settle := fun k f s _ hl _ _ h => unfittedLaw_reported (unfittedLaw_mod f hl h)
  hold := fun k f s hc _ _ h => unfittedLaw_mod _ (live_of_restartingOrCasting hc) h
  cast := fun k s hr _ h => unfittedLaw_reported (unfittedLaw_mod _ (live_of_record hr) h)
  restartDry := fun k r n s hc _ _ h => unfittedLaw_mod _ (.inr (.inl (by rw [hc]; rfl))) h
  restartHeld := fun k f r n s hc _ _ h => by
    unfold setCondition
    rw [modStrand_modStrand]
    exact unfittedLaw_mod _ (live_of_held hc) h
  fault := fun k c d s hl h => unfittedLaw_pend _
    (unfittedLaw_at hl rfl (fun _ _ => rfl) (fun _ _ => rfl) (fun j e => look_put_ne _ _ _ _ e) rfl h)
  faultAtRest := fun k c d s hl _ h => unfittedLaw_pend _
    (unfittedLaw_at hl rfl (fun _ _ => rfl) (fun _ _ => rfl) (fun j e => look_put_ne _ _ _ _ e) rfl h)
  noFault := fun k s h j hj hn => by
    obtain ⟨h1, h2, h3, h4⟩ := h j hj hn
    refine ⟨h1, h2, ?_, h4⟩
    change (s.faults.put k none).look j = none
    rw [look_put]
    split
    · rfl
    · exact h3
  tick := fun s h j hj hn => by
    obtain ⟨h1, h2, h3, h4⟩ := h j hj hn
    refine ⟨by rw [tick_strand, h1]; rfl, ?_, h3, h4⟩
    change Tab.look (Vector.map UnitState.tickRamp s.units) j = _
    rw [look_map]
    change (s.unit j).tickRamp = _
    rw [h2]
    rfl
  reset := fun s j _ hn => by
    refine ⟨?_, look_all _ _, look_all _ _, fun _ _ => look_all _ _⟩
    exact (look_ofFn _ _).trans (congrArg StrandContext.initial hn)

end

/-- Settles O59: every change of a strand's fields, and every notice of its own, is of a configured strand. -/
theorem stepKeepsUnfittedLaw : Obligations.StepKeepsUnfittedLaw := fun s t h hs =>
  (unfittedLaw_iff t).mpr (unfittedLaw_strandLaw.kept.step s t ((unfittedLaw_iff s).mp h) hs)

end Sys2Proof.Machine
end
section
/-! PROOFS. The slots' law, the wait lists' law and the pools' capacities (R81, R83). -/

namespace Sys2Proof.Machine

/-! ### Holders and entries -/

theorem holds_put (x : Pool) (k j : Strand) (g : Option Grant) :
    Pool.holds { x with holders := x.holders.put k g } j = if j = k then g.isSome else x.holds j := by
  simp only [Pool.holds, Pool.grant?, look_put]
  split <;> rfl

theorem waiting_of_mem {x : Pool} {e : WaitEntry} (h : e ∈ x.waits) : x.waiting e.strand = true :=
  List.any_eq_true.mpr ⟨e, h, beq_self_eq_true _⟩

theorem pool_tick (s : State) (p : PoolId) : (tick s).pool p = (s.pool p).tick := by cases p <;> rfl

theorem holds_tick (x : Pool) (j : Strand) : x.tick.holds j = x.holds j := by
  simp only [Pool.holds, Pool.grant?, Pool.tick, look_map, Option.isSome_map]

theorem pool_restart (s : State) (p : PoolId) : ∃ b, (restart s).pool p = Pool.initial b := by
  cases p <;> exact ⟨_, rfl⟩

theorem holds_initial (b : Bool) (j : Strand) : (Pool.initial b).holds j = false := by
  simp [Pool.holds, Pool.grant?, Pool.initial]

/-- A grant's change leaves who holds. -/
theorem modGrant_pool (p q : PoolId) (k : Strand) (f : Grant → Grant) (s : State) :
    (∀ j, ((modGrant p k f s).pool q).holds j = (s.pool q).holds j) ∧ ((modGrant p k f s).pool q).waits = (s.pool q).waits ∧
      ((modGrant p k f s).pool q).arrivals = (s.pool q).arrivals ∧
      ((modGrant p k f s).pool q).isOpen = (s.pool q).isOpen := by
  unfold modGrant
  split
  · next g hg =>
    by_cases e : q = p
    · subst e
      simp only [modPool_pool_same, holds_put]
      refine ⟨fun j => ?_, trivial, trivial, trivial⟩
      split
      · next ej => subst ej; simp [Pool.holds, hg]
      · rfl
    · simp [e]
  · simp

theorem makeGrant_pool (p : PoolId) (k : Strand) (l : List WaitEntry) (s : State) :
    (makeGrant p k l s).pool p =
        { s.pool p with waits := l, holders := (s.pool p).holders.put k (some (newGrant p k s)) } ∧
      ∀ q, q ≠ p → (makeGrant p k l s).pool q = s.pool q := by
  cases p <;> refine ⟨rfl, fun q hq => ?_⟩ <;> cases q <;> first | rfl | exact absurd rfl hq

/-- Whatever pool `q` is, what is made of pool `p` by `f` is made of it alone. -/
theorem modPool_pool (p q : PoolId) (f : Pool → Pool) (s : State) :
    (modPool p f s).pool q = if q = p then f (s.pool q) else s.pool q := by
  split
  · next h => subst h; simp
  · next h => simp [h]

theorem pool_of_eq {s t : State} (hp : t.pour = s.pour) (hd : t.drive = s.drive) (p : PoolId) : t.pool p = s.pool p := by
  cases p <;> assumption

/-! ### Laws of the pools alone -/

/-- `P` reads the pools and their settings alone, and is kept by what the blocks do with the pools. -/
structure PoolLaw (P : State → Prop) : Prop where
  same : ∀ s t, t.pour = s.pour → t.drive = s.drive → t.working.pour = s.working.pour →
    t.working.drive = s.working.drive → P s → P t
  modGrant : ∀ p k f s, P s → P (modGrant p k f s)
  join : ∀ p k s, P s → P (joinWaits p k s)
  grant : ∀ p e rest s, (s.pool p).holderCount < capacity s p → (s.pool p).waits = e :: rest → P s →
    P (makeGrant p e.strand rest s)
  dropGrant : ∀ p k s, P s → P (dropGrant p k s)
  dropEntry : ∀ p k s, P s → P (dropEntry p k s)
  mark : ∀ p (b : Bool → Bool) (m : StrandSet → StrandSet) s, P s → P (modPool p (fun x => { x with isOpen := b x.isOpen, excluded := m x.excluded }) s)
  cleared : ∀ p s, P s → P (clearPool p s)
  tick : ∀ s, P s → P (tick s)
  reset : ∀ s, P (Machine.restart s)
  pour : ∀ p s, s.pour.inUse = false → P s → P (storePour p s)
  drive : ∀ p s, s.drive.inUse = false → P s → P (storeDrive p s)

section
variable {P : State → Prop} (L : PoolLaw P)
include L

theorem PoolLaw.tasks : TasksKeep P where
  same := fun s t ⟨_, _, h3, h4, _, _, h7, _, _⟩ h => L.same s t h3 h4 (by rw [h7]) (by rw [h7]) h
  pend := fun src s h => L.same s _ (by simp) (by simp) (by simp) (by simp) h
  record := fun k f s _ h => L.same s _ (by simp) (by simp) (by simp) (by simp) h
  modGrant := L.modGrant
  unit := fun k f s _ _ h => L.same s _ (by simp) (by simp) (by simp) (by simp) h
  join := fun p k s _ h => L.join p k s h
  grant := fun p e l s _ hc hw h => L.grant p e l s hc hw h
  dropGrant := L.dropGrant
  levels := fun k p s _ _ h => L.same s _ rfl rfl rfl rfl h
  calm := fun k s h => L.same s _ rfl rfl rfl rfl h

theorem PoolLaw.reported (k : Strand) (s : State) (h : P s) : P (reportSettled k s) := by
  obtain ⟨hp, hd⟩ := reportSettled_pools k s
  exact L.same s _ hp hd (by rw [reportSettled_working]) (by rw [reportSettled_working]) h

theorem PoolLaw.kept : Kept fun _ => P where
  weaken := fun _ _ h => h
  updates := fun _ => L.tasks.toUpdatesKeep
  drain := fun _ l s h => L.tasks.drain l s h
  release := fun _ p k l s _ h => L.tasks.drain l _ (L.dropGrant p k s h)
  dropEntry := fun _ => L.dropEntry
  excluded := fun p m s h => L.mark p id (fun _ => m) s h
  opened := fun p s h => L.tasks.drain _ _ (L.mark p (fun _ => true) id s h)
  closed := fun p s h => L.mark p (fun _ => false) id s h
  cleared := L.cleared
  coordinator := fun c s _ h => L.same s _ rfl rfl rfl rfl h
  small := fun k f s _ _ h => L.same s _ rfl rfl rfl rfl h
  fault := fun k c d s _ h => L.same s _ (by simp) (by simp) (by simp) (by simp) h
  faultAtRest := fun k c d s _ _ h => L.same s _ (by simp) (by simp) (by simp) (by simp) h
  noFault := fun k s h => L.same s _ rfl rfl rfl rfl h
  setFlag := fun k f s _ h => L.same s _ rfl rfl rfl rfl h
  clearFlag := fun k f s _ _ _ h => L.same s _ rfl rfl rfl rfl h
  clearLast := fun k f s _ h => L.same s _ rfl rfl rfl rfl h
  breakout := fun k c s _ h => L.same s _ rfl rfl rfl rfl h
  settle := fun k f s _ _ _ _ h => L.reported k _ (L.same s _ rfl rfl rfl rfl h)
  hold := fun k f s _ _ _ h => L.same s _ rfl rfl rfl rfl h
  cast := fun k s _ _ h => L.reported k _ (L.same s _ rfl rfl rfl rfl h)
  restartDry := fun k r n s _ _ _ h => L.same s _ rfl rfl rfl rfl h
  restartHeld := fun k f r n s _ _ _ h => L.same s _ rfl rfl rfl rfl h
  tick := L.tick
  reset := fun s _ => L.reset s
  caster := fun c s _ h => L.same s _ rfl rfl rfl rfl h
  strandSettings := fun k p l s _ h => L.same s _ rfl rfl rfl rfl h
  plan := fun n p s _ h => L.same s _ rfl rfl rfl rfl h
  banks := fun b s h => L.same s _ rfl rfl rfl rfl h
  window := fun n w s _ h => L.same s _ rfl rfl rfl rfl h
  pour := fun p s _ hu h => L.pour p s hu h
  drive := fun p s _ hu h => L.drive p s hu h
  noticeLevels := fun l s _ h => L.same s _ rfl rfl rfl rfl h

end

/-! ### The wait lists -/

theorem inGrantOrder_iff (l : List WaitEntry) : inGrantOrder l = true ↔ l.Pairwise (fun a b => grantedBefore a b = true) := by
  induction l with
  | nil => simp [inGrantOrder]
  | cons e l ih => simp [inGrantOrder, ih, List.all_eq_true]

theorem poolWaitLaw_iff (x : Pool) : poolWaitLaw x = true ↔
    x.waits.Pairwise (fun a b => grantedBefore a b = true) ∧ ∀ e ∈ x.waits, e.arrival < x.arrivals := by
  simp [poolWaitLaw, inGrantOrder_iff, List.all_eq_true]

theorem mem_insertEntry (e a : WaitEntry) (l : List WaitEntry) : a ∈ insertEntry e l ↔ a = e ∨ a ∈ l := by
  unfold insertEntry
  split
  · simp [or_comm]
  · have parts : a ∈ l ↔ a ∈ l.takeWhile (·.cls == .high) ∨ a ∈ l.dropWhile (·.cls == .high) := by
      rw [← List.mem_append, List.takeWhile_append_dropWhile]
    rw [parts, List.mem_append, List.mem_cons]
    exact or_left_comm

/-- An entry that arrives last is put where grant order has it (R81). -/
theorem insertEntry_ordered (e : WaitEntry) (l : List WaitEntry)
    (h : l.Pairwise fun a b => grantedBefore a b = true) (ha : ∀ a ∈ l, a.arrival < e.arrival) :
    (insertEntry e l).Pairwise fun a b => grantedBefore a b = true := by
  unfold insertEntry
  split
  · next he =>
    refine List.pairwise_append.mpr ⟨h, List.pairwise_singleton _ _, fun a hm b hb => ?_⟩
    cases List.mem_singleton.mp hb
    unfold grantedBefore
    rw [he]
    cases a.cls
    · exact decide_eq_true (ha a hm)
    · rfl
  · next he =>
    have hl := List.takeWhile_append_dropWhile (p := fun x : WaitEntry => x.cls == .high) (l := l)
    rw [← hl] at h ha
    obtain ⟨h1, h2, h3⟩ := List.pairwise_append.mp h
    have high : ∀ a ∈ l.takeWhile (·.cls == .high), a.cls = .high := fun a hm =>
      beq_iff_eq.mp (List.all_eq_true.mp List.all_takeWhile a hm)
    have low : ∀ b ∈ l.dropWhile (·.cls == .high), grantedBefore e b = true := by
      cases hd : l.dropWhile (·.cls == .high) with
      | nil => simp
      | cons b m =>
        have hb : b.cls = .low := by
          have := List.head_dropWhile_not (fun x : WaitEntry => x.cls == .high) (l := l) (by rw [hd]; nofun)
          simp only [hd, List.head_cons] at this
          cases hc : b.cls with
          | low => rfl
          | high => simp [hc] at this
        rw [hd] at h2
        intro c hc
        have hcl : c.cls = .low := by
          rcases List.mem_cons.mp hc with rfl | hm
          · exact hb
          · have := List.rel_of_pairwise_cons h2 hm
            unfold grantedBefore at this
            rw [hb] at this
            cases hcc : c.cls with
            | low => rfl
            | high => simp [hcc] at this
        unfold grantedBefore
        rw [he, hcl]
    refine List.pairwise_append.mpr ⟨h1, List.pairwise_cons.mpr ⟨low, h2⟩, fun a hm b hb => ?_⟩
    rcases List.mem_cons.mp hb with rfl | hb
    · unfold grantedBefore
      rw [high a hm, he]
      exact decide_eq_true (ha a (List.mem_append_left _ hm))
    · exact h3 a hm b hb

/-- The wait lists' law. -/
def WaitOK (s : State) : Prop := ∀ p, poolWaitLaw (s.pool p) = true

theorem waitLaw_iff (s : State) : waitLaw s = true ↔ WaitOK s := by
  simp only [waitLaw, Bool.and_eq_true, WaitOK]
  exact ⟨fun ⟨h1, h2⟩ p => by cases p <;> assumption, fun h => ⟨h .pour, h .drive⟩⟩

theorem poolWaitLaw_of {x y : Pool} (hw : y.waits = x.waits) (ha : y.arrivals = x.arrivals) (h : poolWaitLaw x = true) :
    poolWaitLaw y = true := by simpa only [poolWaitLaw, hw, ha] using h

/-- A change of one pool that keeps its wait list in order. -/
theorem WaitOK.mod {s : State} {p : PoolId} {f : Pool → Pool} (h : WaitOK s)
    (hf : poolWaitLaw (s.pool p) = true → poolWaitLaw (f (s.pool p)) = true) : WaitOK (modPool p f s) := fun q => by
  rw [modPool_pool]
  split
  · next e => subst e; exact hf (h q)
  · exact h q

theorem WaitOK.of {s t : State} (h : WaitOK s)
    (ht : ∀ q, (t.pool q).waits = (s.pool q).waits ∧ (t.pool q).arrivals = (s.pool q).arrivals) : WaitOK t := fun q =>
  poolWaitLaw_of (ht q).1 (ht q).2 (h q)

theorem waitLaw_poolLaw : PoolLaw WaitOK where
  same := fun s t hp hd _ _ h => h.of fun q => by rw [pool_of_eq hp hd q]; exact ⟨rfl, rfl⟩
  modGrant := fun p k f s h => h.of fun q =>
    ⟨(modGrant_pool p q k f s).2.1, (modGrant_pool p q k f s).2.2.1⟩
  join := fun p k s h => h.mod fun hx => by
    obtain ⟨h1, h2⟩ := (poolWaitLaw_iff _).mp hx
    refine (poolWaitLaw_iff _).mpr ⟨insertEntry_ordered _ _ h1 h2, fun e he => ?_⟩
    rcases (mem_insertEntry _ _ _).mp he with rfl | he
    · exact Nat.lt_succ_self _
    · exact Nat.lt_succ_of_lt (h2 e he)
  grant := fun p e rest s _ hw h q => by
    obtain ⟨hp, hq⟩ := makeGrant_pool p e.strand rest s
    by_cases eq : q = p
    · subst eq
      obtain ⟨h1, h2⟩ := (poolWaitLaw_iff _).mp (h q)
      rw [hw] at h1 h2
      rw [hp]
      exact (poolWaitLaw_iff _).mpr ⟨h1.of_cons, fun a ha => h2 a (List.mem_cons_of_mem _ ha)⟩
    · rw [hq q eq]; exact h q
  dropGrant := fun p k s h => h.mod (poolWaitLaw_of rfl rfl)
  dropEntry := fun p k s h => h.mod fun hx => by
    obtain ⟨h1, h2⟩ := (poolWaitLaw_iff _).mp hx
    exact (poolWaitLaw_iff _).mpr ⟨h1.filter _, fun e he => h2 e ((List.mem_filter.mp he).1)⟩
  mark := fun p b m s h => h.mod (poolWaitLaw_of rfl rfl)
  cleared := fun p s h => h.mod fun _ => rfl
  tick := fun s h => h.of fun q => by rw [pool_tick]; exact ⟨rfl, rfl⟩
  reset := fun s q => by
    obtain ⟨b, e⟩ := pool_restart s q
    rw [e]; rfl
  pour := fun p s _ h => h.of fun q => ⟨rfl, rfl⟩
  drive := fun p s _ h => h.of fun q => ⟨rfl, rfl⟩

/-! ### The capacities -/

/-- No pool has more holders than its capacity (R83). -/
def WithinCapacity (s : State) : Prop := ∀ p, (s.pool p).holderCount ≤ capacity s p

theorem holderCount_mono {x y : Pool} (h : ∀ j, y.holds j = true → x.holds j = true) : y.holderCount ≤ x.holderCount := by
  simp only [Pool.holderCount, ← List.countP_eq_length_filter]
  exact List.countP_mono_left fun j _ => h j

theorem countP_or_le {α : Type} (p q : α → Bool) (l : List α) :
    l.countP (fun a => p a || q a) ≤ l.countP p + l.countP q := by
  induction l with
  | nil => simp
  | cons a l ih =>
    simp only [List.countP_cons]
    cases p a <;> cases q a <;> simp <;> omega

/-- One strand more holds a slot at most. -/
theorem holderCount_put (x : Pool) (k : Strand) (g : Option Grant) :
    Pool.holderCount { x with holders := x.holders.put k g } ≤ x.holderCount + 1 := by
  have hk : ∀ l : List Strand, l.Nodup →
      (l.filter (Pool.holds { x with holders := x.holders.put k g })).length ≤ (l.filter x.holds).length + 1 := by
    intro l hl
    calc _ ≤ (l.filter fun j => x.holds j || j == k).length := by
          simp only [← List.countP_eq_length_filter]
          refine List.countP_mono_left fun j _ hj => ?_
          rw [holds_put] at hj
          split at hj
          · next e => simp [e]
          · simp [hj]
      _ ≤ (l.filter x.holds).length + (l.filter (· == k)).length := by
          simp only [← List.countP_eq_length_filter]
          exact countP_or_le _ _ l
      _ ≤ _ := by
          have := List.nodup_iff_count.mp hl k
          simp only [List.count, List.countP_eq_length_filter] at this
          omega
  exact hk allStrands (by decide)

theorem holderCount_of_unused {x : Pool} (h : x.inUse = false) : x.holderCount = 0 := by
  simp only [Pool.inUse, Bool.or_eq_false_iff] at h
  simpa using h.1

theorem WithinCapacity.of {s t : State} (h : WithinCapacity s) (hc : ∀ q, capacity t q = capacity s q)
    (ht : ∀ q j, (t.pool q).holds j = true → (s.pool q).holds j = true) : WithinCapacity t := fun q => by
  rw [hc q]
  exact Nat.le_trans (holderCount_mono (ht q)) (h q)

theorem capacity_of_eq {s t : State} (hp : t.working.pour = s.working.pour) (hd : t.working.drive = s.working.drive)
    (q : PoolId) : capacity t q = capacity s q := by
  cases q
  · exact congrArg PourSettings.capacity hp
  · exact congrArg DriveSettings.capacity hd

theorem WithinCapacity.mod {s : State} {p : PoolId} {f : Pool → Pool} (h : WithinCapacity s)
    (hf : ∀ j, (f (s.pool p)).holds j = true → (s.pool p).holds j = true) : WithinCapacity (modPool p f s) :=
  h.of (capacity_of_eq (by simp) (by simp)) fun q j hj => by
    rw [modPool_pool] at hj
    split at hj
    · next e => subst e; exact hf j hj
    · exact hj

theorem withinCapacity_poolLaw : PoolLaw WithinCapacity where
  same := fun s t hp hd h1 h2 h => h.of (capacity_of_eq h1 h2) fun q j hj => by rwa [pool_of_eq hp hd q] at hj
  modGrant := fun p k f s h => h.of (capacity_of_eq (by simp) (by simp)) fun q j hj => by
    rwa [(modGrant_pool p q k f s).1] at hj
  join := fun p k s h => h.mod fun j hj => hj
  grant := fun p e rest s hc _ h q => by
    rw [capacity_of_eq (s := s) (by simp) (by simp)]
    obtain ⟨hp, hq⟩ := makeGrant_pool p e.strand rest s
    by_cases eq : q = p
    · subst eq
      rw [hp]
      exact Nat.le_trans (holderCount_put (s.pool q) e.strand _) hc
    · rw [hq q eq]; exact h q
  dropGrant := fun p k s h => h.mod fun j hj => by
    rw [holds_put] at hj
    split at hj
    · cases hj
    · exact hj
  dropEntry := fun p k s h => h.mod fun j hj => hj
  mark := fun p b m s h => h.mod fun j hj => hj
  cleared := fun p s h => h.mod fun j hj => by simp [Pool.holds, Pool.grant?] at hj
  tick := fun s h => h.of (capacity_of_eq rfl rfl) fun q j hj => by rwa [pool_tick, holds_tick] at hj
  reset := fun s q => by
    obtain ⟨b, e⟩ := pool_restart s q
    have : (Pool.initial b).holderCount = 0 := by simp [Pool.holderCount, holds_initial]
    rw [e, this]
    exact Nat.zero_le _
  pour := fun p s hu h q => by
    cases q
    · exact Nat.le_trans (Nat.le_of_eq (holderCount_of_unused hu)) (Nat.zero_le _)
    · exact h .drive
  drive := fun p s hu h q => by
    cases q
    · exact h .pour
    · exact Nat.le_trans (Nat.le_of_eq (holderCount_of_unused hu)) (Nat.zero_le _)

end Sys2Proof.Machine
end
section
/-! PROOFS. The slots' law: who holds a slot or waits for one is RESTARTING (R81, R86). -/

namespace Sys2Proof.Machine

/-- Strand `j` stands at no pool. -/
def Gone (s : State) (j : Strand) : Prop := ∀ p, (s.pool p).holds j = false ∧ (s.pool p).waiting j = false

theorem gone_iff (s : State) (j : Strand) : Gone s j ↔ Withdrawn s j := by
  unfold Withdrawn
  constructor
  · exact fun h => ⟨(h .pour).1, (h .drive).1, (h .pour).2, (h .drive).2⟩
  · rintro ⟨h1, h2, h3, h4⟩ p
    cases p
    · exact ⟨h1, h3⟩
    · exact ⟨h2, h4⟩

/-- The slots' law for one strand. -/
def SlotOK (s : State) (j : Strand) : Prop := (s.record? j).isSome = true ∨ Gone s j

theorem slotLawAt_iff (s : State) (j : Strand) : slotLawAt s j = true ↔ SlotOK s j := by
  simp only [slotLawAt, SlotOK, gone_iff, Withdrawn, State.record?, Bool.or_eq_true, Bool.and_eq_true, Bool.not_eq_true',
    and_assoc]

theorem slotLaw_iff (s : State) : slotLaw s = true ↔ ∀ j, SlotOK s j := by
  simp only [slotLaw, List.all_eq_true, mem_allStrands, forall_const, slotLawAt_iff]

/-- In `t` strand `j` stands only where it stood in `s`. -/
def StandsLess (s t : State) (j : Strand) : Prop :=
  ∀ p, ((t.pool p).holds j = true → (s.pool p).holds j = true) ∧ ((t.pool p).waiting j = true → (s.pool p).waiting j = true)

section
variable {s t : State} {j k : Strand}

theorem StandsLess.gone (h : StandsLess s t j) (hg : Gone s j) : Gone t j := fun p => by
  obtain ⟨h1, h2⟩ := h p
  obtain ⟨g1, g2⟩ := hg p
  exact ⟨by simpa [g1] using h1, by simpa [g2] using h2⟩

theorem standsLess_of_eq (hp : t.pour = s.pour) (hd : t.drive = s.drive) : StandsLess s t j := fun p => by
  rw [pool_of_eq hp hd p]
  exact ⟨id, id⟩

theorem standsLess_modPool {p : PoolId} {f : Pool → Pool}
    (hf : ((f (s.pool p)).holds j = true → (s.pool p).holds j = true) ∧
      ((f (s.pool p)).waiting j = true → (s.pool p).waiting j = true)) : StandsLess s (modPool p f s) j := fun q => by
  rw [modPool_pool]
  split
  · next e => subst e; exact hf
  · exact ⟨id, id⟩

/-- RESTARTING strands stay so, and no other comes to stand at a pool. -/
theorem SlotOK.of (hn : (s.record? j).isSome = true → (t.record? j).isSome = true)
    (hl : (t.record? j).isSome = true ∨ StandsLess s t j) (h : SlotOK s j) : SlotOK t j :=
  h.elim (fun hr => .inl (hn hr)) fun hg => hl.imp_right fun hl => hl.gone hg

theorem slotLaw_of_carried_at (c : Carried s t) (hl : StandsLess s t j) (h : SlotOK s j) : SlotOK t j :=
  h.of (fun hr => (record?_isSome_of_carried c).trans hr) (.inr hl)

theorem slotLaw_of_carried (c : Carried s t) (hl : ∀ j, StandsLess s t j) (h : ∀ j, SlotOK s j) (j : Strand) :
    SlotOK t j := slotLaw_of_carried_at c (hl j) (h j)

theorem slotLaw_of_eq (hs : t.strands = s.strands) (hp : t.pour = s.pour) (hd : t.drive = s.drive)
    (h : ∀ j, SlotOK s j) (j : Strand) : SlotOK t j :=
  (h j).of (fun hr => by simpa only [State.record?, State.strand, hs] using hr) (.inr (standsLess_of_eq hp hd))

theorem slotLaw_mod {f : StrandContext → StrandContext} (h : ∀ j, SlotOK s j)
    (hf : (s.record? k).isSome = true → Gone s k ∨ (f (s.strand k)).condition.record?.isSome = true) (j : Strand) :
    SlotOK (modStrand k f s) j := by
  have hl : StandsLess s (modStrand k f s) j := standsLess_of_eq rfl rfl
  by_cases e : j = k
  · subst e
    rcases h j with hr | hg
    · rcases hf hr with hg | hf
      · exact .inr (hl.gone hg)
      · exact .inl (by simpa [State.record?] using hf)
    · exact .inr (hl.gone hg)
  · exact (h j).of (fun hr => by simpa [State.record?, e] using hr) (.inr hl)

theorem slotLaw_mod_name {f : StrandContext → StrandContext} (h : ∀ j, SlotOK s j)
    (hf : (f (s.strand k)).condition.name = (s.strand k).condition.name) : ∀ j, SlotOK (modStrand k f s) j :=
  slotLaw_mod h fun hr => .inr ((record?_isSome_of_name hf).trans hr)

theorem slotLaw_reported (h : ∀ j, SlotOK s j) : ∀ j, SlotOK (reportSettled k s) j :=
  slotLaw_of_eq (reportSettled_strands k s) (reportSettled_pools k s).1 (reportSettled_pools k s).2 h

/-- A change of condition out of RESTARTING comes after the withdrawal (R86). -/
theorem slotLaw_mod_freed {f : StrandContext → StrandContext} (hg : Freed s k) (h : ∀ j, SlotOK s j) :
    ∀ j, SlotOK (modStrand k f s) j := slotLaw_mod h fun hr => .inl ((gone_iff _ _).mpr (hg hr))

theorem waiting_insertEntry (e : WaitEntry) (x : Pool) (hj : j ≠ e.strand) :
    (insertEntry e x.waits).any (·.strand == j) = true → x.waiting j = true := by
  intro h
  obtain ⟨a, ha, he⟩ := List.any_eq_true.mp h
  rcases (mem_insertEntry _ _ _).mp ha with rfl | ha
  · exact absurd (by simpa using he) (Ne.symm hj)
  · exact List.any_eq_true.mpr ⟨a, ha, he⟩

/-- The strand of an entry is RESTARTING. -/
theorem record?_of_waiting {p : PoolId} (h : SlotOK s j) (hw : (s.pool p).waiting j = true) : (s.record? j).isSome = true :=
  h.resolve_right fun hg => absurd (hw.symm.trans (hg p).2) nofun

theorem standsLess_makeGrant {p : PoolId} {e : WaitEntry} {rest : List WaitEntry} (hw : (s.pool p).waits = e :: rest)
    (hj : j ≠ e.strand) : StandsLess s (makeGrant p e.strand rest s) j := fun q => by
  obtain ⟨hp, hq⟩ := makeGrant_pool p e.strand rest s
  by_cases eq : q = p
  · subst eq
    rw [hp]
    refine ⟨fun h => (if_neg hj).symm.trans ((holds_put (s.pool q) e.strand j _).symm.trans h), fun h => ?_⟩
    obtain ⟨a, ha, he⟩ := List.any_eq_true.mp h
    exact List.any_eq_true.mpr ⟨a, hw ▸ List.mem_cons_of_mem _ ha, he⟩
  · rw [hq q eq]
    exact ⟨id, id⟩

end

theorem slotLaw_tasks : TasksKeep fun s => ∀ j, SlotOK s j where
  same := fun s t ⟨h1, _, h3, h4, _⟩ h => slotLaw_of_eq h1 h3 h4 h
  pend := fun src s h => slotLaw_of_eq (by simp) (by simp) (by simp) h
  record := fun k f s _ h => slotLaw_of_carried (modRecord_carried k f s) (fun _ => standsLess_of_eq (by simp) (by simp)) h
  modGrant := fun p k f s h => slotLaw_of_carried (modGrant_carried p k f s) (fun j q => by
    obtain ⟨h1, h2, -⟩ := modGrant_pool p q k f s
    rw [h1, Pool.waiting, h2]
    exact ⟨id, id⟩) h
  unit := fun k f s _ _ h => slotLaw_of_eq (by simp) (by simp) (by simp) h
  join := fun p k s hr h j => by
    by_cases e : j = k
    · subst e
      exact .inl ((record?_isSome_of_carried (joinWaits_carried p j s)).trans hr)
    · exact slotLaw_of_carried_at (joinWaits_carried p k s) (standsLess_modPool ⟨id, waiting_insertEntry _ _ e⟩) (h j)
  grant := fun p e rest s _ _ hw h j => by
    by_cases ej : j = e.strand
    · subst ej
      have hwait : (s.pool p).waiting e.strand = true := waiting_of_mem (hw ▸ List.mem_cons_self)
      exact .inl ((record?_isSome_of_carried (makeGrant_carried p _ rest s)).trans (record?_of_waiting (h _) hwait))
    · exact slotLaw_of_carried_at (makeGrant_carried p _ rest s) (standsLess_makeGrant hw ej) (h j)
  dropGrant := fun p k s h => slotLaw_of_carried (dropGrant_carried p k s) (fun j => standsLess_modPool ⟨fun hj => by
    rw [holds_put] at hj
    split at hj
    · cases hj
    · exact hj, id⟩) h
  levels := fun k p s _ _ h => slotLaw_of_eq rfl rfl rfl h
  calm := fun k s h => slotLaw_mod_name h rfl

theorem slotLaw_kept : Kept fun _ s => ∀ j, SlotOK s j where
  weaken := fun _ _ h => h
  updates := fun _ => slotLaw_tasks.toUpdatesKeep
  drain := fun _ l s h => slotLaw_tasks.drain l s h
  release := fun _ p k l s _ h => slotLaw_tasks.drain l _ (slotLaw_tasks.dropGrant p k s h)
  dropEntry := fun _ p k s h => slotLaw_of_carried (dropEntry_carried p k s) (fun j => standsLess_modPool
    ⟨id, fun hj => by
      obtain ⟨a, ha, he⟩ := List.any_eq_true.mp hj
      exact List.any_eq_true.mpr ⟨a, (List.mem_filter.mp ha).1, he⟩⟩) h
  excluded := fun p m s h j => (h j).of (by simp [State.record?, State.strand]) (.inr (standsLess_modPool ⟨id, id⟩))
  opened := fun p s h => slotLaw_tasks.drain _ _ fun j =>
    (h j).of (by simp [State.record?, State.strand]) (.inr (standsLess_modPool ⟨id, id⟩))
  closed := fun p s h j => (h j).of (by simp [closePool, State.record?, State.strand]) (.inr (standsLess_modPool ⟨id, id⟩))
  cleared := fun p s h j => (h j).of (by simp [clearPool, State.record?, State.strand])
    (.inr (standsLess_modPool ⟨fun hj => by simp [Pool.holds, Pool.grant?] at hj, nofun⟩))
  coordinator := fun c s _ h => slotLaw_of_eq rfl rfl rfl h
  small := fun k f s _ hs h => slotLaw_mod_name h (congrArg Condition.name hs.1)
  fault := fun k c d s _ h => slotLaw_of_eq (by simp) (by simp) (by simp) h
  faultAtRest := fun k c d s _ _ h => slotLaw_of_eq (by simp) (by simp) (by simp) h
  noFault := fun k s h => slotLaw_of_eq rfl rfl rfl h
  setFlag := fun k f s _ h => slotLaw_mod_name h (congrArg Condition.name (setFlag_fields f true _).1)
  clearFlag := fun k f s _ _ _ h => slotLaw_mod_name h (congrArg Condition.name (setFlag_fields f false _).1)
  clearLast := fun k f s _ h => slotLaw_mod_name h (congrArg Condition.name (setFlag_fields f false _).1)
  breakout := fun k c s hc h => slotLaw_mod_name h (by rw [hc]; rfl)
  settle := fun k f s _ _ hf _ h => slotLaw_reported (slotLaw_mod_freed hf h)
  hold := fun k f s _ hf _ h => slotLaw_mod_freed hf h
  cast := fun k s _ hw h => slotLaw_reported (slotLaw_mod_freed (fun _ => hw) h)
  restartDry := fun k r n s _ _ _ h => slotLaw_mod h fun _ => .inr rfl
  restartHeld := fun k f r n s _ _ _ h =>
    slotLaw_mod (slotLaw_mod_name h (congrArg Condition.name (setFlag_fields f false _).1)) fun _ => .inr rfl
  tick := fun s h j => (h j).of
    (fun hr => (record?_isSome_of_name (tick_name s j)).trans hr)
    (.inr fun p => by rw [pool_tick, holds_tick]; exact ⟨id, id⟩)
  reset := fun s _ j => .inr fun p => by
    obtain ⟨b, e⟩ := pool_restart s p
    rw [e]
    exact ⟨holds_initial b j, rfl⟩
  caster := fun c s _ h => slotLaw_of_eq rfl rfl rfl h
  strandSettings := fun k p l s _ h => slotLaw_of_eq rfl rfl rfl h
  plan := fun n p s _ h => slotLaw_of_eq rfl rfl rfl h
  banks := fun b s h => slotLaw_of_eq rfl rfl rfl h
  window := fun n w s _ h => slotLaw_of_eq rfl rfl rfl h
  pour := fun p s _ _ h => slotLaw_of_eq rfl rfl rfl h
  drive := fun p s _ _ h => slotLaw_of_eq rfl rfl rfl h
  noticeLevels := fun l s _ h => slotLaw_of_eq rfl rfl rfl h

end Sys2Proof.Machine
end
section
/-! PROOFS. An action's tasks come to an end within the bound (R53, R54, R83), and a restart only goes on in them. -/

namespace Sys2Proof.Machine

/-! ### A restart goes on -/

/-- Every restart stands in `t` at the step it had in `s` or at a later one, and no other strand restarts. -/
def OnwardFrom (s t : State) : Prop :=
  ∀ j, (∀ r, s.record? j = some r → ∃ r', t.record? j = some r' ∧ r.Onward r') ∧
    (s.record? j = none → t.record? j = none)

theorem RestartRecord.Onward.refl (r : RestartRecord) : r.Onward r := ⟨rfl, rfl, rfl, rfl, Nat.le_refl _⟩

theorem RestartRecord.Onward.trans {a b c : RestartRecord} (h : a.Onward b) (g : b.Onward c) : a.Onward c :=
  ⟨g.1.trans h.1, g.2.1.trans h.2.1, g.2.2.1.trans h.2.2.1, g.2.2.2.1.trans h.2.2.2.1, Nat.le_trans h.2.2.2.2 g.2.2.2.2⟩

theorem OnwardFrom.refl (s : State) : OnwardFrom s s := fun _ => ⟨fun r hr => ⟨r, hr, .refl r⟩, id⟩

theorem OnwardFrom.trans {s t u : State} (h : OnwardFrom s t) (g : OnwardFrom t u) : OnwardFrom s u := fun j =>
  ⟨fun r hr => by
    obtain ⟨r', hr', h'⟩ := (h j).1 r hr
    obtain ⟨r'', hr'', h''⟩ := (g j).1 r' hr'
    exact ⟨r'', hr'', h'.trans h''⟩, fun hn => (g j).2 ((h j).2 hn)⟩

theorem onwardFrom_of_conditions {s t : State} (h : ∀ j, (t.strand j).condition = (s.strand j).condition) :
    OnwardFrom s t := fun j => by
  rw [record?_of_condition (h j)]
  exact ⟨fun r hr => ⟨r, hr, .refl r⟩, id⟩

theorem onwardFrom_of_strands {s t : State} (h : t.strands = s.strands) : OnwardFrom s t :=
  onwardFrom_of_conditions fun j => by simp only [State.strand, h]

theorem onwardFrom_modRecord (k : Strand) {f : RestartRecord → RestartRecord} (s : State)
    (hf : ∀ r : RestartRecord, r.Onward (f r)) : OnwardFrom s (modRecord k f s) := fun j => by
  obtain e | ⟨r, hr, -, e⟩ := modRecord_strand k j f s
  · rw [record?_of_condition (congrArg StrandContext.condition e)]
    exact ⟨fun r hr => ⟨r, hr, .refl r⟩, id⟩
  · rw [hr]
    refine ⟨fun r' hr' => ?_, nofun⟩
    cases hr'
    exact ⟨f r, by simp only [State.record?, e, Condition.record?], hf r⟩

/-- What every task of an action does to the restarts. -/
theorem onward_tasks (s : State) : TasksKeep (OnwardFrom s) where
  same := fun t u ⟨h1, _⟩ h => h.trans (onwardFrom_of_strands h1)
  pend := fun src t h => h.trans (onwardFrom_of_strands (by simp))
  record := fun k f t hf h => h.trans (onwardFrom_modRecord k t hf)
  modGrant := fun p k f t h => h.trans (onwardFrom_of_strands (by simp))
  unit := fun k f t _ _ h => h.trans (onwardFrom_of_strands (by simp))
  join := fun p k t _ h => h.trans (onwardFrom_of_strands (by simp [joinWaits]))
  grant := fun p e rest t _ _ _ h => h.trans (onwardFrom_of_strands (by simp))
  dropGrant := fun p k t h => h.trans (onwardFrom_of_strands (by simp [dropGrant]))
  levels := fun k p t _ _ h => h.trans (onwardFrom_of_strands rfl)
  calm := fun k t h => h.trans (onwardFrom_of_conditions fun j => by
    rw [modStrand_strand]
    split
    · next e => rw [e]
    · rfl)

theorem runTask_onward (t : Task) (s : State) : OnwardFrom s (runTask t s).1 := (onward_tasks s).runTask t s (.refl s)

theorem drain_onward (l : List Task) (s : State) : OnwardFrom s (drain l s) := (onward_tasks s).drain l s (.refl s)

theorem stepsAhead_onward {s t : State} (h : OnwardFrom s t) (j : Strand) : stepsAhead t j ≤ stepsAhead s j := by
  unfold stepsAhead
  cases hr : s.record? j with
  | none => exact Nat.le_of_eq (by rw [(h j).2 hr])
  | some r =>
    obtain ⟨r', hr', -, -, -, hs, hi⟩ := (h j).1 r hr
    simp only [hr', hs]
    exact Nat.sub_le_sub_left hi _

/-! ### The wait lists of an action -/

/-- The entries that wait at the two pools. -/
def entries (s : State) : Nat := s.pour.waits.length + s.drive.waits.length

/-- The updates that neither ask for a slot nor give one back leave the wait lists. -/
theorem waits_updates (a b : List WaitEntry) : UpdatesKeep fun t => t.pour.waits = a ∧ t.drive.waits = b where
  same := fun s t ⟨_, _, h3, h4, _⟩ h => by rwa [h3, h4]
  pend := fun src s h => by simpa using h
  record := fun k f s _ h => by simpa using h
  modGrant := fun p k f s h => by
    obtain ⟨-, h1, -⟩ := modGrant_pool p .pour k f s
    obtain ⟨-, h2, -⟩ := modGrant_pool p .drive k f s
    exact ⟨h1.trans h.1, h2.trans h.2⟩
  unit := fun k f s _ _ h => by simpa using h

theorem entries_of_waits {s t : State} (h : t.pour.waits = s.pour.waits ∧ t.drive.waits = s.drive.waits) :
    entries t = entries s := by simp only [entries, h.1, h.2]

theorem insertEntry_length (e : WaitEntry) (l : List WaitEntry) : (insertEntry e l).length = l.length + 1 := by
  unfold insertEntry
  split
  · simp
  · have := congrArg List.length (List.takeWhile_append_dropWhile (p := (·.cls == .high)) (l := l))
    simp only [List.length_append, List.length_cons] at this ⊢
    omega

theorem entries_joinWaits (p : PoolId) (k : Strand) (s : State) : entries (joinWaits p k s) = entries s + 1 := by
  cases p <;> simp only [entries, joinWaits, modPool, setPool, State.pool, insertEntry_length] <;> omega

theorem entries_makeGrant {p : PoolId} {e : WaitEntry} {rest : List WaitEntry} {s : State}
    (h : (s.pool p).waits = e :: rest) : entries (makeGrant p e.strand rest s) + 1 = entries s := by
  have hl := congrArg List.length h
  cases p <;> simp only [entries, makeGrant, modPool, setPool, State.pool, List.length_cons] at hl ⊢ <;> omega

theorem entries_dropGrant (p : PoolId) (k : Strand) (s : State) : entries (dropGrant p k s) = entries s := by
  cases p <;> rfl

/-! ### What the tasks weigh -/

/-- The weight of a list of tasks. -/
def weigh (l : List Task) : Nat := (l.map Task.weight).sum

@[simp] theorem weigh_nil : weigh [] = 0 := rfl

@[simp] theorem weigh_cons (t : Task) (l : List Task) : weigh (t :: l) = t.weight + weigh l := rfl

@[simp] theorem weigh_append (l m : List Task) : weigh (l ++ m) = weigh l + weigh m := by simp [weigh]

theorem weigh_if (c : Prop) [Decidable c] (t : Task) : weigh (if c then [t] else []) ≤ t.weight := by
  split <;> simp

section
variable {s : State} {k : Strand}

/-- A step that has begun costs less than its beginning's weight. -/
def Costs (n : Nat) (s : State) (r : State × List Task) : Prop := weigh r.2 + 4 * entries r.1 ≤ n + 4 * entries s

theorem costs_quiet {n m : Nat} {t : State} {l : List Task} (h : t.pour.waits = s.pour.waits ∧ t.drive.waits = s.drive.waits)
    (hl : weigh l ≤ m) (hm : m ≤ n) : Costs n s (t, l) := by
  unfold Costs
  rw [entries_of_waits h]
  dsimp only
  omega

/-- The updates of the wait lists' law, from a state onward. -/
theorem waits_of (s : State) : UpdatesKeep fun t => t.pour.waits = s.pour.waits ∧ t.drive.waits = s.drive.waits :=
  waits_updates _ _

theorem requestSlot_costs (p : PoolId) (k : Strand) (s : State) : Costs 5 s (requestSlot p k s) := by
  unfold requestSlot
  split
  · exact costs_quiet ((waits_of s).failStep _ _ _ ⟨rfl, rfl⟩) (Nat.le_refl 0) (by omega)
  · unfold Costs
    rw [entries_joinWaits, entries_of_waits ((waits_of s).toPhase k .slotWait none s ⟨rfl, rfl⟩)]
    simp only [weigh_cons, weigh_nil, Task.weight]
    omega

theorem waits_updUnit (k : Strand) (f : UnitState → UnitState) (s : State) :
    (updUnit k f s).pour.waits = s.pour.waits ∧ (updUnit k f s).drive.waits = s.drive.waits := by simp

theorem waits_writeSource (k : Strand) (src : LevelSource) (s : State) :
    (writeSource k src s).pour.waits = s.pour.waits ∧ (writeSource k src s).drive.waits = s.drive.waits := by
  unfold writeSource writeLevelSet
  split
  · dsimp only
    split
    · exact waits_updUnit _ _ _
    · exact ⟨rfl, rfl⟩
  · exact ⟨rfl, rfl⟩

theorem beginLevel_costs (k : Strand) (src : LevelSource) (s : State) : Costs 5 s (beginLevel k src s) := by
  unfold beginLevel
  split
  · exact costs_quiet ((waits_of s).failStep _ _ _ ⟨rfl, rfl⟩) (Nat.le_refl 0) (by omega)
  · refine costs_quiet ((waits_of s).toPhase _ _ _ _ ?_) (weigh_if _ (.completeStep k)) (by simp [Task.weight])
    exact ⟨(waits_updUnit _ _ _).1.trans (waits_writeSource _ _ _).1,
      (waits_updUnit _ _ _).2.trans (waits_writeSource _ _ _).2⟩

theorem beginDraw_costs (k : Strand) (a b c : Nat) (s : State) : Costs 5 s (beginDraw k a b c s) := by
  unfold beginDraw
  split
  · exact costs_quiet ((waits_of s).toPhase _ _ _ _ (waits_updUnit _ _ _)) (weigh_if _ (.completeStep k)) (by simp [Task.weight])
  · split
    · exact costs_quiet ((waits_of s).toPhase _ _ _ _ (waits_updUnit _ _ _)) (weigh_if _ (.completeStep k)) (by simp [Task.weight])
    · exact costs_quiet ((waits_of s).failStep _ _ _ ⟨rfl, rfl⟩) (Nat.le_refl 0) (by omega)

theorem beginAction_costs (k : Strand) (a : Action) (s : State) : Costs 5 s (beginAction k a s) := by
  cases a with
  | check m => exact costs_quiet ((waits_of s).toPhase _ _ _ _ ⟨rfl, rfl⟩) (weigh_if _ (.completeStep k)) (by simp [Task.weight])
  | cool z => exact costs_quiet (waits_updUnit _ _ _) (Nat.le_refl 1) (by omega)
  | drive => exact requestSlot_costs _ _ _
  | opening => exact requestSlot_costs _ _ _
  | level src => exact beginLevel_costs _ _ _
  | wait => exact costs_quiet ((waits_of s).toPhase _ _ _ _ ⟨rfl, rfl⟩) (Nat.le_refl 0) (by omega)
  | draw => exact beginDraw_costs _ _ _ _ _
  | handover => exact costs_quiet ((waits_of s).toPhase _ _ _ _ ⟨rfl, rfl⟩) (Nat.le_refl 0) (by omega)

theorem beginStep_costs (k : Strand) (s : State) : Costs 5 s (beginStep k s) := by
  unfold beginStep
  split
  · next p _ =>
    have h := beginAction_costs k p.action (loadStep k p s)
    have e : entries (loadStep k p s) = entries s := entries_of_waits (by simp [loadStep])
    unfold Costs at h ⊢
    rwa [e] at h
  · exact costs_quiet ⟨rfl, rfl⟩ (Nat.le_refl 0) (by omega)

theorem deliverGrant_costs (p : PoolId) (k : Strand) (s : State) : Costs 3 s (deliverGrant p k s) := by
  have hw : weigh (deliverGrant p k s).2 ≤ 3 := by
    unfold deliverGrant
    split
    · split
      · unfold takeDriveGrant enterInrush
        dsimp only
        split
        · exact weigh_if _ (.inrushEnd k)
        · simp
      · simp
    · simp
  exact costs_quiet ((waits_of s).deliverGrant p k s ⟨rfl, rfl⟩) hw (Nat.le_refl _)

/-- A pass of the grant choice takes an entry, or ends the choice. -/
theorem grantPass_costs (p : PoolId) (s : State) : Costs 0 s (grantPass p s) := by
  unfold grantPass
  split
  · split
    · exact costs_quiet ⟨rfl, rfl⟩ (Nat.le_refl 0) (Nat.le_refl _)
    · next e rest hw =>
      have hd := deliverGrant_costs p e.strand (makeGrant p e.strand rest s)
      have he := entries_makeGrant hw
      simp only [Costs, weigh_append, weigh_cons, weigh_nil, Task.weight] at hd ⊢
      omega
  · exact costs_quiet ⟨rfl, rfl⟩ (Nat.le_refl 0) (Nat.le_refl _)

theorem endInrush_costs (k : Strand) (s : State) : Costs 2 s (endInrush k s) := by
  have e : entries (endInrush k s).1 = entries s := (entries_dropGrant .drive k s)
  unfold Costs
  rw [e]
  exact Nat.le_refl _

end

/-! ### The bound -/

theorem potential_eq (s : State) : potential s = 6 * (allStrands.map (stepsAhead s)).sum + 4 * entries s := rfl

theorem sum_map_le {f g : Strand → Nat} (h : ∀ j, f j ≤ g j) (l : List Strand) : (l.map f).sum ≤ (l.map g).sum := by
  induction l with
  | nil => exact Nat.le_refl _
  | cons j l ih =>
    rw [List.map_cons, List.map_cons, List.sum_cons, List.sum_cons]
    exact Nat.add_le_add (h j) ih

theorem sum_map_lt {f g : Strand → Nat} (h : ∀ j, f j ≤ g j) {k : Strand} (hk : f k < g k) {l : List Strand} (hm : k ∈ l) :
    (l.map f).sum < (l.map g).sum := by
  induction l with
  | nil => cases hm
  | cons j l ih =>
    rw [List.map_cons, List.map_cons, List.sum_cons, List.sum_cons]
    rcases List.mem_cons.mp hm with rfl | hm
    · exact Nat.add_lt_add_of_lt_of_le hk (sum_map_le h l)
    · exact Nat.add_lt_add_of_le_of_lt (h j) (ih hm)

theorem ahead_le {s t : State} (h : OnwardFrom s t) :
    (allStrands.map (stepsAhead t)).sum ≤ (allStrands.map (stepsAhead s)).sum :=
  sum_map_le (stepsAhead_onward h) allStrands

/-- A step completed, the strand has one step less before it. -/
theorem finishStep_costs (k : Strand) (s : State) :
    weigh (finishStep k s).2 + potential (finishStep k s).1 ≤ potential s := by
  have ho := runTask_onward (.completeStep k) s
  have he : entries (finishStep k s).1 = entries s :=
    entries_of_waits ((waits_of s).finishStep k s ⟨rfl, rfl⟩)
  simp only [potential_eq, he]
  unfold finishStep
  split
  · simp
  · next r hr =>
    split
    · next hlt =>
      have hk : stepsAhead (advanceStep k s) k < stepsAhead s k := by
        have : (advanceStep k s).record? k = some { r with
            stepTimer := none, phase := .noPhase, phaseTimer := none, riseReference := none
            stepIndex := r.stepIndex + 1, attempt := none } := by
          unfold advanceStep stopStep
          rw [record?_of_condition (s := modRecord k _ _) (by rw [pend_strand]), modRecord_of_record _ _ _ _ hr]
          simp
        simp only [stepsAhead, this, hr]
        omega
      have hs : (allStrands.map (stepsAhead (advanceStep k s))).sum < (allStrands.map (stepsAhead s)).sum := by
        refine sum_map_lt (fun j => ?_) hk (mem_allStrands k)
        simp only [runTask, finishStep, hr, if_pos hlt] at ho
        exact stepsAhead_onward ho j
      simp only [weigh_cons, weigh_nil, Task.weight]
      omega
    · next hge =>
      simp only [runTask, finishStep, hr, if_neg hge] at ho
      have := ahead_le ho
      simp only [weigh_nil]
      omega

/-- Every task lowers what is left to do. -/
theorem runTask_lowers (t : Task) (rest : List Task) (s : State) :
    cascadeBound ((runTask t s).2 ++ rest) (runTask t s).1 < cascadeBound (t :: rest) s := by
  have ho := ahead_le (runTask_onward t s)
  have hb : ∀ l u, cascadeBound l u = weigh l + potential u := fun _ _ => rfl
  simp only [hb, weigh_append, weigh_cons]
  cases t with
  | enterStep k =>
    have h := beginStep_costs k s
    simp only [Costs, runTask, potential_eq, Task.weight] at ho h ⊢
    omega
  | completeStep k =>
    have h := finishStep_costs k s
    simp only [runTask, Task.weight] at ho h ⊢
    omega
  | grantChoice p =>
    have h := grantPass_costs p s
    simp only [Costs, runTask, potential_eq, Task.weight] at ho h ⊢
    omega
  | inrushEnd k =>
    have h := endInrush_costs k s
    simp only [Costs, runTask, potential_eq, Task.weight] at ho h ⊢
    omega

/-- More fuel than the bound makes no difference. -/
theorem drainFuel_eq : ∀ (n m : Nat) (l : List Task) (s : State), cascadeBound l s ≤ n → cascadeBound l s ≤ m →
    drainFuel n l s = drainFuel m l s
  | 0, 0, _, _, _, _ => rfl
  | n + 1, m, [], s, _, _ => by cases m <;> rfl
  | 0, m + 1, [], s, _, _ => rfl
  | 0, _, t :: rest, s, hn, _ => absurd (runTask_lowers t rest s) (by omega)
  | n + 1, 0, t :: rest, s, _, hm => absurd (runTask_lowers t rest s) (by omega)
  | n + 1, m + 1, t :: rest, s, hn, hm => by
    have h := runTask_lowers t rest s
    exact drainFuel_eq n m _ _ (by omega) (by omega)

/-- An action's first task is carried out, then its own tasks before those behind it. -/
theorem drain_cons (t : Task) (rest : List Task) (s : State) :
    drain (t :: rest) s = drain ((runTask t s).2 ++ rest) (runTask t s).1 := by
  have h := runTask_lowers t rest s
  obtain ⟨n, hn⟩ : ∃ n, cascadeBound (t :: rest) s = n + 1 := ⟨_, (Nat.succ_pred_eq_of_pos (by omega)).symm⟩
  unfold drain
  rw [hn]
  exact drainFuel_eq n _ _ _ (by omega) (Nat.le_refl _)

/-- Settles O21: every task leaves less to do than it found. -/
theorem cascadeBoundIsEnough : Obligations.CascadeBoundIsEnough := by
  intro x l s n
  refine ⟨fun h => drainFuel_eq n _ l s h (Nat.le_refl _), drain_nil s, ?_⟩
  rw [drain_cons]
  cases x <;> rfl

end Sys2Proof.Machine
end
section
/-! PROOFS. The grant choice's law: an action ends with no free slot of an open pool and a strand waiting (R83). -/

namespace Sys2Proof.Machine

/-! ### What the grant choice reads -/

/-- The pools' flags, wait lists, holders and capacities are the same. -/
def SameQueues (s t : State) : Prop :=
  ∀ p, (t.pool p).isOpen = (s.pool p).isOpen ∧ (t.pool p).waits = (s.pool p).waits ∧
    (∀ j, (t.pool p).holds j = (s.pool p).holds j) ∧ capacity t p = capacity s p

section
variable {s t u : State} {p : PoolId}

theorem SameQueues.refl (s : State) : SameQueues s s := fun _ => ⟨rfl, rfl, fun _ => rfl, rfl⟩

theorem SameQueues.trans (h : SameQueues s t) (g : SameQueues t u) : SameQueues s u := fun p =>
  ⟨(g p).1.trans (h p).1, (g p).2.1.trans (h p).2.1, fun j => ((g p).2.2.1 j).trans ((h p).2.2.1 j),
    (g p).2.2.2.trans (h p).2.2.2⟩

theorem sameQueues_of_eq (h1 : t.pour = s.pour) (h2 : t.drive = s.drive) (h3 : t.working.pour = s.working.pour)
    (h4 : t.working.drive = s.working.drive) : SameQueues s t := fun p => by
  rw [pool_of_eq h1 h2 p]
  exact ⟨rfl, rfl, fun _ => rfl, capacity_of_eq h3 h4 p⟩

theorem queues_updates (s : State) : UpdatesKeep (SameQueues s) where
  same := fun t u ⟨_, _, h3, h4, _, _, h7, _, _⟩ h => h.trans (sameQueues_of_eq h3 h4 (by rw [h7]) (by rw [h7]))
  pend := fun src t h => h.trans (sameQueues_of_eq (by simp) (by simp) (by simp) (by simp))
  record := fun k f t _ h => h.trans (sameQueues_of_eq (by simp) (by simp) (by simp) (by simp))
  modGrant := fun p k f t h => h.trans fun q =>
    ⟨(modGrant_pool p q k f t).2.2.2, (modGrant_pool p q k f t).2.1, (modGrant_pool p q k f t).1,
      capacity_of_eq (by simp) (by simp) q⟩
  unit := fun k f t _ _ h => h.trans (sameQueues_of_eq (by simp) (by simp) (by simp) (by simp))

theorem holderCount_of_holds {x y : Pool} (h : ∀ j, y.holds j = x.holds j) : y.holderCount = x.holderCount := by
  unfold Pool.holderCount
  rw [funext h]

theorem poolServed_of_same (h : SameQueues s t) (p : PoolId) : poolServed t p = poolServed s p := by
  obtain ⟨h1, h2, h3, h4⟩ := h p
  simp only [poolServed, h1, h2, holderCount_of_holds h3, h4]

theorem poolServed_of_no_waits (h : (s.pool p).waits = []) : poolServed s p = true := by simp [poolServed, h]

theorem poolServed_of_eq (hp : t.pool p = s.pool p) (hc : capacity t p = capacity s p) : poolServed t p = poolServed s p := by
  simp only [poolServed, hp, hc]

end

theorem waits_of_unused {x : Pool} (h : x.inUse = false) : x.waits = [] := by
  simp only [Pool.inUse, Bool.or_eq_false_iff] at h
  simpa using h.2

/-! ### Served, but for the choices still to be made -/

/-- Every pool is served, but for those at which `l` has a choice to make. -/
def ServedBut (l : List Task) (s : State) : Prop := ∀ p, poolServed s p = true ∨ Task.grantChoice p ∈ l

section
variable {s t : State}

/-- A task that leaves the queues, with those behind it. -/
theorem ServedBut.quiet {x : Task} {l m : List Task} (h : ServedBut (x :: l) s) (ht : SameQueues s t)
    (hx : ∀ p, x ≠ .grantChoice p) : ServedBut (m ++ l) t := fun p => by
  rw [poolServed_of_same ht p]
  refine (h p).imp_right fun hm => List.mem_append_right _ ?_
  exact (List.mem_cons.mp hm).resolve_left fun e => hx p e.symm

/-- What a task's own tasks make good: the pool it changed has a choice before it. -/
theorem ServedBut.chosen {x : Task} {l m : List Task} {q : PoolId} (h : ServedBut (x :: l) s)
    (hq : Task.grantChoice q ∈ m) (hx : ∀ p, p ≠ q → x ≠ .grantChoice p)
    (ht : ∀ p, p ≠ q → poolServed t p = poolServed s p) : ServedBut (m ++ l) t := fun p => by
  by_cases e : p = q
  · subst e
    exact .inr (List.mem_append_left _ hq)
  · rw [ht p e]
    refine (h p).imp_right fun hm => List.mem_append_right _ ?_
    exact (List.mem_cons.mp hm).resolve_left fun e' => hx p e e'.symm

theorem poolServed_modPool_ne {p q : PoolId} (f : Pool → Pool) (s : State) (h : q ≠ p) :
    poolServed (modPool p f s) q = poolServed s q :=
  poolServed_of_eq (by rw [modPool_pool, if_neg h]) (capacity_of_eq (by simp) (by simp) q)

theorem writeSource_queues (k : Strand) (src : LevelSource) (s : State) : SameQueues s (writeSource k src s) := by
  unfold writeSource writeLevelSet
  split
  · dsimp only
    split
    · exact sameQueues_of_eq (by simp) (by simp) (by simp) (by simp)
    · exact sameQueues_of_eq rfl rfl rfl rfl
  · exact .refl s

theorem beginLevel_queues (k : Strand) (src : LevelSource) (s : State) : SameQueues s (beginLevel k src s).1 := by
  unfold beginLevel
  split
  · exact (queues_updates s).failStep _ _ _ (.refl s)
  · refine (queues_updates s).toPhase _ _ _ _ ((writeSource_queues k src s).trans ?_)
    exact sameQueues_of_eq (by simp) (by simp) (by simp) (by simp)

theorem beginDraw_queues (k : Strand) (a b c : Nat) (s : State) : SameQueues s (beginDraw k a b c s).1 := by
  have hu : ∀ f, SameQueues s (updUnit k f s) := fun f => sameQueues_of_eq (by simp) (by simp) (by simp) (by simp)
  unfold beginDraw
  split
  · exact (queues_updates s).toPhase _ _ _ _ (hu _)
  · split
    · exact (queues_updates s).toPhase _ _ _ _ (hu _)
    · exact (queues_updates s).failStep _ _ _ (.refl s)

/-- A step's request leaves the queues, or makes a choice at the pool it joined. -/
theorem requestSlot_served (p : PoolId) (k : Strand) (s : State) :
    SameQueues s (requestSlot p k s).1 ∨
      (Task.grantChoice p ∈ (requestSlot p k s).2 ∧ ∀ q, q ≠ p → poolServed (requestSlot p k s).1 q = poolServed s q) := by
  unfold requestSlot
  split
  · exact .inl ((queues_updates s).failStep _ _ _ (.refl s))
  · refine .inr ⟨List.mem_singleton.mpr rfl, fun q hq => ?_⟩
    refine (poolServed_modPool_ne _ _ hq).trans (poolServed_of_same ?_ q)
    exact (queues_updates s).toPhase _ _ _ _ (.refl s)

theorem beginAction_served (k : Strand) (a : Action) (s : State) :
    SameQueues s (beginAction k a s).1 ∨
      ∃ p, Task.grantChoice p ∈ (beginAction k a s).2 ∧ ∀ q, q ≠ p → poolServed (beginAction k a s).1 q = poolServed s q := by
  cases a with
  | check m => exact .inl ((queues_updates s).toPhase _ _ _ _ (.refl s))
  | cool z => exact .inl (sameQueues_of_eq (by simp [beginAction, beginCool]) (by simp [beginAction, beginCool])
      (by simp [beginAction, beginCool]) (by simp [beginAction, beginCool]))
  | drive => exact (requestSlot_served _ _ _).imp_right fun h => ⟨_, h⟩
  | opening => exact (requestSlot_served _ _ _).imp_right fun h => ⟨_, h⟩
  | level src => exact .inl (beginLevel_queues _ _ _)
  | wait => exact .inl ((queues_updates s).toPhase _ _ _ _ (.refl s))
  | draw => exact .inl (beginDraw_queues _ _ _ _ _)
  | handover => exact .inl ((queues_updates s).toPhase _ _ _ _ (.refl s))

theorem beginStep_served (k : Strand) (s : State) :
    SameQueues s (beginStep k s).1 ∨
      ∃ p, Task.grantChoice p ∈ (beginStep k s).2 ∧ ∀ q, q ≠ p → poolServed (beginStep k s).1 q = poolServed s q := by
  unfold beginStep
  split
  · next p _ =>
    have hl : SameQueues s (loadStep k p s) := (queues_updates s).record _ _ _ (fun _ => ⟨rfl, rfl, rfl, rfl, Nat.le_refl _⟩) (.refl s)
    refine (beginAction_served k p.action (loadStep k p s)).imp hl.trans fun ⟨q, hq, h⟩ => ⟨q, hq, fun q' hn => ?_⟩
    exact (h q' hn).trans (poolServed_of_same hl q')
  · exact .inl (.refl s)

/-- A pass of the choice finds the pool served, or makes the choice again. -/
theorem grantPass_served (p : PoolId) (s : State) :
    ((grantPass p s).1 = s ∧ poolServed s p = true) ∨
      (Task.grantChoice p ∈ (grantPass p s).2 ∧ ∀ q, q ≠ p → poolServed (grantPass p s).1 q = poolServed s q) := by
  unfold grantPass
  split
  · split
    · next hw => exact .inl ⟨rfl, poolServed_of_no_waits hw⟩
    · next e rest _ =>
      refine .inr ⟨by simp, fun q hq => ?_⟩
      have hd : SameQueues (makeGrant p e.strand rest s) (deliverGrant p e.strand (makeGrant p e.strand rest s)).1 :=
        (queues_updates _).deliverGrant _ _ _ (.refl _)
      exact (poolServed_of_same hd q).trans
        (poolServed_of_eq ((makeGrant_pool p e.strand rest s).2 q hq) (capacity_of_eq (by simp) (by simp) q))
  · next hn =>
    refine .inl ⟨rfl, ?_⟩
    simp only [Bool.and_eq_true, decide_eq_true_eq, not_and, Nat.not_lt] at hn
    unfold poolServed
    cases ho : (s.pool p).isOpen with
    | false => rfl
    | true => simp [hn ho]

theorem runTask_served (x : Task) (l : List Task) (s : State) (h : ServedBut (x :: l) s) :
    ServedBut ((runTask x s).2 ++ l) (runTask x s).1 := by
  cases x with
  | enterStep k =>
    rcases beginStep_served k s with hs | ⟨p, hp, hq⟩
    · exact h.quiet hs nofun
    · exact h.chosen hp (fun _ _ => nofun) hq
  | completeStep k => exact h.quiet ((queues_updates s).finishStep k s (.refl s)) nofun
  | grantChoice p =>
    rcases grantPass_served p s with ⟨he, hs⟩ | ⟨hp, hq⟩
    · intro q
      have hq := h q
      simp only [runTask, he]
      by_cases e : q = p
      · exact .inl (e ▸ hs)
      · exact hq.imp_right fun hm => List.mem_append_right _
          ((List.mem_cons.mp hm).resolve_left fun e' => e (by cases e'; rfl))
    · exact h.chosen hp (fun q hn e => hn (by cases e; rfl)) hq
  | inrushEnd k =>
    refine h.chosen (q := .drive) List.mem_cons_self (fun _ _ => nofun) fun p hp => ?_
    exact poolServed_modPool_ne _ _ hp

/-- Once an action's tasks are all carried out every pool is served. -/
theorem drain_served (l : List Task) (s : State) (h : ServedBut l s) (p : PoolId) : poolServed (drain l s) p = true := by
  match l with
  | [] =>
    rw [drain_nil]
    exact (h p).resolve_right (List.not_mem_nil)
  | x :: l =>
    rw [drain_cons]
    exact drain_served _ _ (runTask_served x l s h) p
termination_by cascadeBound l s
decreasing_by exact runTask_lowers x l s

end

/-! ### The law -/

/-- Every pool is served. -/
def Served (s : State) : Prop := ∀ p, poolServed s p = true

theorem servedLaw_iff (s : State) : servedLaw s = true ↔ Served s := by
  simp only [servedLaw, Bool.and_eq_true, Served]
  exact ⟨fun ⟨h1, h2⟩ p => by cases p <;> assumption, fun h => ⟨h .pour, h .drive⟩⟩

theorem Served.of {s t : State} (h : Served s) (hq : SameQueues s t) : Served t := fun p =>
  (poolServed_of_same hq p).trans (h p)

theorem Served.of_eq {s t : State} (h : Served s) (h1 : t.pour = s.pour) (h2 : t.drive = s.drive)
    (h3 : t.working.pour = s.working.pour) (h4 : t.working.drive = s.working.drive) : Served t :=
  h.of (sameQueues_of_eq h1 h2 h3 h4)

theorem Served.but {s : State} (h : Served s) (l : List Task) : ServedBut l s := fun p => .inl (h p)

/-- A change of one pool, at which the choice is then made. -/
theorem Served.modPool_but {s : State} {p : PoolId} {l : List Task} (h : Served s) (f : Pool → Pool)
    (hp : Task.grantChoice p ∈ l) : ServedBut l (modPool p f s) := fun q => by
  by_cases e : q = p
  · exact .inr (e ▸ hp)
  · exact .inl ((poolServed_modPool_ne f s e).trans (h q))

/-- A change of one pool that leaves it served. -/
theorem Served.modPool {s : State} {p : PoolId} {f : Pool → Pool} (h : Served s)
    (hf : poolServed s p = true → poolServed (modPool p f s) p = true) : Served (modPool p f s) := fun q => by
  by_cases e : q = p
  · exact e ▸ hf (h p)
  · exact (poolServed_modPool_ne f s e).trans (h q)

theorem Served.reported {s : State} (k : Strand) (h : Served s) : Served (reportSettled k s) :=
  h.of_eq (reportSettled_pools k s).1 (reportSettled_pools k s).2 (by rw [reportSettled_working])
    (by rw [reportSettled_working])

theorem served_updates : UpdatesKeep Served where
  same := fun s t ⟨_, _, h3, h4, _, _, h7, _, _⟩ h => h.of_eq h3 h4 (by rw [h7]) (by rw [h7])
  pend := fun src s h => h.of ((queues_updates s).pend src s (.refl s))
  record := fun k f s hf h => h.of ((queues_updates s).record k f s hf (.refl s))
  modGrant := fun p k f s h => h.of ((queues_updates s).modGrant p k f s (.refl s))
  unit := fun k f s hl hf h => h.of ((queues_updates s).unit k f s hl hf (.refl s))

theorem served_kept : Kept fun _ => Served where
  weaken := fun _ _ h => h
  updates := fun _ => served_updates
  drain := fun _ l s h => drain_served l s (h.but l)
  release := fun _ p k l s hp h => drain_served l _ (h.modPool_but _ hp)
  dropEntry := fun _ p k s h => h.modPool fun hp => by
    simp only [poolServed, modPool_pool_same, Bool.or_eq_true, List.isEmpty_iff, decide_eq_true_eq] at hp ⊢
    rw [capacity_of_eq (s := s) (by simp) (by simp)]
    exact hp.imp_left (Or.imp_right fun e => by rw [e]; rfl)
  excluded := fun p m s h => h.modPool fun hp => by
    rw [← hp]
    simp only [poolServed, modPool_pool_same, capacity_of_eq (s := s) (t := Machine.modPool p _ s) (by simp) (by simp)]
    rfl
  opened := fun p s h => drain_served _ _ (h.modPool_but _ (List.mem_singleton.mpr rfl))
  closed := fun p s h => h.modPool fun _ => by simp [poolServed]
  cleared := fun p s h => h.modPool fun _ => by simp [poolServed]
  coordinator := fun c s _ h => h.of_eq rfl rfl rfl rfl
  small := fun k f s _ _ h => h.of_eq rfl rfl rfl rfl
  fault := fun k c d s _ h => h.of_eq (by simp) (by simp) (by simp) (by simp)
  faultAtRest := fun k c d s _ _ h => h.of_eq (by simp) (by simp) (by simp) (by simp)
  noFault := fun k s h => h.of_eq rfl rfl rfl rfl
  setFlag := fun k f s _ h => h.of_eq rfl rfl rfl rfl
  clearFlag := fun k f s _ _ _ h => h.of_eq rfl rfl rfl rfl
  clearLast := fun k f s _ h => h.of_eq rfl rfl rfl rfl
  breakout := fun k c s _ h => h.of_eq rfl rfl rfl rfl
  settle := fun k f s _ _ _ _ h => Served.reported k (h.of_eq (t := modStrand k f s) rfl rfl rfl rfl)
  hold := fun k f s _ _ _ h => h.of_eq rfl rfl rfl rfl
  cast := fun k s _ _ h => Served.reported k (h.of_eq (t := modStrand k StrandContext.cast s) rfl rfl rfl rfl)
  restartDry := fun k r n s _ _ _ h => h.of_eq rfl rfl rfl rfl
  restartHeld := fun k f r n s _ _ _ h => h.of_eq rfl rfl rfl rfl
  tick := fun s h => h.of fun p => by
    rw [pool_tick]
    exact ⟨rfl, rfl, holds_tick _, capacity_of_eq rfl rfl p⟩
  reset := fun s _ p => poolServed_of_no_waits (by
    obtain ⟨b, e⟩ := pool_restart s p
    rw [e]; rfl)
  caster := fun c s _ h => h.of_eq rfl rfl rfl rfl
  strandSettings := fun k p l s _ h => h.of_eq rfl rfl rfl rfl
  plan := fun n p s _ h => h.of_eq rfl rfl rfl rfl
  banks := fun b s h => h.of_eq rfl rfl rfl rfl
  window := fun n w s _ h => h.of_eq rfl rfl rfl rfl
  pour := fun p s _ hu h q => by
    cases q
    · exact poolServed_of_no_waits (waits_of_unused hu)
    · exact h .drive
  drive := fun p s _ hu h q => by
    cases q
    · exact h .pour
    · exact poolServed_of_no_waits (waits_of_unused hu)
  noticeLevels := fun l s _ h => h.of_eq rfl rfl rfl rfl

/-- Settles O60: a strand leaves RESTARTING with its withdrawal, an entry joins behind those of its class, and an action ends
with the choice made at every pool that it touched. -/
theorem stepKeepsSlotAndWaitLaws : Obligations.StepKeepsSlotAndWaitLaws := fun s t =>
  ⟨fun h hs => (slotLaw_iff t).mpr (slotLaw_kept.step s t ((slotLaw_iff s).mp h) hs), fun hs =>
    ⟨fun h => (waitLaw_iff t).mpr (waitLaw_poolLaw.kept.step s t ((waitLaw_iff s).mp h) hs),
      fun h => (servedLaw_iff t).mpr (served_kept.step s t ((servedLaw_iff s).mp h) hs)⟩⟩

end Sys2Proof.Machine
end
section
/-! PROOFS. What a command leaves alone beside the strands: the link's sending side, the waiting commands, the Supply Monitor
and the filtered lines. With it the Supply Monitor's law (R141) and the Input Filter's law (R159, R161). -/

namespace Sys2Proof.Machine

/-! ### The frame -/

/-- The waiting commands, the link's sending side, the Supply Monitor, the filtered lines and the notice levels are the same. -/
def Apart (s t : State) : Prop :=
  t.pending = s.pending ∧ t.replies = s.replies ∧ t.sending = s.sending ∧ t.supply = s.supply ∧
  t.strandLines = s.strandLines ∧ t.casterLines = s.casterLines ∧ t.working.noticeLevels = s.working.noticeLevels

theorem Apart.refl (s : State) : Apart s s := ⟨rfl, rfl, rfl, rfl, rfl, rfl, rfl⟩

theorem Apart.trans {s t u : State} (a : Apart s t) (b : Apart t u) : Apart s u := by
  obtain ⟨a1, a2, a3, a4, a5, a6, a7⟩ := a
  obtain ⟨b1, b2, b3, b4, b5, b6, b7⟩ := b
  exact ⟨b1.trans a1, b2.trans a2, b3.trans a3, b4.trans a4, b5.trans a5, b6.trans a6, b7.trans a7⟩

theorem Outside.apart {s t : State} (h : Outside s t) (hs : t.supply = s.supply) : Apart s t := by
  obtain ⟨⟨h1, -, -, h2, h3, -⟩, h6, h4, h5⟩ := h
  exact ⟨h1, h4, h5, hs, h2, h3, by rw [h6]⟩

theorem AtStrand.apart {k : Strand} {s t : State} (h : AtStrand k s t) : Apart s t := h.1.apart h.2.2.1

theorem Carried.apart {s t : State} (h : Carried s t) : Apart s t := h.1.apart h.2.2.2.1

theorem modPool_apart (p : PoolId) (f : Pool → Pool) (s : State) : Apart s (modPool p f s) :=
  (modPool_outside p f s).apart (by simp)

theorem pend_apart (src : Source) (s : State) : Apart s (pend src s) := (pend_carried src s).apart

theorem updUnit_apart (k : Strand) (f : UnitState → UnitState) (s : State) : Apart s (updUnit k f s) :=
  (updUnit_carried k f s).apart

theorem forConfigured_apart (f : Strand → State → State) (h : ∀ k s, AtStrand k s (f k s)) (s : State) :
    Apart s (forConfigured f s) := (forConfigured_outside f h s).1.apart (forConfigured_outside f h s).2.1

theorem openPool_apart (p : PoolId) (s : State) : Apart s (openPool p s) := by
  unfold openPool
  split
  · exact .refl s
  · exact (modPool_apart _ _ _).trans (drain_carried _ _).apart

theorem modCoordinator_apart (f : Coordinator → Coordinator) (s : State) : Apart s (modCoordinator f s) :=
  ⟨rfl, rfl, rfl, rfl, rfl, rfl, rfl⟩

/-! ### The Coordinator's and the Trip Latch's operations -/

theorem enterHolding_apart (s : State) : Apart s (enterHolding s) :=
  (modCoordinator_apart _ _).trans ((forConfigured_apart _ (holdStrand_at .tundish) _).trans
    ((modPool_apart _ _ _).trans (pend_apart _ _)))

theorem enterFilling_apart (s : State) : Apart s (enterFilling s) := (modCoordinator_apart _ _).trans (pend_apart _ _)

theorem enterSteady_apart (s : State) : Apart s (enterSteady s) := (modCoordinator_apart _ _).trans (pend_apart _ _)

theorem endEntry_apart (s : State) : Apart s (endEntry s) := by
  unfold endEntry
  dsimp only
  split
  · exact (modCoordinator_apart _ _).trans (enterSteady_apart _)
  · exact modCoordinator_apart _ _

theorem enterReleasing_apart (s : State) : Apart s (enterReleasing s) := by
  unfold enterReleasing
  dsimp only
  refine .trans ?_ (endEntry_apart _)
  refine .trans ?_ (pend_apart _ _)
  refine .trans ?_ (openPool_apart _ _)
  exact (modCoordinator_apart _ _).trans (forConfigured_apart _ releaseTundish_at _)

/-- TUNDISH ABORT at strand `k` (R137, item 1). -/
def abortForTundish (k : Strand) (s : State) : State :=
  if abortedByTundish s k then enterHalted k .abort (writeFault k .abort 1 s) else s

theorem abortForTundish_at (k : Strand) (s : State) : AtStrand k s (abortForTundish k s) := by
  unfold abortForTundish
  split
  · exact (writeFault_at k _ _ s).trans (enterHalted_at k _ _)
  · exact .refl k s

theorem abandonChange_eq (s : State) : abandonChange s =
    pend .tundish (openPool .pour
      (modCoordinator (fun c => { c with state := .steady, releaseSet := StrandSet.none, entering := false })
        (forConfigured abortForTundish (modCoordinator (fun c => { c with entering := true }) s)))) := rfl

theorem abandonChange_apart (s : State) : Apart s (abandonChange s) := by
  rw [abandonChange_eq]
  exact (modCoordinator_apart _ _).trans ((forConfigured_apart _ abortForTundish_at _).trans
    ((modCoordinator_apart _ _).trans ((openPool_apart _ _).trans (pend_apart _ _))))

theorem takeWeight_apart (w : Nat) (s : State) : Apart s (takeWeight w s) := by
  unfold takeWeight judgeWeight
  dsimp only
  split
  · split
    · exact modCoordinator_apart _ _
    · exact (modCoordinator_apart _ _).trans ((modCoordinator_apart _ _).trans (pend_apart _ _))
  · split
    · exact (modCoordinator_apart _ _).trans (enterReleasing_apart _)
    · exact modCoordinator_apart _ _
  all_goals exact modCoordinator_apart _ _

theorem modTrip_apart (f : TripLatch → TripLatch) (s : State) : Apart s (modTrip f s) := ⟨rfl, rfl, rfl, rfl, rfl, rfl, rfl⟩

theorem tripReturn_apart (s : State) : Apart s (tripReturn s) := by
  unfold tripReturn
  dsimp only
  refine .trans ?_ (openPool_apart _ _)
  split
  · exact modCoordinator_apart _ _
  · exact (modCoordinator_apart _ _).trans ((modCoordinator_apart _ _).trans (pend_apart _ _))

theorem forceOutputs_at (k : Strand) (s : State) : AtStrand k s (forceOutputs k s) := (updUnit_carried _ _ _).at k

theorem latch_apart (s : State) : Apart s (latch s) :=
  (modTrip_apart _ s).trans ((forConfigured_apart _ tripStrand_at _).trans ((forConfigured_apart _ forceOutputs_at _).trans
    ((modPool_apart _ _ _).trans ((modPool_apart _ _ _).trans ((tripReturn_apart _).trans (pend_apart _ _))))))

theorem takeTrip_apart (b : Bool) (s : State) : Apart s (takeTrip b s) := by
  have h : Apart s (if s.trip.line ≠ b ∧ s.trip.latched = true then pend .trip (modTrip (fun x => { x with line := b }) s)
      else modTrip (fun x => { x with line := b }) s) := by
    split
    · exact (modTrip_apart _ _).trans (pend_apart _ _)
    · exact modTrip_apart _ _
  unfold takeTrip
  dsimp only
  split
  · exact h.trans (latch_apart _)
  · exact h

theorem arm_apart (s : State) : Apart s (arm s) := by
  have h := (modTrip_apart (fun x => { x with armed := true }) s).trans (pend_apart .trip _)
  unfold arm
  split
  · exact .refl s
  · dsimp only
    split
    · exact h.trans (latch_apart _)
    · exact h

theorem unlatch_apart (s : State) : Apart s (unlatch s) := by
  unfold unlatch
  split
  · exact (modTrip_apart _ _).trans (pend_apart _ _)
  · exact .refl s

/-! ### The events of a step -/

theorem stepExpiry_carried (k : Strand) (a : Action) (s : State) : Carried s (stepExpiry k a s) := by
  cases a with
  | wait => exact drain_carried _ _
  | _ => exact failStep_carried _ _ _

theorem stepTimerEffect_carried (k : Strand) (s : State) : Carried s (stepTimerEffect k s) := by
  unfold stepTimerEffect
  split
  · split
    · exact stepExpiry_carried _ _ _
    · exact .refl s
  · exact .refl s

theorem examineCheck_carried (k : Strand) (s : State) : Carried s (examineCheck k s) := by
  unfold examineCheck
  split
  · split
    · exact drain_carried _ _
    · exact .refl s
  · exact .refl s

theorem freeIndex_carried (n : Nat) (s : State) : Carried s (freeIndex n s).2 := by
  unfold freeIndex
  split
  · exact .refl s
  · exact ⟨Outside.refl s, SameStrand.refl s, rfl, rfl, rfl, rfl, rfl, rfl, rfl, rfl⟩

theorem inOpenOrder_carried (n : Nat) (l : List Strand) (s : State) : Carried s (inOpenOrder examineCheck n l s) :=
  inOpenOrder_keeps (P := Carried s) _ (fun k t h => h.trans (examineCheck_carried k t))
    (fun n t h => h.trans (freeIndex_carried n t)) n l s (.refl s)

theorem stepReadyRise_carried (k : Strand) (s : State) : Carried s (stepReadyRise k s) := by
  unfold stepReadyRise
  split
  · exact (enterInrush_carried k s).trans (drain_carried _ _)
  · exact .refl s

theorem confirmRise_at (k : Strand) (s : State) : AtStrand k s (confirmRise k s) := by
  unfold confirmRise
  dsimp only
  exact ((filling_carried k s).at k).trans ((modReported_at k _ _).trans (modStrand_at k _ _))

theorem fillTo_carried (k : Strand) (a d : Nat) (s : State) : Carried s (fillTo k a d s) := by
  unfold fillTo
  split
  · exact (stopStep_carried k s).trans ((updUnit_carried k _ _).trans ((dropGrant_carried .pour k _).trans (drain_carried _ _)))
  · exact .refl s

theorem pourTo_at (k : Strand) (a d : Nat) (s : State) : AtStrand k s (pourTo k a d s) := by
  have hr : AtStrand k s (modRecord k (fun r => { r with riseReference := some d }) s) := (modRecord_carried k _ s).at k
  unfold pourTo
  split
  · exact hr
  · split
    · exact hr
    · split
      · exact (confirmRise_at k s).trans ((fillTo_carried k a d _).at k)
      · exact .refl k s

theorem openStepDepth_at (k : Strand) (d : Nat) (s : State) : AtStrand k s (openStepDepth k d s) := by
  unfold openStepDepth
  split
  · split
    · exact pourTo_at k _ d s
    · split
      · exact (fillTo_carried k _ d s).at k
      · exact .refl k s
  · exact .refl k s

theorem lockReport_carried (k : Strand) (s : State) : Carried s (lockReport k s) := by
  unfold lockReport
  split
  · exact drain_carried _ _
  · exact .refl s

theorem targetReport_carried (k : Strand) (s : State) : Carried s (targetReport k s) := by
  unfold targetReport
  split
  · exact drain_carried _ _
  · exact .refl s

theorem referenceReport_carried (k : Strand) (v : Nat) (s : State) : Carried s (referenceReport k v s) := by
  unfold referenceReport
  split
  · exact (updUnit_carried k _ s).trans (drain_carried _ _)
  · exact .refl s

theorem unitDepth_carried (k : Strand) (x : Sample) (s : State) : Carried s (unitDepth k x s) := by
  unfold unitDepth
  dsimp only
  split
  · exact (updUnit_carried k _ s).trans (lockReport_carried k _)
  · exact updUnit_carried k _ s

theorem holdExpiry_at (k : Strand) (s : State) : AtStrand k s (holdExpiry k s) :=
  (modStrand_at k _ s).trans (freeze_at k _)

/-! An expiry that excludes the strand leaves all but the exclusion sets. -/

theorem exclude_apart (p : PoolId) (k : Strand) (s : State) : Apart s (exclude p k s) :=
  (modPool_apart _ _ _).trans (pend_apart _ _)

theorem attemptFailed_apart (k : Strand) (a b c : Nat) (s : State) : Apart s (attemptFailed k a b c s) := by
  unfold attemptFailed
  dsimp only
  split
  · exact (updUnit_apart k _ s).trans ((toPhase_carried k _ _ _).trans (modRecord_carried k _ _)).apart
  · exact (updUnit_apart k _ s).trans (((stopStep_carried k _).trans (releaseSlot_carried _ k _)).apart.trans
      ((exclude_apart _ k _).trans (failStep_carried k _ _).apart))

theorem pourExpiryAtStep_apart (k : Strand) (s : State) : Apart s (pourExpiryAtStep k s) := by
  unfold pourExpiryAtStep
  split
  · split
    · exact attemptFailed_apart k _ _ _ _
    · exact .refl _
  · exact .refl _

theorem pourExpiry_apart (k : Strand) (s : State) : Apart s (pourExpiry k s) :=
  (modGrant_carried .pour k _ s).apart.trans (pourExpiryAtStep_apart k _)

theorem driveExpiry_apart (k : Strand) (s : State) : Apart s (driveExpiry k s) := by
  unfold driveExpiry
  split
  · exact ((stopStep_carried k s).trans (releaseSlot_carried _ k _)).apart.trans
      ((exclude_apart _ k _).trans (failStep_carried k _ _).apart)
  · exact (releaseSlot_carried _ k s).apart.trans (exclude_apart _ k _)

/-! ### Requests -/

theorem coolAfter_apart (k : Strand) (a b : StrandSettings) (s : State) : Apart s (coolAfter k a b s) := by
  unfold coolAfter
  split
  · split
    · exact .refl s
    · exact updUnit_apart _ _ _
  · split
    · exact .refl s
    · exact updUnit_apart _ _ _
  · exact .refl s

theorem freezeAfter_apart (k : Strand) (a b : StrandSettings) (s : State) : Apart s (freezeAfter k a b s) := by
  unfold freezeAfter
  split
  · exact (freeze_at k s).apart
  · exact .refl s

theorem applyStrand_apart (k : Strand) (p : StrandSettings) (l : LevelParams) (s : State) :
    Apart s (applyStrand k p l s) :=
  .trans (t := storeStrand k p l s) ⟨rfl, rfl, rfl, rfl, rfl, rfl, rfl⟩
    ((coolAfter_apart k _ _ _).trans (freezeAfter_apart k _ _ _))

theorem control_apart (k : Strand) (d m c : Byte) (s : State) : Apart s (control k d m c s) := by
  have h := (updUnit_apart k (applyChoice c) s).trans (updUnit_apart k (applyMode m) _)
  unfold control
  dsimp only
  split
  · exact h.trans (enterHeld_at k _ _).apart
  · exact h

theorem includeIn_apart (p : PoolId) (b : Bool) (k : Strand) (s : State) : Apart s (includeIn p b k s) := by
  unfold includeIn
  split
  · exact (modPool_apart _ _ _).trans (pend_apart _ _)
  · exact .refl s

theorem startCold_apart (k : Strand) (s : State) : Apart s (startCold k s).1 := by
  unfold startCold
  split
  · exact (enterRestarting_at k _ _ _ s).apart
  · exact .refl s

theorem clearFault_apart (k : Strand) (s : State) : Apart s (clearFault k s) := by
  unfold clearFault
  split
  · exact .trans ⟨rfl, rfl, rfl, rfl, rfl, rfl, rfl⟩ (pend_apart _ _)
  · exact .refl s

theorem serviceOff_apart (k : Strand) (s : State) : Apart s (serviceOff k s).1 := by
  unfold serviceOff
  split
  · exact (enterOffline_at k s).apart
  · exact (enterOffline_at k s).apart
  all_goals exact .refl s

theorem serviceOn_apart (k : Strand) (s : State) : Apart s (serviceOn k s).1 := by
  unfold serviceOn
  split
  · exact (returnToService_at k s).apart
  all_goals exact .refl s

/-- A change of the working copy alone, that keeps the notice levels. -/
theorem working_apart {w : Settings} {s : State} (h : w.noticeLevels = s.working.noticeLevels) :
    Apart s { s with working := w } := ⟨rfl, rfl, rfl, rfl, rfl, rfl, h⟩

theorem handleArbiterWrite_apart (b : ArbiterBody) (s : State) : Apart s (handleArbiterWrite b s).1 := by
  unfold handleArbiterWrite
  split
  · exact .refl s
  · next a b c d e f g =>
    cases readPour a b c d e f g with
    | none => exact .refl s
    | some p => exact checked_keeps (P := Apart s) _ _ s (.refl s) fun _ => working_apart rfl
  · next a b c d =>
    cases readDrive a b c d with
    | none => exact .refl s
    | some p => exact checked_keeps (P := Apart s) _ _ s (.refl s) fun _ => working_apart rfl

theorem handlePlanWrite_apart (n : Byte) (p : RawPlan) (s : State) : Apart s (handlePlanWrite n p s).1 := by
  unfold handlePlanWrite
  split
  · exact .refl s
  · split
    · exact .refl s
    · split
      · exact .refl s
      · exact working_apart rfl

theorem handlePlanErase_apart (n : Byte) (s : State) : Apart s (handlePlanErase n s).1 := by
  unfold handlePlanErase
  cases slotOf n with
  | none => exact .refl s
  | some n => exact checked_keeps (P := Apart s) _ _ s (.refl s) fun _ => working_apart rfl

theorem handleMapWrite_apart (b : WindowBody) (s : State) : Apart s (handleMapWrite b s).1 := by
  unfold handleMapWrite
  split
  · exact working_apart rfl
  · exact .refl s

theorem handleMapDisable_apart (b : Byte) (s : State) : Apart s (handleMapDisable b s).1 := by
  unfold handleMapDisable
  cases windowOf b with
  | none => exact .refl s
  | some n => exact working_apart rfl

theorem handleStore_apart (s : State) : Apart s (handleStore s).1 := by
  unfold handleStore
  split
  · exact .refl s
  all_goals exact ⟨rfl, rfl, rfl, rfl, rfl, rfl, rfl⟩

theorem handleNoticeClear_apart (m : BitVec 32) (s : State) : Apart s (handleNoticeClear m s).1 := by
  have h : Apart s { s with noticePending := Vector.ofFn fun n => s.noticePending.look n && !m.getLsbD n.val } :=
    ⟨rfl, rfl, rfl, rfl, rfl, rfl, rfl⟩
  exact checked_keeps (P := Apart s) _ _ s (.refl s) fun _ => h

/-- The requests that may break the lines' runs (R166) or replace the notice levels (R180). -/
def writesSources : Instr → Bool
  | .settingsWrite _ _ | .noticeLevels _ _ => true
  | _ => false

/-- What the handler of any other request leaves alone. -/
theorem handler_apart {i : Instr} (hi : writesSources i = false) {f : Handler} (hf : handlerOf i = some f)
    (s : State) : Apart s (f s).1 := by
  have none : Apart s s := .refl s
  unfold handlerOf at hf
  split at hf <;> cases hf
  case h_3 | h_31 => cases hi
  case h_4 => exact handleStore_apart s
  case h_5 => exact namingStrand_keeps (P := Apart s) _ _ s none fun _ _ => none
  case h_6 =>
    refine namingInService_keeps (P := Apart s) _ _ s none fun k _ _ => ?_
    split
    · exact none
    · exact checked_keeps (P := Apart s) _ _ s none fun _ => applyStrand_apart k _ _ s
  case h_7 =>
    exact namingInService_keeps (P := Apart s) _ _ s none fun k _ _ =>
      checked_keeps (P := Apart s) _ _ s none fun _ => startCold_apart k s
  case h_8 =>
    exact namingInService_keeps (P := Apart s) _ _ s none fun k _ _ =>
      checked_keeps (P := Apart s) _ _ s none fun _ => (abortStrand_at k 0 s).apart
  case h_9 =>
    exact namingInService_keeps (P := Apart s) _ _ s none fun k _ _ =>
      checked_keeps (P := Apart s) _ _ s none fun _ => control_apart k _ _ _ s
  case h_10 =>
    exact namingInService_keeps (P := Apart s) _ _ s none fun k _ _ =>
      checked_keeps (P := Apart s) _ _ s none fun _ => (releaseFlag_at _ k s).apart
  case h_11 =>
    exact namingInService_keeps (P := Apart s) _ _ s none fun k _ _ =>
      checked_keeps (P := Apart s) _ _ s none fun _ => (enterDry_at k s).apart
  case h_12 =>
    refine namingStrand_keeps (P := Apart s) _ _ s none fun k _ => checked_keeps (P := Apart s) _ _ s none fun _ => ?_
    split
    · exact serviceOff_apart k s
    · exact serviceOn_apart k s
  case h_13 => exact namingStrand_keeps (P := Apart s) _ _ s none fun _ _ => none
  case h_14 => exact namingInService_keeps (P := Apart s) _ _ s none fun k _ _ => clearFault_apart k s
  case h_15 => exact handlePlanWrite_apart _ _ s
  case h_16 => rw [handlePlanRead_state]; exact none
  case h_17 => exact handlePlanErase_apart _ s
  case h_18 => exact checked_keeps (P := Apart s) _ _ s none fun _ => working_apart rfl
  case h_19 => exact checked_keeps (P := Apart s) _ _ s none fun _ => working_apart rfl
  case h_20 => rw [handleMapRead_state]; exact none
  case h_21 => exact handleMapWrite_apart _ s
  case h_22 => exact handleMapDisable_apart _ s
  case h_23 => rw [handleArbiterRead_state]; exact none
  case h_24 => exact handleArbiterWrite_apart _ s
  case h_25 =>
    exact namingInService_keeps (P := Apart s) _ _ s none fun k _ _ =>
      checked_keeps (P := Apart s) _ _ s none fun _ => (includeIn_apart _ _ k s).trans (includeIn_apart _ _ k _)
  case h_26 => exact checked_keeps (P := Apart s) _ _ s none fun _ => enterHolding_apart s
  case h_27 => exact checked_keeps (P := Apart s) _ _ s none fun _ => enterFilling_apart s
  case h_28 => exact checked_keeps (P := Apart s) _ _ s none fun _ => abandonChange_apart s
  case h_29 => exact arm_apart s
  case h_30 => exact checked_keeps (P := Apart s) _ _ s none fun _ => unlatch_apart s
  case h_33 m => exact handleNoticeClear_apart m s
  all_goals exact none

end Sys2Proof.Machine
end
section
/-! PROOFS. What an event leaves alone beside the strands, and with it the Supply Monitor's law (R141) and the Input Filter's law
(R159, R161). -/

namespace Sys2Proof.Machine

/-! ### Events -/

theorem endWrite_apart (w : Image) (s : State) : Apart s (endWrite w s) := by
  unfold endWrite
  split
  · split <;> exact .trans ⟨rfl, rfl, rfl, rfl, rfl, rfl, rfl⟩ (pend_apart _ _)
  all_goals exact .refl s

theorem takeMeasurement_apart (p : MeasurementLevels) (s : State) : Apart s (takeMeasurement p s) := by
  unfold takeMeasurement emitAll
  exact ⟨rfl, rfl, rfl, rfl, rfl, rfl, rfl⟩

/-- The events that move the filtered lines, the Supply Monitor, the transmitter or the whole part. -/
def isPlantSide : Instr → Bool
  | .reset | .transmissionEnd | .filterSample _ | .supplyOkFirstLevel _ _ | .supplyOkFall _ | .supplyOkRise _
  | .rideThroughExpiry | .settleExpiry => true
  | _ => false

/-- What every other event leaves alone. -/
theorem effect_apart {i : Instr} (hi : isPlantSide i = false) (s : State) : Apart s (effect i s) := by
  have guarded : ∀ (c : Prop) [Decidable c] (t : State), Apart s t → Apart s (if c then t else s) :=
    fun c _ t ht => by
      split
      · exact ht
      · exact .refl s
  cases i with
  | gapTimerExpiry => exact ⟨rfl, rfl, rfl, rfl, rfl, rfl, rfl⟩
  | storeWriteEnd w => exact endWrite_apart w s
  | steelPresentFirstLevel k b => exact guarded _ _ (endStartUp_at k b s).apart
  | breakoutAlarmRise k => exact guarded _ _ (takeBreakout_at k s).apart
  | driveReadyFall k => exact guarded _ _ (takeReadyFall_at k s).apart
  | driveReadyRise k => exact guarded _ _ (stepReadyRise_carried k s).apart
  | permissiveLevelChange line => exact (inOpenOrder_carried _ _ s).apart
  | tcRequestRise => exact guarded _ _ (enterHolding_apart s)
  | tundishInPlaceRise => exact guarded _ _ (enterFilling_apart s)
  | measurementInstant c => exact takeMeasurement_apart c s
  | depthSampleUnit k x => exact guarded _ _ (unitDepth_carried k x s).apart
  | depthSampleOpenStep k x =>
    cases x with
    | valid d => exact guarded _ _ (openStepDepth_at k d s).apart
    | invalid => exact .refl s
  | speedReferenceSample k x =>
    cases x with
    | valid v => exact guarded _ _ ((updUnit_carried k _ s).trans (referenceReport_carried k v _)).apart
    | invalid => exact .refl s
  | weightSample x =>
    cases x with
    | valid w => exact takeWeight_apart w s
    | invalid => exact .refl s
  | tripSample b =>
    exact .trans (t := { s with port := { s.port with trip := b } }) ⟨rfl, rfl, rfl, rfl, rfl, rfl, rfl⟩ (takeTrip_apart b _)
  | holdTimerExpiry k => exact guarded _ _ (holdExpiry_at k s).apart
  | stepTimerExpiry k => exact (stepTimerEffect_carried k s).apart
  | preChargeEnd k => exact guarded _ _ (openForAttempt_carried k s).apart
  | retryDwellEnd k => exact guarded _ _ (openForAttempt_carried k s).apart
  | inrushHoldEnd k => exact guarded _ _ (drain_carried _ s).apart
  | pourResponseExpiry k => exact guarded _ _ (pourExpiry_apart k s)
  | driveResponseExpiry k => exact guarded _ _ (driveExpiry_apart k s)
  | rampTargetReached k => exact guarded _ _ ((updUnit_carried k _ s).trans (targetReport_carried k _)).apart
  | stepFailureClaim k c => exact (takeFailure_at k c s).apart
  | restartCompleteClaim k n => exact (takeCompletion_at k n s).apart
  | reset | transmissionEnd | filterSample | supplyOkFirstLevel | supplyOkFall | supplyOkRise | rideThroughExpiry
  | settleExpiry => cases hi
  | _ => exact .refl s

/-! ### The Supply Monitor's operations -/

theorem releaseDip_supply (c : SuppliedFrom) (s : State) : (releaseDip c s).supply = s.supply := by
  unfold releaseDip
  split
  · exact (forConfigured_outside _ (releaseFlag_at .dip) s).2.1
  all_goals rfl

theorem enterSupplied_supply (c : SuppliedFrom) (s : State) : (enterSupplied c s).supply = s.supply.supplied c := by
  unfold enterSupplied
  rw [pend_supply, (openPool_apart _ _).2.2.2.1, releaseDip_supply, (forConfigured_apart _ reexamine_at _).2.2.2.1]
  rfl

theorem declareDip_supply (s : State) : (declareDip s).supply = { s.supply with state := .down, rideTimer := none } := by
  unfold declareDip
  rw [pend_supply, (forConfigured_apart _ (holdStrand_at .dip) _).2.2.2.1]
  rfl

theorem takeFirstSupply_outside (b : Bool) (n : Stamp) (s : State) : Outside s (takeFirstSupply b n s) := by
  unfold takeFirstSupply
  split
  · exact .refl s
  · split
    · exact (modSupply_outside _ s).trans (enterSupplied_outside _ _)
    · exact (modSupply_outside _ s).trans (pend_outside _ _)

theorem takeSupplyFall_outside (n : Stamp) (s : State) : Outside s (takeSupplyFall n s) := by
  unfold takeSupplyFall
  split
  · exact (modSupply_outside _ s).trans ((modPool_outside _ _ _).trans (pend_outside _ _))
  · exact (modSupply_outside _ s).trans (pend_outside _ _)
  all_goals exact .refl s

theorem enterSettling_outside (n : Stamp) (s : State) : Outside s (enterSettling n s) :=
  (modSupply_outside _ s).trans (pend_outside _ _)

theorem takeSupplyRise_outside (n : Stamp) (s : State) : Outside s (takeSupplyRise n s) := by
  unfold takeSupplyRise
  split
  · exact .refl s
  · exact enterSupplied_outside _ _
  · split
    · exact (enterSettling_outside n s).trans (enterSupplied_outside _ _)
    · exact enterSettling_outside n s
  all_goals exact .refl s

theorem rideExpiry_outside (s : State) : Outside s (rideExpiry s) := by
  unfold rideExpiry
  split
  · exact declareDip_outside s
  all_goals exact .refl s

theorem settleEnd_outside (s : State) : Outside s (settleEnd s) := by
  unfold settleEnd
  split
  · exact enterSupplied_outside _ s
  all_goals exact .refl s

/-! ### The Supply Monitor's law -/

/-- The Supply Monitor's law of its own fields (R141). -/
def supplyLawOf (m : SupplyMonitor) : Bool :=
  (m.rideTimer.isSome == (m.state == .riding)) && (m.settleTimer.isSome == (m.state == .settling))
    && (m.settleStart.isSome == (m.state == .settling))
    && (m.outageStart.isSome == (m.state == .riding || m.state == .settling || (m.state == .down && m.check == .done)))
    && (m.check == .done || m.state == .down)

theorem supplyLaw_eq (s : State) : supplyLaw s = supplyLawOf s.supply := rfl

theorem supplyLawOf_iff (m : SupplyMonitor) : supplyLawOf m = true ↔
    (m.rideTimer.isSome = true ↔ m.state = .riding) ∧ (m.settleTimer.isSome = true ↔ m.state = .settling) ∧
    (m.settleStart.isSome = true ↔ m.state = .settling) ∧
    (m.outageStart.isSome = true ↔ m.state = .riding ∨ m.state = .settling ∨ (m.state = .down ∧ m.check = .done)) ∧
    (m.check = .done ∨ m.state = .down) := by
  have e (a b : Bool) : (a == b) = true ↔ (a = true ↔ b = true) := by rw [beq_iff_eq, Bool.eq_iff_iff]
  simp only [supplyLawOf, Bool.and_eq_true, e]
  simp only [Bool.and_eq_true, Bool.or_eq_true, beq_iff_eq, and_assoc, or_assoc]

theorem check_of_supplyLaw {m : SupplyMonitor} (h : supplyLawOf m = true) (hs : m.state ≠ .down) : m.check = .done :=
  ((supplyLawOf_iff m).mp h).2.2.2.2.resolve_right hs

theorem supplyLawOf_supplied {m : SupplyMonitor} (c : SuppliedFrom) (hc : m.check = .done) : supplyLawOf (m.supplied c) = true := by
  rw [supplyLawOf_iff]
  simp [SupplyMonitor.supplied, hc]

end Sys2Proof.Machine
end
section
/-! PROOFS. The Supply Monitor's law (R141) and the Input Filter's law (R159, R161). -/

namespace Sys2Proof.Machine

/-! ### The Supply Monitor's fields after each of its events -/

/-- A first level of SUPPLY_OK is taken while the start-up check is PENDING (R143). -/
theorem takeFirstSupply_law (b : Bool) (n : Stamp) (s : State) (h : supplyLawOf s.supply = true) :
    supplyLawOf (takeFirstSupply b n s).supply = true := by
  unfold takeFirstSupply
  split
  · exact h
  · next hc =>
    obtain ⟨h1, h2, h3, -, h5⟩ := (supplyLawOf_iff _).mp h
    have hd : s.supply.state = .down := by simpa [hc] using h5
    split
    · rw [enterSupplied_supply, supplyLawOf_iff]
      simp [SupplyMonitor.supplied, modSupply]
    · rw [pend_supply, supplyLawOf_iff]
      simp_all [modSupply]

/-- A fall of SUPPLY_OK (R144, R148). -/
theorem takeSupplyFall_law (n : Stamp) (s : State) (h : supplyLawOf s.supply = true) :
    supplyLawOf (takeSupplyFall n s).supply = true := by
  have hc := check_of_supplyLaw h
  obtain ⟨h1, h2, h3, h4, -⟩ := (supplyLawOf_iff _).mp h
  unfold takeSupplyFall
  split
  · next e =>
    have hp := hc (by rw [e]; nofun)
    rw [pend_supply, closePool, modPool_supply, supplyLawOf_iff]
    simp_all [modSupply]
  · next e =>
    have hp := hc (by rw [e]; nofun)
    rw [pend_supply, supplyLawOf_iff]
    simp_all [modSupply]
  all_goals exact h

/-- The rise that begins SETTLING (R147). -/
theorem enterSettling_law (n : Stamp) (s : State) (hd : s.supply.state = .down) (hc : s.supply.check = .done)
    (h : supplyLawOf s.supply = true) : supplyLawOf (enterSettling n s).supply = true := by
  obtain ⟨h1, h2, h3, h4, -⟩ := (supplyLawOf_iff _).mp h
  rw [enterSettling, pend_supply, supplyLawOf_iff]
  simp_all [modSupply]

/-- A rise of SUPPLY_OK (R145, R147). -/
theorem takeSupplyRise_law (n : Stamp) (s : State) (h : supplyLawOf s.supply = true) :
    supplyLawOf (takeSupplyRise n s).supply = true := by
  unfold takeSupplyRise
  split
  · exact h
  · next hc _ => rw [enterSupplied_supply]; exact supplyLawOf_supplied _ hc
  · next hc hd =>
    have hs := enterSettling_law n s hd hc h
    split
    · rw [enterSupplied_supply]
      exact supplyLawOf_supplied _ (by rw [enterSettling, pend_supply]; exact hc)
    · exact hs
  all_goals exact h

/-- The ride-through's expiry (R146). -/
theorem rideExpiry_law (s : State) (h : supplyLawOf s.supply = true) : supplyLawOf (rideExpiry s).supply = true := by
  unfold rideExpiry
  split
  · next e =>
    have hc := check_of_supplyLaw h (by rw [e]; nofun)
    obtain ⟨h1, h2, h3, h4, -⟩ := (supplyLawOf_iff _).mp h
    rw [declareDip_supply, supplyLawOf_iff]
    simp_all
  all_goals exact h

/-- The settle timer's expiry (R149). -/
theorem settleEnd_law (s : State) (h : supplyLawOf s.supply = true) : supplyLawOf (settleEnd s).supply = true := by
  unfold settleEnd
  split
  · next e =>
    rw [enterSupplied_supply]
    exact supplyLawOf_supplied _ (check_of_supplyLaw h (by rw [e]; nofun))
  all_goals exact h

theorem tick_supply (s : State) : (tick s).supply = s.supply.tick := rfl

theorem supplyLawOf_tick (m : SupplyMonitor) : supplyLawOf m.tick = supplyLawOf m := by
  simp [supplyLawOf, SupplyMonitor.tick, countDown]

/-! ### The law of a line -/

theorem lineLaw_sample (p : Presented) (l : Line) (h : lineLaw l = true) : lineLaw (l.sample p) = true := by
  simp only [lineLaw, Bool.and_eq_true, Bool.or_eq_true, decide_eq_true_eq, beq_iff_eq, bne_iff_ne] at h ⊢
  obtain ⟨⟨h1, h2⟩, h3⟩ := h
  cases p with
  | noData => simp [Line.sample]
  | level b =>
    by_cases hb : l.runLevel = some b
    · simp only [Line.sample, hb, if_true]
      refine ⟨⟨by omega, by simp⟩, ?_⟩
      by_cases h3 : min 3 (l.runLength + 1) = 3
      · exact .inr (by simp [h3])
      · exact .inl h3
    · simp [Line.sample, hb]

theorem lineLaw_clearRun (l : Line) : lineLaw l.clearRun = true := by simp [lineLaw, Line.clearRun]

theorem lineLaw_initial : lineLaw Line.initial = true := by decide

theorem strandLinesLaw_iff (l : StrandLines) : strandLinesLaw l = true ↔
    lineLaw l.breakoutAlarm = true ∧ lineLaw l.driveReady = true ∧ lineLaw l.dummyAtMold = true ∧
      lineLaw l.steelPresent = true ∧ lineLaw l.moldWaterOk = true := by
  simp only [strandLinesLaw, Bool.and_eq_true, and_assoc]

/-- The law of the caster-wide lines. -/
def casterLinesLaw (l : CasterLines) : Prop :=
  lineLaw l.supplyOk = true ∧ lineLaw l.tcRequest = true ∧ lineLaw l.tundishInPlace = true ∧ lineLaw l.hydOk = true ∧
    lineLaw l.maint = true

/-- The Input Filter's law, line by line. -/
def FilterOK (s : State) : Prop := (∀ k, strandLinesLaw (s.strandLines.look k) = true) ∧ casterLinesLaw s.casterLines

theorem filterLaw_iff (s : State) : filterLaw s = true ↔ FilterOK s := by
  simp only [filterLaw, Bool.and_eq_true, List.all_eq_true, mem_allStrands, true_imp_iff, FilterOK, casterLinesLaw, and_assoc]

theorem FilterOK.of_apart {s t : State} (a : Apart s t) (h : FilterOK s) : FilterOK t := by
  obtain ⟨-, -, -, -, a1, a2, -⟩ := a
  unfold FilterOK
  rw [a1, a2]
  exact h

/-! ### Sampling and changed periods -/

theorem takeClassA_law (p : ClassALevels) (s : State) (h : FilterOK s) : FilterOK (takeClassA p s) := by
  obtain ⟨hs, hc⟩ := h
  refine ⟨fun k => ?_, lineLaw_sample _ _ hc.1, hc.2⟩
  obtain ⟨h1, hr⟩ := (strandLinesLaw_iff _).mp (hs k)
  unfold takeClassA setLines emitAll
  rw [look_ofFn]
  exact (strandLinesLaw_iff _).mpr ⟨lineLaw_sample _ _ h1, hr⟩

theorem takeClassB_law (p : ClassBLevels) (s : State) (h : FilterOK s) : FilterOK (takeClassB p s) := by
  obtain ⟨hs, hc, hc1, hc2, hc3, hc4⟩ := h
  refine ⟨fun k => ?_, hc, lineLaw_sample _ _ hc1, lineLaw_sample _ _ hc2, lineLaw_sample _ _ hc3, lineLaw_sample _ _ hc4⟩
  obtain ⟨h0, h1, h2, h3, h4⟩ := (strandLinesLaw_iff _).mp (hs k)
  unfold takeClassB setLines emitAll
  rw [look_ofFn]
  exact (strandLinesLaw_iff _).mpr
    ⟨h0, lineLaw_sample _ _ h1, lineLaw_sample _ _ h2, lineLaw_sample _ _ h3, lineLaw_sample _ _ h4⟩

theorem changePeriodA_law (n : Nat) (s : State) (h : FilterOK s) : FilterOK (changePeriodA n s) := by
  obtain ⟨hs, hc⟩ := h
  refine ⟨fun k => ?_, lineLaw_clearRun _, hc.2⟩
  obtain ⟨-, hr⟩ := (strandLinesLaw_iff _).mp (hs k)
  unfold changePeriodA
  rw [look_map]
  exact (strandLinesLaw_iff _).mpr ⟨lineLaw_clearRun _, hr⟩

theorem changePeriodB_law (n : Nat) (s : State) (h : FilterOK s) : FilterOK (changePeriodB n s) := by
  obtain ⟨hs, hc⟩ := h
  refine ⟨fun k => ?_, hc.1, lineLaw_clearRun _, lineLaw_clearRun _, lineLaw_clearRun _, lineLaw_clearRun _⟩
  obtain ⟨h0, -⟩ := (strandLinesLaw_iff _).mp (hs k)
  unfold changePeriodB
  rw [look_map]
  exact (strandLinesLaw_iff _).mpr
    ⟨h0, lineLaw_clearRun _, lineLaw_clearRun _, lineLaw_clearRun _, lineLaw_clearRun _⟩

theorem applyPeriods_law (a b : CasterSettings) (s : State) (h : FilterOK s) : FilterOK (applyPeriods a b s) := by
  have hA : FilterOK (if b.periodA = a.periodA then s else changePeriodA b.periodA s) := by
    split
    · exact h
    · exact changePeriodA_law _ _ h
  have hB : ∀ t, FilterOK t → FilterOK (if b.periodB = a.periodB then t else changePeriodB b.periodB t) := fun t ht => by
    split
    · exact ht
    · exact changePeriodB_law _ _ ht
  unfold applyPeriods
  dsimp only
  split
  · exact hB _ hA
  · exact hB _ hA

theorem restart_law (s : State) : FilterOK (restart s) := by
  refine ⟨fun k => ?_, lineLaw_initial, lineLaw_initial, lineLaw_initial, lineLaw_initial, lineLaw_initial⟩
  unfold restart State.started
  rw [look_all]
  decide

/-! ### Every command -/

/-- `P` does not hang on the link and the queues, and every request, event and millisecond keeps it. -/
structure CommandsKeep (P : State → Prop) : Prop where
  link : ∀ s l f p r, P s → P { s with replies := l, sending := f, noticePending := p, receiver := r }
  queues : ∀ s l m n, P s → P { s with pending := l, inFlight := m, choices := n }
  handler : ∀ f, IsHandler f → ∀ s, P s → P (f s).1
  event : ∀ i s, P s → P (effect i s)
  tick : ∀ s, P s → P (tick s)

section
variable {P : State → Prop} (C : CommandsKeep P)
include C

theorem CommandsKeep.noticeChoice (s : State) (h : P s) : P (noticeChoice s) := by
  have e : Machine.noticeChoice s = { s with
      replies := (Machine.noticeChoice s).replies, sending := (Machine.noticeChoice s).sending
      noticePending := (Machine.noticeChoice s).noticePending, receiver := s.receiver } := noticeChoice_sameButNotices s
  rw [e]
  exact C.link s _ _ _ _ h

theorem CommandsKeep.handleRequest (tag kind : Byte) (f : Handler) (hf : IsHandler f) (s : State) (h : P s) :
    P (handleRequest tag kind f s) := by
  unfold Machine.handleRequest
  split
  · exact h
  · exact C.noticeChoice _ (C.link (f s).1 _ (f s).1.sending (f s).1.noticePending (f s).1.receiver (C.handler f hf s h))

theorem CommandsKeep.exec (i : Instr) (s t : State) (h : P s) (he : exec i s = .next t) : P t := by
  rcases command_cases i with ⟨f, hf⟩ | ⟨b, rfl⟩ | hi
  · obtain ⟨g, hg, hx⟩ := exec_request hf
    cases (hx s).symm.trans he
    exact C.handleRequest _ _ g (.inl ⟨i, hg⟩) s h
  · cases he
    have hr : ∀ r, P { s with receiver := r } := fun r => C.link s s.replies s.sending s.noticePending r h
    obtain ⟨r, e⟩ | ⟨tag, kind, g, hg, e⟩ := receiveByte_cases b s
    · rw [e]; exact hr r
    · rw [e]; exact C.handleRequest tag kind g hg _ (hr _)
  · cases (exec_event hi s).symm.trans he
    exact C.noticeChoice _ (C.event i s h)

theorem CommandsKeep.step (s t : State) (h : P s) (hs : step s = .next t) : P t :=
  step_keeps C.exec C.queues C.tick s t h hs

end

theorem applyPeriods_supply (a b : CasterSettings) (s : State) : (applyPeriods a b s).supply = s.supply := by
  unfold applyPeriods
  dsimp only
  split <;> split <;> split <;> rfl

theorem applyCaster_supply (c : CasterSettings) (s : State) : (applyCaster c s).supply = s.supply :=
  applyPeriods_supply _ _ _

/-- A request leaves the Supply Monitor as it is. -/
theorem handler_supply {f : Handler} (hf : IsHandler f) (s : State) : (f s).1.supply = s.supply := by
  obtain ⟨i, hi⟩ | ⟨c, rfl⟩ := hf
  · cases hw : writesSources i with
    | false => exact (handler_apart hw hi s).2.2.2.1
    | true =>
      cases i <;> cases hw <;> cases hi
      · exact checked_keeps (P := fun t => t.supply = s.supply) _ _ s rfl fun _ => applyCaster_supply _ s
      · exact checked_keeps (P := fun t => t.supply = s.supply) _ _ s rfl fun _ => rfl
  · rfl

/-- A request keeps the lines' law. -/
theorem handler_filter {f : Handler} (hf : IsHandler f) (s : State) (h : FilterOK s) : FilterOK (f s).1 := by
  obtain ⟨i, hi⟩ | ⟨c, rfl⟩ := hf
  · cases hw : writesSources i with
    | false => exact h.of_apart (handler_apart hw hi s)
    | true =>
      cases i <;> cases hw <;> cases hi
      · exact checked_keeps _ _ s h fun _ => applyPeriods_law _ _ _ h
      · exact checked_keeps _ _ s h fun _ => h
  · exact h

/-- An event keeps the Supply Monitor's law. -/
theorem effect_supply (i : Instr) (s : State) (h : supplyLawOf s.supply = true) : supplyLawOf (effect i s).supply = true := by
  by_cases hi : isPlantSide i = false
  · rw [(effect_apart hi s).2.2.2.1]; exact h
  · cases i with
    | reset => exact (by decide : supplyLawOf SupplyMonitor.initial = true)
    | transmissionEnd => exact h
    | filterSample x => cases x <;> exact h
    | supplyOkFirstLevel b n => exact takeFirstSupply_law b n s h
    | supplyOkFall n => exact takeSupplyFall_law n s h
    | supplyOkRise n => exact takeSupplyRise_law n s h
    | rideThroughExpiry => exact rideExpiry_law s h
    | settleExpiry => exact settleEnd_law s h
    | _ => exact absurd rfl hi

/-- An event keeps the lines' law. -/
theorem effect_filter (i : Instr) (s : State) (h : FilterOK s) : FilterOK (effect i s) := by
  have same : ∀ t, Outside s t → FilterOK t := fun t a => by
    obtain ⟨⟨-, -, -, h1, h2, -⟩, -⟩ := a
    unfold FilterOK
    rw [h1, h2]
    exact h
  by_cases hi : isPlantSide i = false
  · exact h.of_apart (effect_apart hi s)
  · cases i with
    | reset => exact restart_law s
    | transmissionEnd => exact h
    | filterSample x =>
      cases x with
      | classA p => exact takeClassA_law p s h
      | classB p => exact takeClassB_law p s h
    | supplyOkFirstLevel b n => exact same _ (takeFirstSupply_outside b n s)
    | supplyOkFall n => exact same _ (takeSupplyFall_outside n s)
    | supplyOkRise n => exact same _ (takeSupplyRise_outside n s)
    | rideThroughExpiry => exact same _ (rideExpiry_outside s)
    | settleExpiry => exact same _ (settleEnd_outside s)
    | _ => exact absurd rfl hi

theorem supplyLaw_commands : CommandsKeep fun s => supplyLawOf s.supply = true where
  link := fun _ _ _ _ _ h => h
  queues := fun _ _ _ _ h => h
  handler := fun _ hf s h => by rw [handler_supply hf s]; exact h
  event := effect_supply
  tick := fun s h => by rw [tick_supply, supplyLawOf_tick]; exact h

theorem filterLaw_commands : CommandsKeep FilterOK where
  link := fun _ _ _ _ _ h => h
  queues := fun _ _ _ _ h => h
  handler := fun _ hf s h => handler_filter hf s h
  event := effect_filter
  tick := fun _ h => h

/-- Settles O56: the Supply Monitor's fields change in its own events alone, whose next states are read off one by one; a line
changes by a sample, which keeps its run within 3, or loses its run. -/
theorem stepKeepsSupplyAndFilterLaws : Obligations.StepKeepsSupplyAndFilterLaws := fun s t hs =>
  ⟨fun h => supplyLaw_commands.step s t h hs,
    fun h => (filterLaw_iff t).mpr (filterLaw_commands.step s t ((filterLaw_iff s).mp h) hs)⟩

end Sys2Proof.Machine
end
section
/-! PROOFS. The link: what the choice at a command's end leaves (R178), the frames that a command leaves on their way to the host
(R186), and the link's law. -/

namespace Sys2Proof.Machine

/-! ### The best source -/

/-- The search for the best source ends with none exactly where no source of the list is eligible. -/
theorem foldl_betterSource_none (s : State) : ∀ (l : List (Fin 29)) (o : Option (Fin 29)),
    l.foldl (betterSource s) o = none ↔ o = none ∧ ∀ n ∈ l, eligible s n = false
  | [], o => by simp
  | n :: l, o => by
    rw [List.foldl_cons, foldl_betterSource_none s l, List.forall_mem_cons, ← and_assoc]
    refine and_congr_left fun _ => ?_
    unfold betterSource
    cases eligible s n with
    | false => simp
    | true => cases o with
      | none => simp
      | some b => simp; split <;> simp

theorem bestSource_none_iff (s : State) : bestSource s = none ↔ ∀ n, eligible s n = false := by
  simp [bestSource, foldl_betterSource_none]

/-! ### The link's law -/

theorem linkLaw_iff (s : State) : linkLaw s = true ↔
    s.replies.length ≤ 4 ∧ (s.sending = none → s.replies = [] ∧ ∀ n, eligible s n = false) := by
  simp only [linkLaw, Bool.and_eq_true, decide_eq_true_eq]
  cases s.sending with
  | none => simp
  | some f => simp

/-- After the choice a free transmitter has nothing to send (R178). -/
theorem linkLaw_noticeChoice (s : State) (h : s.replies.length ≤ 4) : linkLaw (noticeChoice s) = true := by
  rw [linkLaw_iff]
  cases hs : s.sending with
  | some f => rw [noticeChoice_busy s f hs]; exact ⟨h, fun e => absurd (hs.symm.trans e) nofun⟩
  | none =>
    cases hr : s.replies with
    | cons f l =>
      rw [noticeChoice_reply s f l hs hr]
      rw [hr, List.length_cons] at h
      exact ⟨Nat.le_trans (Nat.le_succ _) h, nofun⟩
    | nil =>
      cases hb : bestSource s with
      | some n => rw [noticeChoice_notice s n hs hr hb]; exact ⟨h, nofun⟩
      | none => rw [noticeChoice_idle s hs hr hb]; exact ⟨h, fun _ => ⟨hr, (bestSource_none_iff s).mp hb⟩⟩

/-! ### The replies after a command -/

theorem applyPeriods_link (a b : CasterSettings) (s : State) : (applyPeriods a b s).replies = s.replies ∧
    (applyPeriods a b s).sending = s.sending := by
  unfold applyPeriods
  dsimp only
  split <;> split <;> split <;> exact ⟨rfl, rfl⟩

/-- A request's handler leaves the link's sending side alone. -/
theorem handler_link {f : Handler} (hf : IsHandler f) (s : State) :
    (f s).1.replies = s.replies ∧ (f s).1.sending = s.sending := by
  obtain ⟨i, hi⟩ | ⟨c, rfl⟩ := hf
  · cases hw : writesSources i with
    | false =>
      obtain ⟨-, h1, h2, -⟩ := handler_apart hw hi s
      exact ⟨h1, h2⟩
    | true =>
      cases i <;> cases hw <;> cases hi
      · exact checked_keeps (P := fun t => t.replies = s.replies ∧ t.sending = s.sending) _ _ s ⟨rfl, rfl⟩ fun _ =>
          applyPeriods_link _ _ _
      · exact checked_keeps (P := fun t => t.replies = s.replies ∧ t.sending = s.sending) _ _ s ⟨rfl, rfl⟩ fun _ => ⟨rfl, rfl⟩
  · exact ⟨rfl, rfl⟩

/-- What an event leaves of the waiting commands, the link's sending side and the notice levels. -/
theorem effect_link {i : Instr} (hr : i ≠ .reset) (ht : i ≠ .transmissionEnd) (s : State) :
    (effect i s).pending = s.pending ∧ (effect i s).replies = s.replies ∧ (effect i s).sending = s.sending ∧
      (effect i s).working.noticeLevels = s.working.noticeLevels := by
  have outside : ∀ t, Outside s t → t.pending = s.pending ∧ t.replies = s.replies ∧ t.sending = s.sending ∧
      t.working.noticeLevels = s.working.noticeLevels :=
    fun t ⟨⟨h1, _⟩, h2, h3, h4⟩ => ⟨h1, h3, h4, by rw [h2]⟩
  by_cases hi : isPlantSide i = false
  · obtain ⟨h1, h2, h3, -, -, -, h4⟩ := effect_apart hi s
    exact ⟨h1, h2, h3, h4⟩
  · cases i with
    | reset => exact absurd rfl hr
    | transmissionEnd => exact absurd rfl ht
    | filterSample x =>
      cases x with
      | classA p => unfold effect takeClassA setLines emitAll; exact ⟨rfl, rfl, rfl, rfl⟩
      | classB p => unfold effect takeClassB setLines emitAll; exact ⟨rfl, rfl, rfl, rfl⟩
    | supplyOkFirstLevel b n => exact outside _ (takeFirstSupply_outside b n s)
    | supplyOkFall n => exact outside _ (takeSupplyFall_outside n s)
    | supplyOkRise n => exact outside _ (takeSupplyRise_outside n s)
    | rideThroughExpiry => exact outside _ (rideExpiry_outside s)
    | settleExpiry => exact outside _ (settleEnd_outside s)
    | _ => exact absurd rfl hi

theorem effect_replies (i : Instr) (s : State) (h : s.replies.length ≤ 4) : (effect i s).replies.length ≤ 4 := by
  by_cases hr : i = .reset
  · subst hr; exact Nat.zero_le _
  · by_cases ht : i = .transmissionEnd
    · subst ht; exact h
    · rw [(effect_link hr ht s).2.1]; exact h

/-- A request leaves the link's law, by its choice or by being discarded. -/
theorem linkLaw_handleRequest (tag kind : Byte) {f : Handler} (hf : IsHandler f) (s : State) (h : linkLaw s = true) :
    linkLaw (handleRequest tag kind f s) = true := by
  unfold handleRequest
  split
  · exact h
  · next hq =>
    refine linkLaw_noticeChoice _ ?_
    dsimp only
    rw [(handler_link hf s).1, List.length_append]
    exact Nat.lt_of_not_le hq

theorem linkLaw_exec (i : Instr) (s t : State) (h : linkLaw s = true) (he : exec i s = .next t) : linkLaw t = true := by
  rcases command_cases i with ⟨f, hf⟩ | ⟨b, rfl⟩ | hi
  · obtain ⟨g, hg, hx⟩ := exec_request hf
    cases (hx s).symm.trans he
    exact linkLaw_handleRequest _ _ (.inl ⟨i, hg⟩) s h
  · cases he
    obtain ⟨r, e⟩ | ⟨tag, kind, g, hg, e⟩ := receiveByte_cases b s
    · rw [e]; exact h
    · rw [e]; exact linkLaw_handleRequest tag kind hg { s with receiver := .hunting } h
  · cases (exec_event hi s).symm.trans he
    exact linkLaw_noticeChoice _ (effect_replies i s ((linkLaw_iff s).mp h).1)

/-- Settles O51: every command ends with the choice, which leaves a free transmitter nothing to send, and a reply joins a queue of
fewer than four alone. -/
theorem stepKeepsLinkLaw : Obligations.StepKeepsLinkLaw := fun s t h hs =>
  step_keeps linkLaw_exec (fun _ _ _ _ h => h) (fun _ h => h) s t h hs

end Sys2Proof.Machine
end
section
/-! PROOFS. The pools' law: each pool is open exactly in its owner's states (R87, R126, R141). -/

namespace Sys2Proof.Machine

/-! ### The open flags and the Coordinator's state through an operation at one strand -/

/-- The pools' open flags are `a` and `b`, and the Coordinator's state is `c`, or STEADY reached from RELEASING (R135). -/
def OpenAs (a b : Bool) (c : CoordinatorState) (s : State) : Prop :=
  s.pour.isOpen = a ∧ s.drive.isOpen = b ∧
    (s.coordinator.state = c ∨ (c = .releasing ∧ s.coordinator.state = .steady))

section
variable {a b : Bool} {c : CoordinatorState} {s t : State}

theorem OpenAs.of (hp : t.pour.isOpen = s.pour.isOpen) (hd : t.drive.isOpen = s.drive.isOpen)
    (hc : t.coordinator.state = s.coordinator.state) (h : OpenAs a b c s) : OpenAs a b c t := by
  unfold OpenAs
  rw [hp, hd, hc]
  exact h

theorem OpenAs.of_carried (k : Carried s t) (h : OpenAs a b c s) : OpenAs a b c t := by
  obtain ⟨-, -, -, -, -, hc, -, -, hp, hd⟩ := k
  exact h.of hp hd (by rw [hc])

theorem OpenAs.of_pools (hp : t.pour = s.pour) (hd : t.drive = s.drive) (hc : t.coordinator = s.coordinator)
    (h : OpenAs a b c s) : OpenAs a b c t := h.of (by rw [hp]) (by rw [hd]) (by rw [hc])

theorem OpenAs.mod {k : Strand} {f : StrandContext → StrandContext} (h : OpenAs a b c s) : OpenAs a b c (modStrand k f s) :=
  h.of_pools (by simp) (by simp) (by simp)

/-- A change of a pool that keeps its open flag. -/
theorem OpenAs.pool {p : PoolId} {f : Pool → Pool} (h : OpenAs a b c s)
    (hf : (f (s.pool p)).isOpen = (s.pool p).isOpen) : OpenAs a b c (modPool p f s) := by
  cases p
  · exact OpenAs.of (s := s) (t := modPool .pour f s) hf rfl rfl h
  · exact OpenAs.of (s := s) (t := modPool .drive f s) rfl hf rfl h

theorem settled_state (k : Strand) (x : Coordinator) :
    (x.settled k).state = x.state ∨ (x.state = .releasing ∧ (x.settled k).state = .steady) := by
  unfold Coordinator.settled
  split
  · next hr =>
    dsimp only
    split
    · exact .inr ⟨hr.1, rfl⟩
    · exact .inl hr.1.symm
  · exact .inl rfl

theorem OpenAs.reported {k : Strand} (h : OpenAs a b c s) : OpenAs a b c (reportSettled k s) := by
  obtain ⟨hp, hd, hc⟩ := h
  obtain ⟨ep, ed⟩ := reportSettled_pools k s
  refine ⟨by rw [ep]; exact hp, by rw [ed]; exact hd, ?_⟩
  rw [reportSettled_coordinator]
  rcases settled_state k s.coordinator with e | ⟨e1, e2⟩
  · rw [e]; exact hc
  · rcases hc with hc | ⟨hr, hs⟩
    · exact .inr ⟨hc ▸ e1, e2⟩
    · exact absurd (e1.symm.trans hs) nofun

end

/-- An operation at one strand opens and closes no pool, and moves the Coordinator from RELEASING to STEADY alone. -/
theorem openAs_kept (a b : Bool) (c : CoordinatorState) : StrandKept fun _ => OpenAs a b c where
  weaken := fun _ _ h => h
  updates := fun _ =>
    { same := fun s t ⟨_, _, hp, hd, hc, _⟩ h => h.of_pools hp hd hc
      pend := fun src s h => h.of_carried (pend_carried src s)
      record := fun k f s _ h => h.of_carried (modRecord_carried k f s)
      modGrant := fun p k f s h => h.of_carried (modGrant_carried p k f s)
      unit := fun k f s _ _ h => h.of_carried (updUnit_carried k f s) }
  drain := fun _ l s h => h.of_carried (drain_carried l s)
  release := fun _ p k l s _ h => h.of_carried ((dropGrant_carried p k s).trans (drain_carried l _))
  dropEntry := fun _ p k s h => h.of_carried (dropEntry_carried p k s)
  excluded := fun p m s h => h.pool rfl
  cleared := fun p s h => h.pool rfl
  small := fun k f s _ _ h => h.mod
  fault := fun k _ _ s _ h => h.of_pools (by simp) (by simp) (by simp)
  faultAtRest := fun k _ _ s _ _ h => h.of_pools (by simp) (by simp) (by simp)
  noFault := fun k s h => h
  setFlag := fun k f s _ h => h.mod
  clearFlag := fun k f s _ _ _ h => h.mod
  clearLast := fun k f s _ h => h.mod
  breakout := fun k _ s _ h => h.mod
  settle := fun k f s _ _ _ _ h => h.mod.reported
  hold := fun k f s _ _ _ h => h.mod
  cast := fun k s _ _ h => h.mod.reported
  restartDry := fun k r n s _ _ _ h => h.mod
  restartHeld := fun k f r n s _ _ _ h => h.mod.mod
  tick := fun s h => h
  caster := fun _ s _ h => h
  strandSettings := fun k p l s _ h => h
  plan := fun n p s _ h => h
  banks := fun _ s h => h
  window := fun n w s _ h => h
  pour := fun p s _ _ h => h
  drive := fun p s _ _ h => h
  noticeLevels := fun l s _ h => h

/-- What a claim at every configured strand leaves of the flags and the Coordinator's state. -/
theorem openAs_forConfigured (f : Strand → State → State)
    (hf : ∀ {Q : Option Strand → State → Prop}, StrandKept Q → ∀ k s, s.isConfigured k = true → Q none s → Q none (f k s))
    (s : State) : OpenAs s.pour.isOpen s.drive.isOpen s.coordinator.state (forConfigured f s) :=
  forConfigured_keeps_configured f (hf (openAs_kept _ _ _)) s ⟨rfl, rfl, .inl rfl⟩

/-! ### The law of the open flags -/

/-- Whether POUR is open in a state of the Coordinator (R87, R126). -/
def pourOpenIn (c : CoordinatorState) : Bool := c == .steady || c == .releasing

/-- Each pool is open exactly in its owner's states (R87, R126, R141). -/
def OpenOK (s : State) : Prop :=
  s.pour.isOpen = pourOpenIn s.coordinator.state ∧ s.drive.isOpen = (s.supply.state == .supplied)

theorem poolLaw_iff (s : State) : poolLaw s = true ↔ OpenOK s ∧ WithinCapacity s := by
  simp only [poolLaw, Bool.and_eq_true, beq_iff_eq, decide_eq_true_eq, OpenOK, pourOpenIn, WithinCapacity, and_assoc]
  exact and_congr_right fun _ => and_congr_right fun _ =>
    ⟨fun ⟨h1, h2⟩ p => by cases p <;> assumption, fun h => ⟨h .pour, h .drive⟩⟩

/-- The flags and the Coordinator's state are those of an operation at one strand, the Supply Monitor the same. -/
theorem OpenOK.of_openAs {s t : State} (h : OpenOK s) (ho : OpenAs s.pour.isOpen s.drive.isOpen s.coordinator.state t)
    (hs : t.supply.state = s.supply.state) : OpenOK t := by
  obtain ⟨h1, h2⟩ := h
  obtain ⟨o1, o2, o3⟩ := ho
  refine ⟨?_, by rw [o2, h2, hs]⟩
  rw [o1, h1]
  rcases o3 with e | ⟨e, e'⟩
  · rw [e]
  · rw [e, e']; rfl

/-! ### The caster-wide operations -/

/-- What opening a pool leaves. -/
theorem openPool_fields (p : PoolId) (s : State) :
    ((openPool p s).pool p).isOpen = true ∧ (∀ q, q ≠ p → ((openPool p s).pool q).isOpen = (s.pool q).isOpen) ∧
      (openPool p s).coordinator = s.coordinator := by
  unfold openPool
  split
  · next h => exact ⟨h, fun _ _ => rfl, rfl⟩
  · obtain ⟨-, -, -, -, -, hc, -, -, hp, hd⟩ := drain_carried [.grantChoice p] (modPool p (fun x => { x with isOpen := true }) s)
    have ho : ∀ q, ((drain [.grantChoice p] (modPool p (fun x => { x with isOpen := true }) s)).pool q).isOpen =
        ((modPool p (fun x => { x with isOpen := true }) s).pool q).isOpen := fun q => by cases q <;> assumption
    exact ⟨by rw [ho]; simp, fun q hq => by rw [ho]; simp [hq], by rw [hc]; simp⟩

theorem openOK_pend (src : Source) {s : State} (h : OpenOK s) : OpenOK (pend src s) := by
  unfold OpenOK
  rw [pend_pour, pend_drive, pend_coordinator, pend_supply]
  exact h

/-- The closing of POUR keeps DRIVE's open flag and the Coordinator. -/
theorem closePour_open (s : State) : (closePool .pour s).pour.isOpen = false ∧
    (closePool .pour s).drive.isOpen = s.drive.isOpen ∧ (closePool .pour s).coordinator = s.coordinator := ⟨rfl, rfl, rfl⟩

theorem openOK_enterHolding (s : State) (h : OpenOK s) : OpenOK (enterHolding s) := by
  obtain ⟨-, o2, o3⟩ := openAs_forConfigured (holdStrand .tundish) (fun K k t _ => K.holdStrand .tundish k t)
    (modCoordinator (fun c => { c with state := .holding, lowWeight := false }) s)
  have hs := (forConfigured_apart _ (holdStrand_at .tundish)
    (modCoordinator (fun c => { c with state := .holding, lowWeight := false }) s)).2.2.2.1
  unfold enterHolding
  dsimp only
  generalize forConfigured (holdStrand .tundish)
    (modCoordinator (fun c => { c with state := .holding, lowWeight := false }) s) = u at o2 o3 hs ⊢
  obtain ⟨c1, c2, c3⟩ := closePour_open u
  have hc : u.coordinator.state = .holding := o3.resolve_right fun e => nomatch e.1
  refine openOK_pend _ ⟨by rw [c1, c3, hc]; rfl, ?_⟩
  rw [c2, o2, closePool, modPool_supply, hs]
  exact h.2

theorem openOK_enterFilling (s : State) (hs : s.coordinator.state = .holding) (h : OpenOK s) : OpenOK (enterFilling s) := by
  obtain ⟨h1, h2⟩ := h
  rw [hs] at h1
  unfold OpenOK enterFilling
  rw [pend_pour, pend_drive, pend_coordinator, pend_supply]
  exact ⟨h1, h2⟩

/-- POUR opened in a state in which it is to be open. -/
theorem openOK_openPour {s : State} (hc : pourOpenIn s.coordinator.state = true)
    (hd : s.drive.isOpen = (s.supply.state == .supplied)) : OpenOK (openPool .pour s) := by
  obtain ⟨h1, h2, h3⟩ := openPool_fields .pour s
  refine ⟨by rw [h3, hc]; exact h1, ?_⟩
  rw [(openPool_apart _ _).2.2.2.1]
  exact (h2 .drive nofun).trans hd

/-- A return to STEADY from a state in which POUR is open. -/
theorem openOK_steady {f : Coordinator → Coordinator} {s : State} (hf : pourOpenIn (f s.coordinator).state = true)
    (hp : pourOpenIn s.coordinator.state = true) (h : OpenOK s) : OpenOK (modCoordinator f s) :=
  ⟨h.1.trans (hp.trans hf.symm), h.2⟩

theorem openOK_endEntry (s : State) (hp : pourOpenIn s.coordinator.state = true) (h : OpenOK s) : OpenOK (endEntry s) := by
  unfold endEntry
  dsimp only
  split
  · exact openOK_pend _ (openOK_steady (f := fun c => { c with state := .steady }) rfl hp (openOK_steady hp hp h))
  · exact openOK_steady hp hp h

theorem openOK_enterReleasing (s : State) (h : OpenOK s) : OpenOK (enterReleasing s) := by
  obtain ⟨-, o2, o3⟩ := openAs_forConfigured releaseTundish (fun K k t hk => K.releaseTundish k t hk)
    (modCoordinator (fun c =>
      { c with state := .releasing, releaseSet := Vector.ofFn (heldForTundish s), entering := true }) s)
  have hp : pourOpenIn (forConfigured releaseTundish (modCoordinator (fun c =>
      { c with state := .releasing, releaseSet := Vector.ofFn (heldForTundish s), entering := true }) s)).coordinator.state
      = true := by
    rcases o3 with e | ⟨-, e⟩ <;> rw [e] <;> rfl
  unfold enterReleasing
  dsimp only
  refine openOK_endEntry _ (by rw [pend_coordinator, (openPool_fields _ _).2.2]; exact hp)
    (openOK_pend _ (openOK_openPour hp ?_))
  rw [o2, (forConfigured_apart _ releaseTundish_at _).2.2.2.1]
  exact h.2

theorem openOK_abandonChange (s : State) (h : OpenOK s) : OpenOK (abandonChange s) := by
  obtain ⟨-, o2, -⟩ := openAs_forConfigured abortForTundish
    (fun K k t hk ht => by
      unfold abortForTundish
      split
      · exact K.faultHalted k _ _ _ t (live_of_configured hk) ht
      · exact ht)
    (modCoordinator (fun c => { c with entering := true }) s)
  rw [abandonChange_eq]
  refine openOK_pend _ (openOK_openPour rfl ?_)
  rw [modCoordinator_drive, modCoordinator_supply, o2, (forConfigured_apart _ abortForTundish_at _).2.2.2.1]
  exact h.2

theorem openOK_takeWeight (w : Nat) (s : State) (h : OpenOK s) : OpenOK (takeWeight w s) := by
  unfold takeWeight judgeWeight
  dsimp only
  split
  · split
    · exact h
    · exact openOK_pend _ h
  · split
    · exact openOK_enterReleasing _ h
    · exact h
  all_goals exact h

theorem openOK_tripReturn (s : State) (h : s.drive.isOpen = (s.supply.state == .supplied)) : OpenOK (tripReturn s) := by
  unfold tripReturn
  dsimp only
  refine openOK_openPour ?_ ?_
  · split
    · next e => rw [e]; rfl
    · rw [pend_coordinator]; rfl
  · split
    · exact h
    · rw [pend_drive, pend_supply]; exact h

/-- The clearing of both pools keeps DRIVE's open flag and the Supply Monitor. -/
theorem clearPools_open (s : State) : (clearPool .drive (clearPool .pour s)).drive.isOpen = s.drive.isOpen ∧
    (clearPool .drive (clearPool .pour s)).supply = s.supply := ⟨rfl, rfl⟩

theorem openOK_latch (s : State) (h : OpenOK s) : OpenOK (latch s) := by
  obtain ⟨-, o2, -⟩ := openAs_forConfigured tripStrand (fun K k t _ => K.tripStrand k t)
    (modTrip (fun t => { t with latched := true }) s)
  obtain ⟨-, p2, -⟩ := openAs_forConfigured forceOutputs (fun K k t hk => K.forceOutputs k t hk)
    (forConfigured tripStrand (modTrip (fun t => { t with latched := true }) s))
  have a := (forConfigured_apart _ tripStrand_at (modTrip (fun t => { t with latched := true }) s)).trans
    (forConfigured_apart _ forceOutputs_at _)
  refine openOK_pend _ (openOK_tripReturn _ ?_)
  rw [(clearPools_open _).1, (clearPools_open _).2, p2, o2, a.2.2.2.1]
  exact h.2

theorem openOK_takeTrip (b : Bool) (s : State) (h : OpenOK s) : OpenOK (takeTrip b s) := by
  have hu : OpenOK (if s.trip.line ≠ b ∧ s.trip.latched = true then pend .trip (modTrip (fun x => { x with line := b }) s)
      else modTrip (fun x => { x with line := b }) s) := by
    split
    · exact openOK_pend _ h
    · exact h
  unfold takeTrip
  dsimp only
  split
  · exact openOK_latch _ hu
  · exact hu

theorem openOK_arm (s : State) (h : OpenOK s) : OpenOK (arm s) := by
  have ht : OpenOK (pend .trip (modTrip (fun x => { x with armed := true }) s)) := openOK_pend _ h
  unfold arm
  split
  · exact h
  · dsimp only
    split
    · exact openOK_latch _ ht
    · exact ht

/-! ### The Supply Monitor's operations -/

theorem releaseDip_openAs (c : SuppliedFrom) (s : State) :
    OpenAs s.pour.isOpen s.drive.isOpen s.coordinator.state (releaseDip c s) := by
  unfold releaseDip
  split
  · exact openAs_forConfigured _ (fun K k t hk => K.releaseFlag .dip k t (live_of_configured hk)) s
  all_goals exact ⟨rfl, rfl, .inl rfl⟩

theorem OpenAs.trans {s t u : State} (a : OpenAs s.pour.isOpen s.drive.isOpen s.coordinator.state t)
    (b : OpenAs t.pour.isOpen t.drive.isOpen t.coordinator.state u) :
    OpenAs s.pour.isOpen s.drive.isOpen s.coordinator.state u := by
  obtain ⟨a1, a2, a3⟩ := a
  obtain ⟨b1, b2, b3⟩ := b
  refine ⟨b1.trans a1, b2.trans a2, ?_⟩
  rcases b3 with e | ⟨e, e'⟩
  · rw [e]; exact a3
  · rcases a3 with f | ⟨-, f⟩
    · exact .inr ⟨f ▸ e, e'⟩
    · exact absurd (e.symm.trans f) nofun

/-- The entry into SUPPLIED opens DRIVE, and leaves POUR to the Coordinator (R149). -/
theorem openOK_enterSupplied (c : SuppliedFrom) (s : State) (h : s.pour.isOpen = pourOpenIn s.coordinator.state) :
    OpenOK (enterSupplied c s) := by
  have o : OpenAs s.pour.isOpen s.drive.isOpen s.coordinator.state
      (releaseDip c (forConfigured reexamine (modSupply (SupplyMonitor.supplied c) s))) :=
    .trans (s := modSupply (SupplyMonitor.supplied c) s)
      (openAs_forConfigured reexamine (fun K k t _ => K.reexamine k t) _) (releaseDip_openAs c _)
  obtain ⟨h1, h2, h3⟩ := openPool_fields .drive (releaseDip c (forConfigured reexamine (modSupply (SupplyMonitor.supplied c) s)))
  constructor
  · unfold enterSupplied
    rw [pend_pour, pend_coordinator, h3]
    refine (h2 .pour nofun).trans (o.1.trans (h.trans ?_))
    rcases o.2.2 with e | ⟨e, e'⟩
    · rw [e]
    · rw [e, e']; rfl
  · rw [enterSupplied_supply, enterSupplied, pend_drive]
    exact h1

theorem openOK_takeFirstSupply (b : Bool) (n : Stamp) (s : State) (h : OpenOK s) : OpenOK (takeFirstSupply b n s) := by
  unfold takeFirstSupply
  split
  · exact h
  · split
    · exact openOK_enterSupplied _ _ h.1
    · exact openOK_pend _ h

theorem openOK_takeSupplyFall (n : Stamp) (s : State) (h : OpenOK s) : OpenOK (takeSupplyFall n s) := by
  obtain ⟨h1, h2⟩ := h
  unfold takeSupplyFall
  split
  · exact openOK_pend _ ⟨h1, rfl⟩
  · next e =>
    rw [e] at h2
    exact openOK_pend _ ⟨h1, h2⟩
  all_goals exact ⟨h1, h2⟩

theorem openOK_takeSupplyRise (n : Stamp) (s : State) (h : OpenOK s) : OpenOK (takeSupplyRise n s) := by
  obtain ⟨h1, h2⟩ := h
  unfold takeSupplyRise
  split
  · exact ⟨h1, h2⟩
  · exact openOK_enterSupplied _ _ h1
  · next e =>
    rw [e] at h2
    have hs : OpenOK (enterSettling n s) := openOK_pend _ ⟨h1, h2⟩
    split
    · exact openOK_enterSupplied _ _ hs.1
    · exact hs
  all_goals exact ⟨h1, h2⟩

theorem openOK_rideExpiry (s : State) (h : OpenOK s) : OpenOK (rideExpiry s) := by
  obtain ⟨h1, h2⟩ := h
  unfold rideExpiry
  split
  · next e =>
    rw [e] at h2
    exact openOK_pend _ (OpenOK.of_openAs (s := modSupply (fun m => { m with state := .down, rideTimer := none }) s)
      ⟨h1, h2⟩ (openAs_forConfigured _ (fun K k t _ => K.holdStrand .dip k t) _)
      (by rw [(forConfigured_apart _ (holdStrand_at .dip) _).2.2.2.1]))
  all_goals exact ⟨h1, h2⟩

theorem openOK_settleEnd (s : State) (h : OpenOK s) : OpenOK (settleEnd s) := by
  unfold settleEnd
  split
  · exact openOK_enterSupplied _ _ h.1
  all_goals exact h

/-! ### Every command -/

theorem openOK_event (i : Instr) (s : State) (h : OpenOK s) : OpenOK (effect i s) := by
  by_cases hi : isCasterWide i = false
  · by_cases hp : isPlantSide i = false
    · exact h.of_openAs ((openAs_kept _ _ _).effect i hi s ⟨rfl, rfl, .inl rfl⟩) (by rw [(effect_apart hp s).2.2.2.1])
    · cases i with
      | transmissionEnd => exact h
      | filterSample x => cases x <;> exact h
      | reset | supplyOkFirstLevel | supplyOkFall | supplyOkRise | rideThroughExpiry | settleExpiry => cases hi
      | _ => exact absurd rfl hp
  · cases i with
    | reset => exact ⟨rfl, rfl⟩
    | supplyOkFirstLevel b n => exact openOK_takeFirstSupply b n s h
    | supplyOkFall n => exact openOK_takeSupplyFall n s h
    | supplyOkRise n => exact openOK_takeSupplyRise n s h
    | tcRequestRise => exact iteInduction (fun _ => openOK_enterHolding s h) fun _ => h
    | tundishInPlaceRise => exact iteInduction (fun e => openOK_enterFilling s e h) fun _ => h
    | weightSample x =>
      cases x with
      | valid w => exact openOK_takeWeight w s h
      | invalid => exact h
    | tripSample b => exact openOK_takeTrip b { s with port := { s.port with trip := b } } h
    | rideThroughExpiry => exact openOK_rideExpiry s h
    | settleExpiry => exact openOK_settleEnd s h
    | tundishChange | tundishInPlace | tundishAbort | tripArm => exact h
    | _ => exact absurd rfl hi

theorem openOK_handler (f : Handler) (hf : IsHandler f) (s : State) (h : OpenOK s) : OpenOK (f s).1 := by
  have hs := handler_supply hf s
  obtain ⟨i, hi⟩ | ⟨c, rfl⟩ := hf
  · by_cases hc : isCasterWide i = false
    · exact h.of_openAs ((openAs_kept _ _ _).handler hc f hi s ⟨rfl, rfl, .inl rfl⟩) (by rw [hs])
    · cases i with
      | tundishChange =>
        cases hi
        exact checked_keeps _ _ s h fun _ => openOK_enterHolding s h
      | tundishInPlace =>
        cases hi
        exact checked_keeps _ _ s h fun hc => openOK_enterFilling s (by simpa using hc) h
      | tundishAbort =>
        cases hi
        exact checked_keeps _ _ s h fun _ => openOK_abandonChange s h
      | tripArm =>
        cases hi
        exact openOK_arm s h
      | reset | supplyOkFirstLevel | supplyOkFall | supplyOkRise | tcRequestRise | tundishInPlaceRise | weightSample
      | tripSample | rideThroughExpiry | settleExpiry => cases hi
      | _ => exact absurd rfl hc
  · exact h

theorem openOK_commands : CommandsKeep OpenOK where
  link := fun _ _ _ _ _ h => h
  queues := fun _ _ _ _ h => h
  handler := openOK_handler
  event := openOK_event
  tick := fun _ h => h

/-- Settles O53: the holders by the law of the pools' updates, and the open flags by the operations of the two owners, beside
which an operation at one strand moves the Coordinator from RELEASING to STEADY alone. -/
theorem stepKeepsPoolLaw : Obligations.StepKeepsPoolLaw := fun s t h hs => by
  obtain ⟨ho, hw⟩ := (poolLaw_iff s).mp h
  exact (poolLaw_iff t).mpr ⟨openOK_commands.step s t ho hs, withinCapacity_poolLaw.kept.step s t hw hs⟩

end Sys2Proof.Machine
end
section
/-! PROOFS. How a command's end is read: the state it reaches is that of its effect but for the frames on their way to the host
and the pending flags, and a notice owed before the choice is owed after it. -/

namespace Sys2Proof.Machine

/-! ### The command's end -/

/-- `t` is `u` after a command's end: a reply may have joined the queue, and the choice is made. -/
def Sent (u t : State) : Prop := SameButNotices u t ∧ ∀ src, Noticed u src → Noticed t src

theorem noticeChoice_sent (u : State) : Sent u (noticeChoice u) :=
  ⟨noticeChoice_sameButNotices u, fun _ => noticed_choice⟩

/-- A reply that joins the queue leaves what is owed. -/
theorem replied_sent (u : State) (l : List Frame) : Sent u (noticeChoice { u with replies := l }) :=
  ⟨noticeChoice_sameButNotices { u with replies := l }, fun _ h => noticed_choice (t := { u with replies := l }) h⟩

/-- An accepted request is answered with OK, and its effect reaches the command's end. -/
theorem request_acts (tag kind : Byte) {h : Handler} (hh : IsHandler h) (f : State → State) (s : State) (hq : s.queueFree)
    (he : h s = accept f s) :
    ∃ t, request tag kind h s = .next t ∧ Answered s t tag kind [0x00] ∧ SameButReply (f s) t ∧ Sent (f s) t := by
  obtain ⟨hr, hs⟩ := handler_link hh s
  rw [he] at hr hs
  obtain ⟨ha, hb⟩ := handleRequest_accepted tag kind h f s hq he hr hs
  refine ⟨_, rfl, ha, hb, ?_⟩
  have hq' : ¬ Config.replyPlaces ≤ s.replies.length := Nat.not_le_of_lt hq
  unfold handleRequest
  rw [if_neg hq', he]
  exact replied_sent (f s) _

/-- A request that is taken and changes nothing. -/
theorem request_keeps (tag kind : Byte) {h : Handler} (hh : IsHandler h) (f : State → State) (s : State) (hq : s.queueFree)
    (he : h s = accept f s) (hf : f s = s) :
    ∃ t, request tag kind h s = .next t ∧ Answered s t tag kind [0x00] ∧ SameButReply s t := by
  obtain ⟨t, h1, h2, h3, -⟩ := request_acts tag kind hh f s hq he
  exact ⟨t, h1, h2, hf ▸ h3⟩

/-- An event's effect reaches the command's end. -/
theorem event_acts {i : Instr} (hi : isEvent i) (s : State) : ∃ t, exec i s = .next t ∧ Sent (effect i s) t :=
  ⟨_, exec_event hi s, noticeChoice_sent _⟩

/-- An event that finds nothing to act on is discarded (R57). -/
theorem event_discarded {i : Instr} (hi : isEvent i) (s : State) (h : effect i s = s) :
    exec i s = .next (noticeChoice s) := by rw [exec_event hi, h]

/-! ### What a command's end leaves -/

section
variable {s u t : State} {k j : Strand}

/-- What does not hang on the link holds after the command's end as before it. -/
theorem SameButNotices.elim {P : State → Prop} (h : SameButNotices u t)
    (hp : ∀ a b c, P { u with sending := a, replies := b, noticePending := c }) : P t := by
  rw [h]
  exact hp _ _ _

theorem SameButReply.notices (h : SameButReply u t) : SameButNotices u t := by
  unfold SameButNotices
  rw [h]

theorem SameButNotices.strand (h : SameButNotices u t) (k : Strand) : t.strand k = u.strand k :=
  h.elim (P := fun t => t.strand k = u.strand k) fun _ _ _ => rfl

theorem SameButNotices.unit (h : SameButNotices u t) (k : Strand) : t.unit k = u.unit k :=
  h.elim (P := fun t => t.unit k = u.unit k) fun _ _ _ => rfl

theorem SameButNotices.record (h : SameButNotices u t) (k : Strand) : t.record? k = u.record? k :=
  h.elim (P := fun t => t.record? k = u.record? k) fun _ _ _ => rfl

theorem SameButNotices.phase (h : SameButNotices u t) (k : Strand) : t.phase k = u.phase k :=
  h.elim (P := fun t => t.phase k = u.phase k) fun _ _ _ => rfl

theorem SameButNotices.strands (h : SameButNotices u t) : t.strands = u.strands :=
  h.elim (P := fun t => t.strands = u.strands) fun _ _ _ => rfl

theorem SameButNotices.units (h : SameButNotices u t) : t.units = u.units :=
  h.elim (P := fun t => t.units = u.units) fun _ _ _ => rfl

theorem SameButNotices.pour (h : SameButNotices u t) : t.pour = u.pour :=
  h.elim (P := fun t => t.pour = u.pour) fun _ _ _ => rfl

theorem SameButNotices.drive (h : SameButNotices u t) : t.drive = u.drive :=
  h.elim (P := fun t => t.drive = u.drive) fun _ _ _ => rfl

theorem SameButNotices.faults (h : SameButNotices u t) : t.faults = u.faults :=
  h.elim (P := fun t => t.faults = u.faults) fun _ _ _ => rfl

theorem SameButNotices.coordinator (h : SameButNotices u t) : t.coordinator = u.coordinator :=
  h.elim (P := fun t => t.coordinator = u.coordinator) fun _ _ _ => rfl

theorem SameButNotices.supply (h : SameButNotices u t) : t.supply = u.supply :=
  h.elim (P := fun t => t.supply = u.supply) fun _ _ _ => rfl

theorem SameButNotices.trip (h : SameButNotices u t) : t.trip = u.trip :=
  h.elim (P := fun t => t.trip = u.trip) fun _ _ _ => rfl

theorem SameButNotices.working (h : SameButNotices u t) : t.working = u.working :=
  h.elim (P := fun t => t.working = u.working) fun _ _ _ => rfl

theorem SameButNotices.inFlight (h : SameButNotices u t) : t.inFlight = u.inFlight :=
  h.elim (P := fun t => t.inFlight = u.inFlight) fun _ _ _ => rfl

theorem SameButNotices.port (h : SameButNotices u t) : t.port = u.port :=
  h.elim (P := fun t => t.port = u.port) fun _ _ _ => rfl

theorem SameButNotices.lastGranted (h : SameButNotices u t) : t.lastGranted = u.lastGranted :=
  h.elim (P := fun t => t.lastGranted = u.lastGranted) fun _ _ _ => rfl

theorem SameButNotices.outputs (h : SameButNotices u t) (k : Strand) : t.outputs k = u.outputs k :=
  h.elim (P := fun t => t.outputs k = u.outputs k) fun _ _ _ => rfl

theorem SameButNotices.sameOutside (h : SameButNotices u t) (a : SameOutside s u) : SameOutside s t :=
  h.elim (P := SameOutside s) fun _ _ _ => a

theorem SameButNotices.sameSettings (h : SameButNotices u t) (a : SameSettings s u) : SameSettings s t :=
  h.elim (P := SameSettings s) fun _ _ _ => a

theorem SameButNotices.sameStrand (h : SameButNotices u t) (a : SameStrand s u j) : SameStrand s t j :=
  h.elim (P := fun t => SameStrand s t j) fun _ _ _ => a

theorem SameButNotices.otherStrands (h : SameButNotices u t) (a : OtherStrands s u k) : OtherStrands s t k :=
  h.elim (P := fun t => OtherStrands s t k) fun _ _ _ => a

theorem SameButNotices.localTo (h : SameButNotices u t) (a : LocalTo s u k) : LocalTo s t k :=
  h.elim (P := fun t => LocalTo s t k) fun _ _ _ => a

theorem SameButNotices.atRest {z : Zones} (h : SameButNotices u t) (a : AtRest u k z) : AtRest t k z :=
  h.elim (P := fun t => AtRest t k z) fun _ _ _ => a

theorem SameButNotices.withdrawn (h : SameButNotices u t) (a : Withdrawn u k) : Withdrawn t k :=
  h.elim (P := fun t => Withdrawn t k) fun _ _ _ => a

theorem SameButNotices.advanced (h : SameButNotices u t) (a : Advanced s u k) : Advanced s t k :=
  h.elim (P := fun t => Advanced s t k) fun _ _ _ => a

theorem SameButNotices.failed {f : StepFailure} (h : SameButNotices u t) (a : Failed s u k f) : Failed s t k f :=
  h.elim (P := fun t => Failed s t k f) fun _ _ _ => a

theorem SameButNotices.trans (a : SameButNotices s u) (b : SameButNotices u t) : SameButNotices s t := by
  unfold SameButNotices at *
  rw [b, a]

theorem Sent.stopped {c : Condition} {z : Zones} (h : Sent u t) (a : Stopped u k c z) : Stopped t k c z := by
  obtain ⟨h1, h2, h3, h4, h5, h6⟩ := a
  refine ⟨?_, ?_, ?_, h.1.atRest h4, h.1.withdrawn h5, h.2 _ h6⟩ <;> rw [h.1.strand]
  · exact h1
  · exact h2
  · exact h3

theorem Sent.ends {c : HaltCause} (h : Sent u t) (a : Ends s u k c) : Ends s t k c := by
  unfold Ends at *
  split at a
  · rw [if_pos ‹_›, h.1.strand]
    exact ⟨h.stopped a.1, a.2⟩
  · rw [if_neg ‹_›, h.1.strand]
    exact ⟨h.stopped a.1, a.2⟩

end

/-! ### An effect that asks for one notice -/

/-- An event whose effect is a change and its notice. -/
theorem event_pends {i : Instr} (hi : isEvent i) {src : Source} {s u : State} (hs : src.mayPend u = true)
    (he : effect i s = pend src u) : ∃ t, exec i s = .next t ∧ Noticed t src ∧ SameButNotices u t := by
  obtain ⟨t, reached, same, noticed⟩ := event_acts hi s
  rw [he] at same noticed
  exact ⟨t, reached, noticed src (.inl (pend_look src u hs)), (pend_sameButNotices src u).trans same⟩

/-- A request whose effect is a change and its notice. -/
theorem request_pends (tag kind : Byte) {h : Handler} (hh : IsHandler h) (f : State → State) {src : Source} {s u : State}
    (hq : s.queueFree) (he : h s = accept f s) (hs : src.mayPend u = true) (hf : f s = pend src u) :
    ∃ t, request tag kind h s = .next t ∧ Answered s t tag kind [0x00] ∧ Noticed t src ∧ SameButNotices u t := by
  obtain ⟨t, reached, answered, -, same, noticed⟩ := request_acts tag kind hh f s hq he
  rw [hf] at same noticed
  exact ⟨t, reached, answered, noticed src (.inl (pend_look src u hs)), (pend_sameButNotices src u).trans same⟩

end Sys2Proof.Machine
end
section
/-! PROOFS. The choice among the replies and the pending notice sources (R178, R179), and what an event leaves on its way to the
host (R186). -/

namespace Sys2Proof.Machine

/-! ### The best source -/

/-- Source `n` is taken before source `m`, or is that source (R178). -/
def TakenBefore (s : State) (n m : Fin 29) : Prop :=
  s.working.noticeLevels.look m < s.working.noticeLevels.look n ∨
    (s.working.noticeLevels.look m = s.working.noticeLevels.look n ∧ n ≤ m)

theorem TakenBefore.refl (s : State) (n : Fin 29) : TakenBefore s n n := .inr ⟨rfl, Nat.le_refl _⟩

theorem TakenBefore.trans {s : State} {a b c : Fin 29} (h : TakenBefore s a b) (h' : TakenBefore s b c) :
    TakenBefore s a c := by
  unfold TakenBefore at *
  rcases h with h | ⟨h, hn⟩ <;> rcases h' with h' | ⟨h', hn'⟩
  · exact .inl (Nat.lt_trans h' h)
  · exact .inl (h' ▸ h)
  · exact .inl (h ▸ h')
  · exact .inr ⟨h'.trans h, Fin.le_trans hn hn'⟩

/-- The better of two is the source that is taken before the other. -/
theorem betterSource_some {s : State} {o : Option (Fin 29)} {x : Fin 29} (he : eligible s x = true)
    (hb : ∀ b, o = some b → b < x) :
    ∃ n, betterSource s o x = some n ∧ (n = x ∨ o = some n) ∧ TakenBefore s n x ∧ ∀ b, o = some b → TakenBefore s n b := by
  unfold betterSource
  rw [if_pos he]
  cases o with
  | none => exact ⟨x, rfl, .inl rfl, .refl s x, nofun⟩
  | some b =>
    dsimp only
    split
    · next hl => exact ⟨x, rfl, .inl rfl, .refl s x, fun c hc => by cases hc; exact .inl hl⟩
    · next hl =>
      refine ⟨b, rfl, .inr rfl, ?_, fun c hc => by cases hc; exact .refl s b⟩
      rcases Nat.lt_or_eq_of_le (Nat.le_of_not_lt hl) with h | h
      · exact .inl h
      · exact .inr ⟨h, Nat.le_of_lt (hb b rfl)⟩

/-- The search in the order of the numbers ends with the source that is taken before every other. -/
theorem foldl_betterSource_some (s : State) : ∀ (l : List (Fin 29)) (o : Option (Fin 29)) (n : Fin 29), l.Pairwise (· < ·) →
    (∀ b, o = some b → eligible s b = true ∧ ∀ m ∈ l, b < m) → l.foldl (betterSource s) o = some n →
    eligible s n = true ∧ ∀ m, o = some m ∨ m ∈ l → eligible s m = true → TakenBefore s n m
  | [], o, n, _, ho, h => ⟨(ho n h).1, fun m hm _ => by
      rcases hm with hm | hm
      · cases h.symm.trans hm; exact .refl s n
      · cases hm⟩
  | x :: l, o, n, hl, ho, h => by
    obtain ⟨hx, hl⟩ := List.pairwise_cons.mp hl
    rw [List.foldl_cons] at h
    cases he : eligible s x with
    | false =>
      have hs : betterSource s o x = o := by simp [betterSource, he]
      rw [hs] at h
      obtain ⟨hn, hm⟩ := foldl_betterSource_some s l o n hl
        (fun b hb => ⟨(ho b hb).1, fun m hm => (ho b hb).2 m (List.mem_cons_of_mem _ hm)⟩) h
      refine ⟨hn, fun m hml hme => hm m (hml.imp_right fun h => ?_) hme⟩
      rcases List.mem_cons.mp h with rfl | h
      · exact absurd (he.symm.trans hme) nofun
      · exact h
    | true =>
      obtain ⟨c, hc, hco, hcx, hcb⟩ := betterSource_some he (o := o) fun b hb => (ho b hb).2 x List.mem_cons_self
      have hce : eligible s c = true ∧ ∀ m ∈ l, c < m := by
        rcases hco with rfl | hco
        · exact ⟨he, hx⟩
        · exact ⟨(ho c hco).1, fun m hm => (ho c hco).2 m (List.mem_cons_of_mem _ hm)⟩
      rw [hc] at h
      obtain ⟨hn, hm⟩ := foldl_betterSource_some s l (some c) n hl (fun b hb => by cases hb; exact hce) h
      have hnc : TakenBefore s n c := hm c (.inl rfl) hce.1
      refine ⟨hn, fun m hml hme => ?_⟩
      rcases hml with hml | hml
      · exact hnc.trans (hcb m hml)
      · rcases List.mem_cons.mp hml with rfl | hml
        · exact hnc.trans hcx
        · exact hm m (.inr hml) hme

/-- The source that the choice takes is owed a notice, and is taken before every other that is (R178). -/
theorem bestSource_some {s : State} {n : Fin 29} (h : bestSource s = some n) :
    eligible s n = true ∧ ∀ m, eligible s m = true → TakenBefore s n m := by
  obtain ⟨hn, hm⟩ := foldl_betterSource_some s _ none n (List.pairwise_lt_finRange 29) nofun h
  exact ⟨hn, fun m => hm m (.inr (List.mem_finRange m))⟩

theorem eligible_iff (s : State) (n : Fin 29) :
    eligible s n = true ↔ s.noticePending.look n = true ∧ s.working.noticeLevels.look n ≠ 0 := by simp [eligible]

/-- Settles O41: the choice's branches are the transmitter, the reply queue and the search for the best source, whose result is
taken before every other source that is owed. -/
theorem choiceTakesBestSource : Obligations.ChoiceTakesBestSource := by
  intro f n m s
  have best : ∀ {x}, bestSource s = some x → eligible s x = true ∧ ∀ y, eligible s y = true → TakenBefore s x y :=
    bestSource_some
  simp only [eligible_iff] at best
  refine ⟨rfl, fun hs => ?_, fun hr => ?_, fun hr hn => ?_, fun hr hb => ?_, fun hr hb => ?_⟩
  · obtain ⟨g, hg⟩ := Option.ne_none_iff_exists'.mp hs
    exact noticeChoice_busy s g hg
  · exact noticeChoice_reply { s with sending := none } f s.replies.tail rfl hr
  · by_cases hb : bestSource s = some n
    · exact .inl fun hm => (best hb).2 m hm
    · exact .inr hb
  · exact ⟨(best hb).1, fun hm => (best hb).2 m hm, noticeChoice_notice { s with sending := none } n rfl hr hb⟩
  · refine ⟨fun hn => ?_, noticeChoice_idle { s with sending := none } rfl hr hb⟩
    exact absurd ((bestSource_none_iff s).mp hb n) (by rw [(eligible_iff s n).mpr hn]; nofun)

/-! ### What is on its way to the host -/

/-- The choice sends what is there, or, where nothing is, one notice at most (R178). -/
theorem noticeChoice_outgoing (u : State) : (noticeChoice u).outgoing = u.outgoing ∨
    (u.outgoing = [] ∧ ∃ n, (noticeChoice u).outgoing = [noticeFrame (noticeChoice u) n]) := by
  cases hs : u.sending with
  | some f => rw [noticeChoice_busy u f hs]; exact .inl rfl
  | none =>
    cases hr : u.replies with
    | cons f l => rw [noticeChoice_reply u f l hs hr]; exact .inl (by simp [State.outgoing, hs, hr])
    | nil =>
      cases hb : bestSource u with
      | some n =>
        rw [noticeChoice_notice u n hs hr hb]
        exact .inr ⟨by simp [State.outgoing, hs, hr], n, by simp [State.outgoing, hr, noticeFrame_of_choice u n]⟩
      | none => rw [noticeChoice_idle u hs hr hb]; exact .inl rfl

/-- Settles O42: an event's effect leaves the link's sending side alone, and the choice at its end adds one notice at most. -/
theorem eventsSendNoReply : Obligations.EventsSendNoReply := by
  intro i s hf hb hr ht
  obtain ⟨h1, h2, h3, h4⟩ := effect_link hr ht s
  refine ⟨_, exec_event ⟨hf, hb⟩ s, by rw [noticeChoice_pending, h1], by rw [noticeChoice_working, h4], ?_⟩
  have ho : (effect i s).outgoing = s.outgoing := by rw [State.outgoing, State.outgoing, h2, h3]
  rw [← ho]
  exact noticeChoice_outgoing _

end Sys2Proof.Machine
end
section
/-! PROOFS. Start-up, the settings image and STORE (R4, R198, R199). -/

namespace Sys2Proof.Machine

/-- Settles O1: it is the step's first case. -/
theorem stepRunsFrontCommand : Obligations.StepRunsFrontCommand := fun _ _ _ => rfl

theorem started_strand (w : Settings) (d : Bool) (i : Image) (p : PortInputs) (k : Strand) :
    (State.started w d i p).strand k = StrandContext.initial (k.val < w.caster.strandCount) := look_ofFn _ k

theorem started_unit (w : Settings) (d : Bool) (i : Image) (p : PortInputs) (k : Strand) :
    (State.started w d i p).unit k = UnitState.initial := look_all _ _

/-- Settles O3: each field is the one that start-up writes, the tables entry by entry. -/
theorem resetLeavesRunTimeState : Obligations.ResetLeavesRunTimeState := by
  intro w d i p k n
  have hu := started_unit w d i p k
  dsimp only
  refine ⟨?_, ?_, hu, rfl, rfl, ?_, ?_, rfl, rfl, look_all _ _, look_all _ _, rfl, rfl, look_all _ _, rfl, rfl, rfl, rfl, look_all _ _,
    rfl, look_all _ _, look_all _ _, rfl, rfl, rfl, rfl, rfl, rfl⟩
  · rw [started_strand]
    by_cases h : k.val < w.caster.strandCount
    · rw [if_pos h, decide_eq_true h]; rfl
    · rw [if_neg h, decide_eq_false h]; rfl
  · simp only [State.outputs, hu]; rfl
  · exact congrArg Option.isSome (look_all k _)
  · exact congrArg Option.isSome (look_all k _)

/-- Settles O5: the reset state is one closed state; its settings are the defaults that a bad image gives. -/
theorem lawsHoldAtReset : Obligations.LawsHoldAtReset := by
  have settings : settingsLaw State.reset = true := (settingsLaw_iff _).mpr
    ⟨loadImage_inRange (.holds Config.defaultSettings false), fun k => by
      rw [show State.reset.strand k = _ from started_strand _ _ _ _ k]
      cases decide (k.val < Config.defaultSettings.caster.strandCount) <;> rfl⟩
  refine ⟨?_, ?_, ?_, ?_, ?_, ?_, ?_, settings, ?_, ?_, ?_, ?_, ?_⟩ <;> decide

/-! ### RESET and the image -/

/-- Nothing is owed right after start-up, so the choice finds nothing to send. -/
theorem noticeChoice_restart (s : State) : noticeChoice (restart s) = restart s := by
  refine noticeChoice_idle _ rfl rfl ((bestSource_none_iff _).mpr fun n => ?_)
  have h : (restart s).noticePending.look n = false := look_all n false
  rw [eligible, h, Bool.false_and]

/-- A write that a reset cuts off leaves a bad image, or one that cannot be read (R199). -/
theorem loadImage_unfinished (i : Image) : loadImage (unfinishedImage i) = (Config.defaultSettings, true) := by
  cases i <;> rfl

theorem imageAtReset_writing {s : State} {c : Settings} (h : s.storeState = .writing c) :
    imageAtReset s = unfinishedImage s.image := by simp [imageAtReset, h]

theorem imageAtReset_quiet {s : State} (h : s.storeState = .idle ∨ s.storeState = .failed) : imageAtReset s = s.image := by
  rcases h with h | h <;> simp [imageAtReset, h]

/-! ### STORE -/

theorem handleStore_writing {s : State} {c : Settings} (h : s.storeState = .writing c) :
    handleStore s = refuse .busy s := by simp [handleStore, h]

theorem handleStore_quiet {s : State} (h : s.storeState = .idle ∨ s.storeState = .failed) :
    handleStore s = accept (fun s => { s with storeState := .writing s.working }) s := by
  rcases h with h | h <;> simp [handleStore, h]

/-- What the end of a write leaves, before the notice it owes. -/
def written (image : Image) (capture : Settings) (s : State) : State :=
  { s with
    image := image
    storeState := if image = .holds capture true then .idle else .failed
    defaulted := if image = .holds capture true then false else s.defaulted }

theorem endWrite_writing {s : State} {c : Settings} (h : s.storeState = .writing c) (i : Image) :
    endWrite i s = pend .store (written i c s) := by
  by_cases hi : i = .holds c true
  · simp [endWrite, h, imageAgrees, written, hi]
  · simp [endWrite, h, imageAgrees, written, hi]

theorem endWrite_quiet {s : State} (h : s.storeState = .idle ∨ s.storeState = .failed) (i : Image) : endWrite i s = s := by
  rcases h with h | h <;> simp [endWrite, h]

/-- Settles O4: a good image is one whose settings lie in range and whose CRC was written; STORE and the end of its write turn
on the store state alone. -/
theorem storeAndResetKeepTheImage : Obligations.StoreAndResetKeepTheImage := by
  intro w capture tag image s
  refine ⟨⟨?_, fun hw => ?_, fun hw => ?_, rfl, fun hs => ?_, imageAtReset_quiet⟩,
    fun hq hs => ?_, fun hq hs => ?_, fun hs => ?_, fun hs => ?_⟩
  · exact congrArg Host.Outcome.next (noticeChoice_restart s)
  · exact if_pos hw
  · exact if_neg (by rw [hw]; nofun)
  · rw [imageAtReset_writing hs, loadImage_unfinished]
  · exact request_refuses tag 0x04 _ .busy s hq (handleStore_writing hs)
  · obtain ⟨t, reached, answered, same, -⟩ :=
      request_acts tag 0x04 (.of_command (.store tag) rfl) _ s hq (handleStore_quiet hs)
    exact ⟨t, reached, answered, same⟩
  · obtain ⟨t, reached, same, noticed⟩ := event_acts (i := .storeWriteEnd image) ⟨rfl, nofun⟩ s
    refine ⟨t, reached, ?_⟩
    have effect : Machine.effect (.storeWriteEnd image) s = pend .store (written image capture s) := endWrite_writing hs image
    rw [effect] at same noticed
    exact ⟨noticed _ (.inl (pend_look .store _ rfl)), (pend_sameButNotices .store _).trans same⟩
  · exact event_discarded (i := .storeWriteEnd image) ⟨rfl, nofun⟩ s (endWrite_quiet hs image)

end Sys2Proof.Machine
end
section
/-! PROOFS. The events of the Tundish Coordinator and of the Supply Monitor that move their own fields alone (R130 to R132, R136,
R143, R144, R147, R148). -/

namespace Sys2Proof.Machine

/-! ### The Coordinator -/

/-- What TUNDISH IN PLACE leaves in HOLDING, before its notice (R130). -/
def inPlace (s : State) : State := { s with coordinator := { s.coordinator with state := .filling } }

theorem enterFilling_eq (s : State) : enterFilling s = pend .tundish (inPlace s) := rfl

theorem handleTundishInPlace_holding (s : State) (h : s.coordinator.state = .holding) :
    handleTundishInPlace s = accept enterFilling s := checked_passes _ _ _ (by rw [h]; rfl)

theorem handleTundishInPlace_other (s : State) (h : s.coordinator.state ≠ .holding) :
    handleTundishInPlace s = refuse .wrongState s := checked_fails _ _ _ _ (by rw [bne_iff_ne.mpr h]; rfl)

/-- What a valid weight sets in every state (R132). -/
def weighed (w : Nat) (s : State) : State := { s with coordinator := { s.coordinator with lastWeight := some w } }

/-- A weight in STEADY (R136). -/
theorem takeWeight_steady (w : Nat) (s : State) (h : s.coordinator.state = .steady) :
    takeWeight w s = judgeWeight w (weighed w s) := by simp [takeWeight, h]; rfl

/-- A weight where it does no more than be noted (R132). -/
theorem takeWeight_noted (w : Nat) (s : State) (h : s.coordinator.state = .holding ∨ s.coordinator.state = .releasing ∨
    (s.coordinator.state = .filling ∧ w < s.working.caster.openThreshold)) : takeWeight w s = weighed w s := by
  rcases h with h | h | ⟨h, hw⟩
  · simp [takeWeight, h]; rfl
  · simp [takeWeight, h]; rfl
  · have : ¬ s.working.caster.openThreshold ≤ w := Nat.not_le_of_lt hw
    simp [takeWeight, h, this]; rfl

/-- Settles O33: TUNDISH IN PLACE and a weight turn on the Coordinator's state. -/
theorem tundishInPlaceAndWeights : Obligations.TundishInPlaceAndWeights := by
  intro tag w s
  refine ⟨⟨fun hq hs => ?_, fun hq hs => ?_, fun hs => ?_, fun hs => ?_⟩, rfl, fun hs => ?_, fun hs => ?_⟩
  · exact request_pends tag 0x1B (.of_command (.tundishInPlace tag) rfl) _ hq (handleTundishInPlace_holding s hs) rfl
      (enterFilling_eq s)
  · exact request_refuses tag 0x1B _ .wrongState s hq (handleTundishInPlace_other s hs)
  · exact event_pends (i := .tundishInPlaceRise) ⟨rfl, nofun⟩ rfl (if_pos hs)
  · exact event_discarded (i := .tundishInPlaceRise) ⟨rfl, nofun⟩ s (if_neg hs)
  · have taken : effect (.weightSample (.valid w)) s = judgeWeight w (weighed w s) := takeWeight_steady w s hs
    by_cases hl : s.coordinator.lowWeight = decide (w < s.working.caster.lowThreshold)
    · obtain ⟨t, reached, same⟩ := event_acts (i := .weightSample (.valid w)) ⟨rfl, nofun⟩ s
      refine ⟨t, reached, ?_, fun h => absurd hl h⟩
      have effect : judgeWeight w (weighed w s) = weighed w s := if_pos hl
      rw [taken, effect] at same
      rw [← hl]
      exact same.1
    · obtain ⟨t, reached, noticed, same⟩ := event_pends (i := .weightSample (.valid w)) (src := .tundish) ⟨rfl, nofun⟩ rfl
        (taken.trans (if_neg hl))
      exact ⟨t, reached, same, fun _ => noticed⟩
  · rw [exec_event (i := .weightSample (.valid w)) ⟨rfl, nofun⟩]
    exact congrArg (fun t => Host.Outcome.next (noticeChoice t)) (takeWeight_noted w s hs)

/-! ### The Supply Monitor -/

theorem takeSupplyFall_supplied (stamp : Stamp) (s : State) (h : s.supply.state = .supplied) : takeSupplyFall stamp s =
    pend .power { s with
      supply := { s.supply with
        state := .riding, outageStart := some stamp, rideTimer := some s.working.caster.rideThrough }
      drive := { s.drive with isOpen := false } } := by simp [takeSupplyFall, h]; rfl

theorem takeSupplyFall_settling (stamp : Stamp) (s : State) (h : s.supply.state = .settling) : takeSupplyFall stamp s =
    pend .power { s with supply := { s.supply with state := .down, settleTimer := none, settleStart := none } } := by
  simp [takeSupplyFall, h]; rfl

theorem takeSupplyFall_ignored (stamp : Stamp) (s : State) (h : s.supply.state = .riding ∨ s.supply.state = .down) :
    takeSupplyFall stamp s = s := by rcases h with h | h <;> simp [takeSupplyFall, h]

theorem takeSupplyRise_settling (stamp : Stamp) (s : State) (hd : s.supply.state = .down) (hc : s.supply.check = .done)
    (hs : s.working.caster.settle ≠ 0) : takeSupplyRise stamp s = enterSettling stamp s := by
  simp [takeSupplyRise, hd, hc, hs]

theorem takeSupplyRise_ignored (stamp : Stamp) (s : State) (h : s.supply.state = .supplied ∨ s.supply.state = .settling) :
    takeSupplyRise stamp s = s := by
  unfold takeSupplyRise
  rcases h with h | h <;> cases hc : s.supply.check <;> simp [h]

theorem takeFirstSupply_false (stamp : Stamp) (s : State) (h : s.supply.check = .pending) : takeFirstSupply false stamp s =
    pend .power { s with supply := { s.supply with check := .done, outageStart := some stamp } } := by
  simp [takeFirstSupply, h]; rfl

theorem takeFirstSupply_done (b : Bool) (stamp : Stamp) (s : State) (h : s.supply.check = .done) :
    takeFirstSupply b stamp s = s := by simp [takeFirstSupply, h]

theorem settleEnd_ignored (s : State) (h : s.supply.state ≠ .settling) : settleEnd s = s := by
  unfold settleEnd
  split
  · next e => exact absurd e h
  all_goals rfl

/-- Settles O38: each edge turns on the Monitor's state, a first level on its start-up check. -/
theorem supplyEdgesMoveTheMonitor : Obligations.SupplyEdgesMoveTheMonitor := by
  intro stamp s
  refine ⟨fun h => ?_, fun h => ?_, fun h => ?_, fun hd hc hs => ?_, fun h => ?_, fun h => ?_, fun b h => ?_, fun h => ?_⟩
  · exact event_pends (i := .supplyOkFall stamp) ⟨rfl, nofun⟩ rfl (takeSupplyFall_supplied stamp s h)
  · exact event_pends (i := .supplyOkFall stamp) ⟨rfl, nofun⟩ rfl (takeSupplyFall_settling stamp s h)
  · exact event_discarded (i := .supplyOkFall stamp) ⟨rfl, nofun⟩ s (takeSupplyFall_ignored stamp s h)
  · exact event_pends (i := .supplyOkRise stamp) (src := .power) ⟨rfl, nofun⟩ rfl (takeSupplyRise_settling stamp s hd hc hs)
  · exact event_discarded (i := .supplyOkRise stamp) ⟨rfl, nofun⟩ s (takeSupplyRise_ignored stamp s h)
  · exact event_pends (i := .supplyOkFirstLevel false stamp) ⟨rfl, nofun⟩ rfl (takeFirstSupply_false stamp s h)
  · exact event_discarded (i := .supplyOkFirstLevel b stamp) ⟨rfl, nofun⟩ s (takeFirstSupply_done b stamp s h)
  · exact event_discarded (i := .settleExpiry) ⟨rfl, nofun⟩ s (settleEnd_ignored s h)

end Sys2Proof.Machine
end
section
/-! PROOFS. How a request is answered: the checks of the requests that name a strand (R187), and the reply that every request
leaves (R186). -/

namespace Sys2Proof.Machine

/-! ### The named strand -/

/-- A request that names a strand checks its number, and, but for the reads and SERVICE, that it is in service. -/
theorem handlerOf_named {i : Instr} {b : Byte} {reads : Bool} (hn : namedStrand? i = some (b, reads)) :
    ∃ h, handlerOf i = some (if reads then namingStrand b h else namingInService b h) := by
  cases i <;> cases hn <;> exact ⟨_, rfl⟩

theorem namingInService_zero (h : Strand → Handler) (s : State) : namingInService 0 h s = refuse .badField s :=
  namingStrand_zero _ s

/-- Settles O9: the number's checks come first in the handler of every request that names a strand. -/
theorem strandNumbersAreChecked : Obligations.StrandNumbersAreChecked := by
  intro i f b reads k s hf hn hq
  obtain ⟨h, hh, he⟩ := exec_request hf
  obtain ⟨g, hg⟩ := handlerOf_named hn
  obtain rfl := Option.some.inj (hh.symm.trans hg)
  rw [he s]
  refine ⟨fun hb => ?_, fun h0 hb => ?_, fun hb hk hr ho => ?_⟩ 
  · subst hb
    refine request_refuses _ _ _ .badField s hq ?_
    cases reads
    · exact namingInService_zero g s
    · exact namingStrand_zero g s
  · refine request_refuses _ _ _ .notFitted s hq ?_
    cases reads
    · exact namingInService_above b g s h0 hb
    · exact namingStrand_above b g s h0 hb
  · subst hb hr
    exact request_refuses _ _ _ .wrongState s hq (namingInService_offline k g s hk ho)

/-! ### The reply -/

/-- What a request comes to: it is done and its reply begins with OK, it is refused with a code alone, or its plan is (R186). -/
inductive Judged (s : State) : State × List Byte → Prop where
  | done (t : State) (l : List Byte) : Judged s (t, 0x00 :: l)
  | refused (c : ReplyCode) (hc : c ≠ .badPlan) : Judged s (s, [c.byte])
  | plan (e : Nat × PlanFault) : Judged s (s, badPlan e)

/-- Whether a check's code is one that a reply carries alone. -/
def plainCodes (l : List (Bool × ReplyCode)) : Bool := l.all (·.2 != .badPlan)

theorem plainCodes_firstFailure {c : ReplyCode} : ∀ {l : List (Bool × ReplyCode)}, plainCodes l = true →
    firstFailure l = some c → c ≠ .badPlan
  | (true, d) :: l, h, e => by
    cases e
    simp only [plainCodes, List.all_cons, Bool.and_eq_true, bne_iff_ne] at h
    exact h.1
  | (false, d) :: l, h, e => by
    simp only [plainCodes, List.all_cons, Bool.and_eq_true] at h
    exact plainCodes_firstFailure h.2 e

theorem Judged.checked {checks : State → List (Bool × ReplyCode)} {h : Handler} {s : State}
    (hc : plainCodes (checks s) = true) (hh : Judged s (h s)) : Judged s (Machine.checked checks h s) := by
  unfold Machine.checked
  split
  · next c e => exact .refused c (plainCodes_firstFailure hc e)
  · exact hh

theorem Judged.namingStrand {h : Strand → Handler} {s : State} (b : Byte) (hh : ∀ k, Judged s (h k s)) :
    Judged s (Machine.namingStrand b h s) := by
  unfold Machine.namingStrand
  split
  · exact .refused .badField nofun
  · split
    · exact .refused .notFitted nofun
    · split
      · exact hh _
      · exact .refused .notFitted nofun

theorem Judged.namingInService {h : Strand → Handler} {s : State} (b : Byte) (hh : ∀ k, Judged s (h k s)) :
    Judged s (Machine.namingInService b h s) := .namingStrand b fun k => .checked rfl (hh k)

theorem Judged.accept (f : State → State) (s : State) : Judged s (Machine.accept f s) := .done _ []

theorem Judged.report (f : State → List Byte) (s : State) : Judged s (Machine.report f s) := .done s (f s)

theorem handleStrandSettings_judged (b : Byte) (body : StrandBody) (s : State) :
    Judged s (handleStrandSettings b body s) := .namingInService b fun k => by
  split
  · exact .refused .badField nofun
  · exact .checked rfl (.accept _ s)

theorem startCold_judged (k : Strand) (s : State) : Judged s (startCold k s) := by
  unfold startCold
  split
  · exact .accept _ s
  · exact .refused .noPlan nofun

theorem serviceOff_judged (k : Strand) (s : State) : Judged s (serviceOff k s) := by
  unfold serviceOff
  split
  · exact .accept _ s
  · exact .accept _ s
  · exact .refused .wrongState nofun
  · exact .refused .wrongState nofun
  · exact .refused .wrongState nofun
  · exact .accept id s

theorem serviceOn_judged (k : Strand) (s : State) : Judged s (serviceOn k s) := by
  unfold serviceOn
  split
  · exact .accept _ s
  all_goals exact .accept id s

theorem handleService_judged (b r : Byte) (s : State) : Judged s (handleService b r s) := .namingStrand b fun k => by
  refine .checked rfl ?_
  split
  · exact serviceOff_judged k s
  · exact serviceOn_judged k s

theorem handlePlanWrite_judged (n : Byte) (p : RawPlan) (s : State) : Judged s (handlePlanWrite n p s) := by
  unfold handlePlanWrite
  split
  · exact .refused .badField nofun
  · split
    · exact .refused .protected_ nofun
    · split
      · exact .plan _
      · exact .accept _ s

theorem handlePlanRead_judged (n : Byte) (s : State) : Judged s (handlePlanRead n s) := by
  unfold handlePlanRead
  cases slotOf n
  · exact .refused .badField nofun
  · exact .report _ s

theorem handlePlanErase_judged (n : Byte) (s : State) : Judged s (handlePlanErase n s) := by
  unfold handlePlanErase
  cases slotOf n
  · exact .refused .badField nofun
  · exact .checked rfl (.accept _ s)

theorem handleMapRead_judged (w : Byte) (s : State) : Judged s (handleMapRead w s) := by
  unfold handleMapRead
  cases windowOf w
  · exact .refused .badField nofun
  · exact .report _ s

theorem handleMapWrite_judged (b : WindowBody) (s : State) : Judged s (handleMapWrite b s) := by
  unfold handleMapWrite
  split
  · exact .accept _ s
  · exact .refused .badField nofun

theorem handleMapDisable_judged (w : Byte) (s : State) : Judged s (handleMapDisable w s) := by
  unfold handleMapDisable
  cases windowOf w
  · exact .refused .badField nofun
  · exact .accept _ s

theorem handleArbiterRead_judged (p : Byte) (s : State) : Judged s (handleArbiterRead p s) := by
  unfold handleArbiterRead
  cases readPool p
  · exact .refused .badField nofun
  · exact .report _ s

section
variable {cap mon resp rise pol sel : Byte} {pre inrush : Half}

theorem handleArbiterWrite_pour_none (h : readPour cap mon resp rise pre pol sel = none) :
    handleArbiterWrite (.pour cap mon resp rise pre pol sel) = refuse .badField := by simp [handleArbiterWrite, h]

theorem handleArbiterWrite_pour_some {p : PourSettings} (h : readPour cap mon resp rise pre pol sel = some p) :
    handleArbiterWrite (.pour cap mon resp rise pre pol sel) =
      checked (fun s => [(s.pour.inUse, .busy)]) (accept (storePour p)) := by simp [handleArbiterWrite, h]

theorem handleArbiterWrite_drive_none (h : readDrive cap mon resp inrush = none) :
    handleArbiterWrite (.drive cap mon resp inrush) = refuse .badField := by simp [handleArbiterWrite, h]

theorem handleArbiterWrite_drive_some {p : DriveSettings} (h : readDrive cap mon resp inrush = some p) :
    handleArbiterWrite (.drive cap mon resp inrush) =
      checked (fun s => [(s.drive.inUse, .busy)]) (accept (storeDrive p)) := by simp [handleArbiterWrite, h]

end

theorem handleArbiterWrite_judged (b : ArbiterBody) (s : State) : Judged s (handleArbiterWrite b s) := by
  cases b with
  | other => exact .refused .badField nofun
  | pour cap mon resp rise pre pol sel =>
    cases h : readPour cap mon resp rise pre pol sel with
    | none => rw [handleArbiterWrite_pour_none h]; exact .refused .badField nofun
    | some p => rw [handleArbiterWrite_pour_some h]; exact .checked rfl (.accept _ s)
  | drive cap mon resp inrush =>
    cases h : readDrive cap mon resp inrush with
    | none => rw [handleArbiterWrite_drive_none h]; exact .refused .badField nofun
    | some p => rw [handleArbiterWrite_drive_some h]; exact .checked rfl (.accept _ s)

theorem handleStore_judged (s : State) : Judged s (handleStore s) := by
  unfold handleStore
  split
  · exact .refused .busy nofun
  all_goals exact .accept _ s

/-- Every request command comes to one of the three. -/
theorem handlerOf_judged {i : Instr} {h : Handler} (hh : handlerOf i = some h) (s : State) : Judged s (h s) := by
  cases i <;> cases hh
  case strandRead tag k => exact .namingStrand k fun k => .report _ s
  case strandSettings tag k b => exact handleStrandSettings_judged k b s
  case start tag k => exact .namingInService k fun k => .checked rfl (startCold_judged k s)
  case abort tag k => exact .namingInService k fun k => .checked rfl (.accept _ s)
  case strandControl tag k l d m c => exact .namingInService k fun k => .checked rfl (.accept _ s)
  case resume tag k => exact .namingInService k fun k => .checked rfl (.accept _ s)
  case clearStrand tag k => exact .namingInService k fun k => .checked rfl (.accept _ s)
  case service tag k r => exact handleService_judged k r s
  case faultRead tag k => exact .namingStrand k fun k => .report _ s
  case faultClear tag k => exact .namingInService k fun k => .accept _ s
  case planWrite tag n p => exact handlePlanWrite_judged n p s
  case planRead tag n => exact handlePlanRead_judged n s
  case planErase tag n => exact handlePlanErase_judged n s
  case mapRead tag w => exact handleMapRead_judged w s
  case mapWrite tag b => exact handleMapWrite_judged b s
  case mapDisable tag w => exact handleMapDisable_judged w s
  case arbiterRead tag p => exact handleArbiterRead_judged p s
  case arbiterWrite tag b => exact handleArbiterWrite_judged b s
  case includeStrand tag k p => exact .namingInService k fun k => .checked rfl (.accept _ s)
  case store tag => exact handleStore_judged s
  case status | settingsRead | noticePoll => exact .report _ s
  case tripArm => exact .accept _ s
  all_goals exact .checked rfl (.accept _ s)

theorem ReplyCode.byte_eq_badPlan {c : ReplyCode} : c.byte = 0x0E ↔ c = .badPlan := by cases c <;> decide

/-- A reply that does not begin with OK is a refusal: nothing changes, and the code stands alone, but for a refused plan. -/
theorem Judged.body {s : State} {r : State × List Byte} (h : Judged s r) : r.2 ≠ [] ∧
    (r.2.head? ≠ some 0x00 → r.1 = s ∧ r.2.length = if r.2.head? = some 0x0E then 3 else 1) := by
  cases h with
  | done t l => exact ⟨nofun, fun h => absurd rfl h⟩
  | refused c hc =>
    have hb : ¬ [c.byte].head? = some 0x0E := fun e => hc (ReplyCode.byte_eq_badPlan.mp (Option.some.inj e))
    exact ⟨nofun, fun _ => ⟨rfl, (if_neg hb).symm⟩⟩
  | plan e => exact ⟨nofun, fun _ => ⟨rfl, rfl⟩⟩

/-- Settles O8: the handler's reply joins what is on its way, and is one of the three kinds. -/
theorem requestIsAnsweredOnce : Obligations.RequestIsAnsweredOnce := by
  intro i f s hf
  obtain ⟨h, hh, he⟩ := exec_request hf
  refine ⟨fun hq => (he s).trans (congrArg Host.Outcome.next (handleRequest_full f.tag f.kind h s hq)), fun hq => ?_⟩
  obtain ⟨hr, hs⟩ := handler_link (.of_command i hh) s
  obtain ⟨answered, same⟩ := handleRequest_answered f.tag f.kind h s hq hr hs
  obtain ⟨hn, hb⟩ := (handlerOf_judged hh s).body
  refine ⟨_, _, he s, answered, rfl, rfl, hn, fun h0 => ?_⟩
  obtain ⟨unchanged, length⟩ := hb h0
  rw [unchanged] at same
  exact ⟨same, length⟩

end Sys2Proof.Machine
end
section
/-! PROOFS. The requests that write settings: ARBITER WRITE (R101), PLAN WRITE and PLAN ERASE (R34, R35, R38), PROTECT and
UNPROTECT (R40, R41), SETTINGS WRITE (R166, R168, R191), STRAND SETTINGS (R2, R102, R105, R193). -/

namespace Sys2Proof.Machine

/-! ### ARBITER WRITE -/

section
variable {cap mon resp rise pol sel : Byte} {pre inrush : Half}

/-- The POUR settings that a body carries lie in range and are its fields. -/
theorem readPour_some {p : PourSettings} (h : readPour cap mon resp rise pre pol sel = some p) : pourInRange p = true ∧
    p.capacity = cap.toNat ∧ p.responseTime = resp.toNat ∧ p.riseThreshold = rise.toNat ∧ p.preCharge = pre.toNat := by
  unfold readPour at h
  split at h
  · dsimp only at h
    split at h
    · next hr => cases h; exact ⟨hr, rfl, rfl, rfl, rfl⟩
    · cases h
  · cases h

/-- The DRIVE settings that a body carries lie in range and are its fields. -/
theorem readDrive_some {p : DriveSettings} (h : readDrive cap mon resp inrush = some p) : driveInRange p = true ∧
    p.capacity = cap.toNat ∧ p.responseTime = resp.toNat ∧ p.inrushHold = inrush.toNat := by
  unfold readDrive at h
  split at h
  · dsimp only at h
    split at h
    · next hr => cases h; exact ⟨hr, rfl, rfl, rfl⟩
    · cases h
  · cases h

end

/-- A single check that fails. -/
theorem checked_one_fails {b : State → Bool} {c : ReplyCode} {h : Handler} {s : State} (hb : b s = true) :
    checked (fun s => [(b s, c)]) h s = refuse c s := checked_fails _ _ _ _ (by rw [hb]; rfl)

/-- A single check that does not. -/
theorem checked_one_passes {b : State → Bool} {c : ReplyCode} {h : Handler} {s : State} (hb : b s = false) :
    checked (fun s => [(b s, c)]) h s = h s := checked_passes _ _ _ (by rw [hb]; rfl)

/-- Settles O18: the body's settings are read first, then the pool's use is checked. -/
theorem arbiterWriteStores : Obligations.ArbiterWriteStores := by
  intro tag pool cap mon resp rise pol sel pre inrush pp dp s hq
  refine ⟨request_refuses _ _ _ .badField s hq rfl, fun h => ?_, fun h => ?_, fun h hu => ?_, fun h hu => ?_, fun h hu => ?_,
    fun h hu => ?_⟩
  · exact request_refuses _ _ _ .badField s hq (congrFun (handleArbiterWrite_pour_none h) s)
  · exact request_refuses _ _ _ .badField s hq (congrFun (handleArbiterWrite_drive_none h) s)
  · exact request_refuses _ _ _ .busy s hq ((congrFun (handleArbiterWrite_pour_some h) s).trans (checked_one_fails hu))
  · exact request_refuses _ _ _ .busy s hq ((congrFun (handleArbiterWrite_drive_some h) s).trans (checked_one_fails hu))
  · obtain ⟨range, capacity, response, rise, pre⟩ := readPour_some h
    exact ⟨range, capacity, response, rise, pre, request_stores _ _ _ _ _ s hq
      ((congrFun (handleArbiterWrite_pour_some h) s).trans (checked_one_passes hu)) rfl⟩
  · obtain ⟨range, capacity, response, inrush⟩ := readDrive_some h
    exact ⟨range, capacity, response, inrush, request_stores _ _ _ _ _ s hq
      ((congrFun (handleArbiterWrite_drive_some h) s).trans (checked_one_passes hu)) rfl⟩

/-! ### PLAN WRITE and PLAN ERASE -/

theorem slotOf_above {b : Byte} (h : 31 < b.toNat) : slotOf b = none := dif_neg (Nat.not_lt.mpr h)

theorem slotOf_eq {b : Byte} {n : Fin 32} (h : b.toNat = n.val) : slotOf b = some n := by simp [slotOf, h]

theorem handlePlanWrite_above {b : Byte} (h : 31 < b.toNat) (p : RawPlan) (s : State) :
    handlePlanWrite b p s = refuse .badField s := by simp [handlePlanWrite, slotOf_above h]

theorem handlePlanErase_above {b : Byte} (h : 31 < b.toNat) (s : State) :
    handlePlanErase b s = refuse .badField s := by simp [handlePlanErase, slotOf_above h]

section
variable {b : Byte} {n : Fin 32} {s : State}

theorem handlePlanWrite_guarded (h : b.toNat = n.val) (hg : writeProtected s n = true) (p : RawPlan) :
    handlePlanWrite b p s = refuse .protected_ s := by simp [handlePlanWrite, slotOf_eq h, hg]

theorem handlePlanWrite_bad (h : b.toNat = n.val) (hg : writeProtected s n = false) {p : RawPlan} {e : Nat × PlanFault}
    (hp : readPlan p = .error e) : handlePlanWrite b p s = (s, badPlan e) := by simp [handlePlanWrite, slotOf_eq h, hg, hp]

theorem handlePlanWrite_good (h : b.toNat = n.val) (hg : writeProtected s n = false) {p : RawPlan} {q : Plan}
    (hp : readPlan p = .ok q) : handlePlanWrite b p s = accept (storeSlot n (some q)) s := by
  simp [handlePlanWrite, slotOf_eq h, hg, hp]

theorem handlePlanErase_eq (h : b.toNat = n.val) : handlePlanErase b =
    checked (fun s => [(writeProtected s n, .protected_)]) (accept (storeSlot n none)) := by
  simp [handlePlanErase, slotOf_eq h]

end

/-! ### PROTECT and UNPROTECT -/

theorem namesNoBank_eq_false {m : Byte} (h : m.toNat ≤ 15) : namesNoBank m = false := decide_eq_false (Nat.not_lt.mpr h)

theorem namesNoBank_or {w r : Byte} (h : 15 < w.toNat ∨ 15 < r.toNat) : (namesNoBank w || namesNoBank r) = true := by
  simpa [namesNoBank] using h

theorem protectBanks_look (set : Bool) (w r : Byte) (s : State) (b : Fin 4) :
    (protectBanks set w r s).working.banks.look b =
      ⟨if w.getLsbD b.val then set else (s.working.banks.look b).write,
        if r.getLsbD b.val then set else (s.working.banks.look b).read⟩ := look_ofFn _ b

/-- A change of the banks' settings alone. -/
theorem request_banks (tag kind : Byte) {h : Handler} (set : Bool) (w r : Byte) (s : State) (hq : s.queueFree)
    (he : h s = accept (protectBanks set w r) s) :
    ∃ t, request tag kind h s = .next t ∧ Answered s t tag kind [0x00] ∧
      SameButSettings s t { s.working with banks := t.working.banks } ∧
      ∀ b : Fin 4, t.working.banks.look b =
        ⟨if w.getLsbD b.val then set else (s.working.banks.look b).write,
          if r.getLsbD b.val then set else (s.working.banks.look b).read⟩ := by
  obtain ⟨t, reached, answered, same⟩ := request_stores tag kind h _ _ s hq he rfl
  have hw : t.working = (protectBanks set w r s).working := by rw [same]; rfl
  refine ⟨t, reached, answered, ?_, fun b => by rw [hw]; exact protectBanks_look set w r s b⟩
  rw [hw]
  exact same

/-- Settles O13: the number or the masks are checked first, then the protection or MAINT, then the plan is read. -/
theorem plansAndBanksAreWritten : Obligations.PlansAndBanksAreWritten := by
  intro tag number n p w r s
  refine ⟨fun hq => ⟨fun h => ⟨?_, ?_⟩, fun h hg => ⟨?_, ?_⟩, fun h hg => ⟨?_, ?_⟩⟩,
    fun hq => ⟨fun h => ⟨?_, ?_⟩, fun hw hr hm => ?_, fun hw hr => ?_, fun hw hr hm => ?_⟩⟩
  · exact request_refuses _ _ _ .badField s hq (handlePlanWrite_above h p s)
  · exact request_refuses _ _ _ .badField s hq (handlePlanErase_above h s)
  · exact request_refuses _ _ _ .protected_ s hq (handlePlanWrite_guarded h hg p)
  · exact request_refuses _ _ _ .protected_ s hq ((congrFun (handlePlanErase_eq h) s).trans (checked_one_fails hg))
  · cases hp : readPlan p with
    | error e =>
      have he := handlePlanWrite_bad h hg hp
      have := handleRequest_answered tag 0x0F (handlePlanWrite number p) s hq (by rw [he]) (by rw [he])
      rw [he] at this
      exact ⟨_, rfl, this⟩
    | ok q => exact request_stores _ _ _ _ _ s hq (handlePlanWrite_good h hg hp) rfl
  · exact request_stores _ _ _ _ _ s hq ((congrFun (handlePlanErase_eq h) s).trans (checked_one_passes hg)) rfl
  · exact request_refuses _ _ _ .badField s hq (checked_one_fails (namesNoBank_or h))
  · exact request_refuses _ _ _ .badField s hq (checked_fails _ _ _ _ (by rw [namesNoBank_or h]; rfl))
  · refine request_refuses _ _ _ .noMaint s hq (checked_fails _ _ _ _ ?_)
    have maint : s.casterLines.maint.isTrue = false := beq_eq_false_iff_ne.mpr hm
    simp [firstFailure, namesNoBank_eq_false hw, namesNoBank_eq_false hr, maint]
  · obtain ⟨t, reached, answered, same, banks⟩ := request_banks tag 0x12 true w r s hq (h := handleProtect w r)
      (checked_one_passes (by rw [namesNoBank_eq_false hw, namesNoBank_eq_false hr]; rfl))
    refine ⟨t, reached, answered, same, fun b => (banks b).trans ?_⟩
    cases w.getLsbD b.val <;> cases r.getLsbD b.val <;> simp
  · obtain ⟨t, reached, answered, same, banks⟩ := request_banks tag 0x13 false w r s hq (h := handleUnprotect w r)
      (checked_passes _ _ _ (by simp [firstFailure, namesNoBank_eq_false hw, namesNoBank_eq_false hr, Line.isTrue, hm]))
    refine ⟨t, reached, answered, same, fun b => (banks b).trans ?_⟩
    cases w.getLsbD b.val <;> cases r.getLsbD b.val <;> simp

/-! ### SETTINGS WRITE -/

section
variable (old new : CasterSettings) (s : State)

/-- Changed periods move the lines and the instants alone, the instants of the changed periods (R166, R168). -/
theorem applyPeriods_rest : applyPeriods old new s = { s with
    strandLines := (applyPeriods old new s).strandLines
    casterLines := (applyPeriods old new s).casterLines
    instants := ⟨if new.periodA = old.periodA then s.instants.classA else new.periodA,
      if new.periodB = old.periodB then s.instants.classB else new.periodB,
      if new.measurement = old.measurement then s.instants.measurement else new.measurement⟩ } := by
  by_cases ha : new.periodA = old.periodA <;> by_cases hb : new.periodB = old.periodB <;>
    by_cases hm : new.measurement = old.measurement <;>
    simp [applyPeriods, changePeriodA, changePeriodB, changeMeasurement, ha, hb, hm]

/-- A class whose period changes loses its runs (R166): the lines of the strands. -/
theorem applyPeriods_strandLines (k : Strand) :
    let x := s.strandLines.look k
    let a := new.periodA == old.periodA
    let c := new.periodB == old.periodB
    (applyPeriods old new s).strandLines.look k = ⟨runAfter a x.breakoutAlarm, runAfter c x.driveReady,
      runAfter c x.dummyAtMold, runAfter c x.steelPresent, runAfter c x.moldWaterOk⟩ := by
  by_cases ha : new.periodA = old.periodA <;> by_cases hb : new.periodB = old.periodB <;>
    by_cases hm : new.measurement = old.measurement <;>
    simp [applyPeriods, changePeriodA, changePeriodB, changeMeasurement, runAfter, Line.clearRun, ha, hb, hm]

/-- A class whose period changes loses its runs (R166): the lines of the caster. -/
theorem applyPeriods_casterLines :
    let y := s.casterLines
    let a := new.periodA == old.periodA
    let c := new.periodB == old.periodB
    (applyPeriods old new s).casterLines = ⟨runAfter a y.supplyOk, runAfter c y.tcRequest, runAfter c y.tundishInPlace,
      runAfter c y.hydOk, runAfter c y.maint⟩ := by
  by_cases ha : new.periodA = old.periodA <;> by_cases hb : new.periodB = old.periodB <;>
    by_cases hm : new.measurement = old.measurement <;>
    simp [applyPeriods, changePeriodA, changePeriodB, changeMeasurement, runAfter, Line.clearRun, ha, hb, hm]

end

/-- Settles O11: the body is read and checked, and its periods are compared with the old ones. -/
theorem settingsWriteStores : Obligations.SettingsWriteStores := by
  intro tag b k s hq
  refine ⟨fun h => ?_, fun h => ?_⟩
  · exact request_refuses _ _ _ .badField s hq (checked_one_fails (by rw [h]; rfl))
  · obtain ⟨t, reached, answered, same, -⟩ := request_acts tag 0x03 (.of_command (.settingsWrite tag b) rfl) _ s hq
      (checked_one_passes (by rw [h]; rfl))
    have rest := applyPeriods_rest s.working.caster (readCasterBody b)
      { s with working := { s.working with caster := readCasterBody b } }
    have strands := applyPeriods_strandLines s.working.caster (readCasterBody b)
      { s with working := { s.working with caster := readCasterBody b } } k
    have caster := applyPeriods_casterLines s.working.caster (readCasterBody b)
      { s with working := { s.working with caster := readCasterBody b } }
    have hs : t.strandLines = (applyCaster (readCasterBody b) s).strandLines := by rw [same]
    have hc : t.casterLines = (applyCaster (readCasterBody b) s).casterLines := by rw [same]
    refine ⟨t, reached, answered, ?_, ?_, ?_⟩
    · rw [hs, hc]
      refine same.trans ?_
      unfold applyCaster
      rw [rest]
      rfl
    · rw [hs]; exact strands
    · rw [hc]; exact caster

/-! ### STRAND SETTINGS -/

section
variable (k : Strand) (old new : StrandSettings) (s : State)

/-- A new cooling table moves the units alone. -/
theorem coolAfter_rest : coolAfter k old new s = { s with units := (coolAfter k old new s).units } := by
  unfold coolAfter
  split
  · split
    · rfl
    · rw [updUnit_quiet _ _ _ rfl]; rfl
  · split
    · rfl
    · rw [updUnit_quiet _ _ _ rfl]; rfl
  · rfl

theorem coolAfter_other {j : Strand} (hj : j ≠ k) : (coolAfter k old new s).unit j = s.unit j := by
  unfold coolAfter
  split
  · split
    · rfl
    · exact updUnit_unit_ne _ _ _ j hj
  · split
    · rfl
    · exact updUnit_unit_ne _ _ _ j hj
  · rfl

/-- A new cooling table reaches a HELD strand, and one HALTED for BREAKOUT (R121). -/
theorem coolAfter_unit : (coolAfter k old new s).unit k = { s.unit k with
    cooling :=
      if (s.strand k).condition = .held ∧ new.holdCooling ≠ old.holdCooling then new.holdCooling
      else if (s.strand k).condition = .halted .breakout ∧ new.breakoutCooling ≠ old.breakoutCooling then new.breakoutCooling
      else (s.unit k).cooling } := by
  unfold coolAfter
  split
  · next h => rw [h]; by_cases hc : new.holdCooling = old.holdCooling <;> simp [hc]
  · next h => rw [h]; by_cases hc : new.breakoutCooling = old.breakoutCooling <;> simp [hc]
  · next h1 h2 => rw [if_neg fun h => h1 h.1, if_neg fun h => h2 h.1]

/-- A new freeze limit that is not due (R2). -/
theorem freezeAfter_none (h : new.freezeLimit = old.freezeLimit ∨ (s.strand k).holdTimer.running = false ∨
    (s.strand k).holdTimer.elapsed < new.freezeLimit * 1000) : freezeAfter k old new s = s := by
  refine if_neg fun ⟨hn, hr, he⟩ => ?_
  rcases h with h | h | h
  · exact hn h
  · exact absurd (hr.symm.trans h) nofun
  · exact absurd he (Nat.not_le.mpr h)

end

section
variable {b : StrandBody} {k : Strand} {s : State}

theorem handleStrandSettings_none (hk : s.inService k = true) (h : readStrandBody b = none) :
    handleStrandSettings (nameByte k) b s = refuse .badField s := by
  rw [handleStrandSettings, namingInService_name k _ s hk, h]

theorem handleStrandSettings_some (hk : s.inService k = true) {p : StrandSettings} {l : LevelParams}
    (h : readStrandBody b = some (p, l)) : handleStrandSettings (nameByte k) b s =
      checked (fun s => [(classBusy k p s, .busy), (l != s.levelSet k && (s.unit k).levelOn, .locked)])
        (accept (applyStrand k p l)) s := by
  rw [handleStrandSettings, namingInService_name k _ s hk, h]

theorem classBusy_of {p : StrandSettings} (h : (p.pourClass ≠ (s.settingsOf k).pourClass ∧ s.pour.inUse = true) ∨
    (p.driveClass ≠ (s.settingsOf k).driveClass ∧ s.drive.inUse = true)) : classBusy k p s = true := by
  simpa [classBusy] using h

end

/-- Settles O12: the body is read, the classes and the level set are checked; what follows the store moves strand `k`'s cooling
alone. -/
theorem strandSettingsStores : Obligations.StrandSettingsStores := by
  intro tag b k j p l s hq hk
  refine ⟨fun h => ?_, fun h hb => ?_, fun h hb hl ho => ?_, fun h hb hl hf => ?_⟩
  · exact request_refuses _ _ _ .badField s hq (handleStrandSettings_none hk h)
  · refine request_refuses _ _ _ .busy s hq ((handleStrandSettings_some hk h).trans (checked_fails _ _ _ _ ?_))
    rw [classBusy_of hb]
    rfl
  · refine request_refuses _ _ _ .locked s hq ((handleStrandSettings_some hk h).trans (checked_fails _ _ _ _ ?_))
    rw [hb, bne_iff_ne.mpr hl, ho]
    rfl
  · have checks : firstFailure [(classBusy k p s, .busy), (l != s.levelSet k && (s.unit k).levelOn, .locked)] = none := by
      rcases hl with hl | hl <;> rw [hb, hl] <;> simp [firstFailure]
    obtain ⟨t, reached, answered, same, -⟩ := request_acts tag 0x06 (.of_command (.strandSettings tag _ b) rfl) _ s hq
      ((handleStrandSettings_some hk h).trans (checked_passes _ _ _ checks))
    have effect : applyStrand k p l s = coolAfter k (s.settingsOf k) p (storeStrand k p l s) := by
      refine freezeAfter_none _ _ _ _ ?_
      rw [coolAfter_rest]
      exact hf
    rw [effect] at same
    have units : t.units = (coolAfter k (s.settingsOf k) p (storeStrand k p l s)).units := by rw [same]
    refine ⟨t, reached, answered, ?_, fun hj => ?_, ?_⟩
    · rw [units]
      refine same.trans ?_
      rw [coolAfter_rest]
      rfl
    · exact (congrArg (Tab.look · j) units).trans (coolAfter_other k _ _ _ hj)
    · exact (congrArg (Tab.look · k) units).trans (coolAfter_unit k _ _ _)

end Sys2Proof.Machine
end
section
/-! PROOFS. The requests that read: what their replies carry (R36, R46, R100, R175, R181, R189, R190, R192, R197). -/

namespace Sys2Proof.Machine

/-! ### The lengths of what a reply carries -/

@[simp] theorem length_u8 (n : Nat) : (u8 n).length = 1 := rfl

@[simp] theorem length_u16 (n : Nat) : (u16 n).length = 2 := rfl

@[simp] theorem length_u32 (n : Nat) : (u32 n).length = 4 := rfl

@[simp] theorem length_optU16 (n : Option Nat) : (optU16 n).length = 2 := rfl

@[simp] theorem length_flag (b : Bool) : (flag b).length = 1 := rfl

@[simp] theorem length_strandByte (k : Strand) : (strandByte k).length = 1 := rfl

@[simp] theorem length_zoneBytes (z : Zones) : (zoneBytes z).length = 4 := rfl

@[simp] theorem length_lineBytes (l : Line) : (lineBytes l).length = 2 := rfl

/-- An action's parameters take nine bytes at most (R195). -/
theorem length_paramBytes (a : Action) : (paramBytes a).length ≤ 9 := by
  cases a with
  | level source => cases source <;> simp [paramBytes]
  | _ => simp [paramBytes]

@[simp] theorem length_stepBytes (p : Step) : (stepBytes p).length = 12 := by
  have := length_paramBytes p.action
  simp only [stepBytes, padTo, List.length_append, length_u8, length_u16, List.length_replicate]
  omega

@[simp] theorem length_stepsBytes (l : List Step) : (stepsBytes l).length = 12 * l.length := by
  simp [stepsBytes, List.map_const', List.sum_replicate_nat, Nat.mul_comm]

/-! ### STATUS -/

theorem allStrands_getElem (k : Strand) : allStrands[k.val]? = some k := by decide +revert

/-- A part of 39 bytes before the strands' conditions. -/
theorem getElem_conditions {l : List Byte} (hl : l.length = 39) (f : Strand → Nat) (k : Strand) :
    (l ++ allStrands.flatMap fun k => u8 (f k))[39 + k.val]? = some (BitVec.ofNat 8 (f k)) := by
  rw [List.getElem?_append_right (by omega), hl, Nat.add_sub_cancel_left,
    show (allStrands.flatMap fun k => u8 (f k)) = allStrands.map fun k => BitVec.ofNat 8 (f k) from
      List.map_eq_flatMap.symm,
    List.getElem?_map, allStrands_getElem]
  rfl

theorem statusBytes_length (s : State) : (statusBytes s).length = 47 := by
  unfold statusBytes
  simp only [List.length_append, length_u8, length_u32, length_optU16, length_flag, length_lineBytes,
    List.length_singleton, List.length_flatMap]
  rfl

theorem statusBytes_strand (s : State) (k : Strand) :
    (statusBytes s)[39 + k.val]? = some (BitVec.ofNat 8 (conditionCode (s.strand k).condition.name)) := by
  unfold statusBytes
  refine getElem_conditions ?_ (fun k => conditionCode (s.strand k).condition.name) k
  simp only [List.length_append, length_u8, length_u32, length_optU16, length_flag, length_lineBytes,
    List.length_singleton]

/-! ### STRAND READ -/

theorem length_contextBytes (s : State) (k : Strand) : (contextBytes s k).length = 33 := by
  unfold contextBytes
  simp only [List.length_append, length_u8, length_u16, length_u32, length_flag, length_strandByte, length_zoneBytes]

theorem length_linesBytes (s : State) (k : Strand) : (linesBytes s k).length = 13 := by
  unfold linesBytes
  simp only [List.length_append, length_flag, length_lineBytes]

theorem length_unitBytes (u : UnitState) : (unitBytes u).length = 25 :=by
  unfold unitBytes
  simp only [List.length_append, length_u8, length_u16, length_optU16, length_flag, length_zoneBytes]

/-- The restart's part takes 314 bytes at most, with a plan in range (R30, R195). -/
theorem length_restartReadBytes (c : Condition) (h : snapshotInRange c = true) : (restartReadBytes c).length ≤ 314 := by
  cases c with
  | restarting r =>
    have range : planInRange r.snapshot.plan = true := h
    simp only [planInRange, nameInRange, Bool.and_eq_true, decide_eq_true_eq] at range
    obtain ⟨⟨⟨⟨⟨-, name⟩, -⟩, -⟩, steps⟩, -⟩ := range
    simp only [restartReadBytes, Condition.record?, List.length_append, length_u8, length_u32, length_flag]
    split
    · rw [List.length_nil]; omega
    · rw [length_stepsBytes]; omega
  | _ => exact Nat.le_add_left 1 313

theorem strandReadBytes_length (k : Strand) (s : State) :
    (strandReadBytes k s).length = 71 + (restartReadBytes (s.strand k).condition).length := by
  simp only [strandReadBytes, List.length_append, length_contextBytes, length_linesBytes, length_unitBytes]

theorem restartReadBytes_none {c : Condition} (h : c.record? = none) : restartReadBytes c = [0] := by
  simp [restartReadBytes, h, u8]

/-! ### The reads -/

/-- A request that reads is answered with OK and its contents, and changes nothing. -/
theorem request_reports (tag kind : Byte) {h : Handler} (f : State → List Byte) {s : State} (hq : s.queueFree)
    (he : h s = report f s) :
    ∃ t, request tag kind h s = .next t ∧ Answered s t tag kind ([0x00] ++ f s) ∧ SameButReply s t :=
  ⟨_, rfl, handleRequest_report tag kind h f s hq he⟩

theorem faultBytes_eq (f : Option FaultRecord) : faultBytes f = match f with
    | none => [0]
    | some f => [1, BitVec.ofNat 8 (faultCodeNumber f.code), BitVec.ofNat 8 (conditionCode f.condition),
        (match f.plan with | some p => BitVec.ofNat 8 p.val | none => 0xFF),
        BitVec.ofNat 8 (f.step.getD 0)] ++ u32 f.stamp.toNat ++ u16 f.detail ++ [if f.multiple then 1 else 0] := by
  cases f with
  | none => rfl
  | some f => cases hp : f.plan <;> cases hm : f.multiple <;> simp [faultBytes, hp, hm, u8, flag]

theorem slotBytes_eq (b : Bool) (p : Option Plan) : slotBytes b p = match p with
    | none => [0]
    | some q => [if b then 2 else 1, BitVec.ofNat 8 q.name.length] ++ q.name
        ++ [BitVec.ofNat 8 (kindCode q.kind), BitVec.ofNat 8 q.steps.length]
        ++ (if b then [] else q.steps.flatMap stepBytes) := by
  cases p with
  | none => rfl
  | some q => cases b <;> simp [slotBytes, u8, stepsBytes]

/-- A number's byte is the number, where a byte holds it. -/
theorem toNat_byte {n m : Nat} (h : n < m) (hm : m ≤ 256) : (BitVec.ofNat 8 n).toNat = n := by
  rw [BitVec.toNat_ofNat]
  exact Nat.mod_eq_of_lt (Nat.lt_of_lt_of_le h hm)

theorem readPool_poolCode (p : PoolId) : readPool (BitVec.ofNat 8 (poolCode p)) = some p := by cases p <;> rfl

theorem handlePlanRead_eq (n : Fin 32) (s : State) : handlePlanRead (BitVec.ofNat 8 n.val) s =
    report (fun s => [BitVec.ofNat 8 n.val] ++
      slotBytes (s.working.banks.look (bankOf n)).read (s.working.plans.look n)) s := by
  simp [handlePlanRead, slotOf_eq (toNat_byte n.isLt (by decide))]

theorem handleMapRead_eq (n : Fin 8) (s : State) : handleMapRead (BitVec.ofNat 8 n.val) s =
    report (fun s => windowBytes n (s.working.windows.look n)) s := by
  simp [handleMapRead, windowOf_eq _ n (toNat_byte n.isLt (by decide))]

theorem handleArbiterRead_eq (p : PoolId) (s : State) : handleArbiterRead (BitVec.ofNat 8 (poolCode p)) s =
    report (arbiterBytes p) s := by simp [handleArbiterRead, readPool_poolCode]

theorem snapshotInRange_of_law {s : State} (h : settingsLaw s = true) (k : Strand) :
    snapshotInRange (s.strand k).condition = true := ((settingsLaw_iff s).mp h).2 k

/-- Settles O10: each of the reads is a report, whose contents are laid out as the rules give them. -/
theorem readsReport : Obligations.ReadsReport := by
  intro tag k n m p s
  refine ⟨fun hq => ⟨request_reports tag 0x01 _ hq rfl, statusBytes_length s, statusBytes_strand s k,
      request_reports tag 0x02 _ hq rfl, ?_, rfl⟩,
    fun hq hk => ⟨request_reports tag 0x05 _ hq (namingStrand_name k _ s hk), fun hr => ?_, fun hl => ?_, ?_⟩,
    fun hq => ⟨?_, request_reports tag 0x14 _ hq (handleMapRead_eq m s), request_reports tag 0x17 _ hq (handleArbiterRead_eq p s)⟩⟩
  · obtain ⟨t, reached, answered, same⟩ := request_reports tag 0x20 _ hq (h := handleNoticePoll) rfl
    refine ⟨t, reached, ?_, same⟩
    rw [List.append_assoc, List.map_eq_flatMap]
    exact answered
  · have part := restartReadBytes_none (c := (s.strand k).condition) hr
    refine ⟨by rw [strandReadBytes_length, part]; rfl, ?_⟩
    rw [strandReadBytes, part, List.getLast?_concat]
  · have part := length_restartReadBytes _ (snapshotInRange_of_law hl k)
    rw [strandReadBytes_length]
    omega
  · obtain ⟨t, reached, answered, same⟩ := request_reports tag 0x0D _ hq (h := handleFaultRead (nameByte k))
      (namingStrand_name k _ s hk)
    rw [faultBytes_eq] at answered
    exact ⟨t, reached, answered, same⟩
  · obtain ⟨t, reached, answered, same⟩ := request_reports tag 0x10 _ hq (handlePlanRead_eq n s)
    rw [slotBytes_eq] at answered
    exact ⟨t, reached, answered, same⟩

end Sys2Proof.Machine
end
section
/-! PROOFS. The grant choice (R83, R84, R91): what a pass moves, and what the step that takes the grant does with it (R61, R62,
R65, R66, R93, R95). -/

namespace Sys2Proof.Machine

/-! ### What a delivery moves -/

/-- What a grant of pool `p` and its delivery to strand `k` move: the strand's own context, unit and grant record. -/
def Delivered (p : PoolId) (k : Strand) (s t : State) : Prop :=
  t = { s with strands := t.strands, units := t.units, pour := t.pour, drive := t.drive } ∧
  t.pool p = { s.pool p with holders := (t.pool p).holders } ∧ (∀ q, q ≠ p → t.pool q = s.pool q) ∧
  ∀ j, j ≠ k → (t.pool p).grant? j = (s.pool p).grant? j ∧ t.strand j = s.strand j ∧ t.unit j = s.unit j

section
variable {p : PoolId} {k : Strand}

theorem Delivered.refl (s : State) : Delivered p k s s := ⟨rfl, rfl, fun _ _ => rfl, fun _ _ => ⟨rfl, rfl, rfl⟩⟩

theorem Delivered.trans {s t u : State} (a : Delivered p k s t) (b : Delivered p k t u) : Delivered p k s u := by
  obtain ⟨a1, a2, a3, a4⟩ := a
  obtain ⟨b1, b2, b3, b4⟩ := b
  refine ⟨b1.trans (by rw [a1]), b2.trans (by rw [a2]), fun q hq => (b3 q hq).trans (a3 q hq), fun j hj => ?_⟩
  obtain ⟨ag, as, au⟩ := a4 j hj
  obtain ⟨bg, bs, bu⟩ := b4 j hj
  exact ⟨bg.trans ag, bs.trans as, bu.trans au⟩

/-- A change of strand `k`'s context and unit alone. -/
theorem delivered_of {s t : State} (h : t = { s with strands := t.strands, units := t.units })
    (hs : ∀ j, j ≠ k → t.strand j = s.strand j) (hu : ∀ j, j ≠ k → t.unit j = s.unit j) : Delivered p k s t := by
  have pools : ∀ q, t.pool q = s.pool q := fun q => by rw [h]; cases q <;> rfl
  refine ⟨?_, by rw [pools], fun q _ => pools q, fun j hj => ⟨by rw [pools], hs j hj, hu j hj⟩⟩
  rw [show t.pour = s.pour from pools .pour, show t.drive = s.drive from pools .drive]
  exact h

theorem modRecord_delivered (f : RestartRecord → RestartRecord) (s : State) : Delivered p k s (modRecord k f s) := by
  cases hr : s.record? k with
  | none => rw [show modRecord k f s = s by simp [modRecord, hr]]; exact .refl s
  | some r =>
    rw [modRecord_of_record k f r s hr]
    exact delivered_of rfl (fun _ hj => strand_withRecord_ne k _ _ s hj) fun _ _ => rfl

theorem toPhase_delivered (ph : Phase) (t : Option Nat) (s : State) : Delivered p k s (toPhase k ph t s) :=
  modRecord_delivered _ s

theorem modUnit_delivered (f : UnitState → UnitState) (s : State) : Delivered p k s (modUnit k f s) :=
  delivered_of rfl (fun _ _ => rfl) fun _ hj => look_put_ne _ _ _ _ hj

theorem updUnit_delivered (f : UnitState → UnitState) (s : State) (h : (f (s.unit k)).lockView = (s.unit k).lockView) :
    Delivered p k s (updUnit k f s) := by
  rw [updUnit_quiet k f s h]
  exact modUnit_delivered f s

theorem modPool_delivered (f : Pool → Pool) (s : State) (hf : f (s.pool p) = { s.pool p with holders := (f (s.pool p)).holders })
    (hg : ∀ j, j ≠ k → (f (s.pool p)).grant? j = (s.pool p).grant? j) : Delivered p k s (modPool p f s) := by
  refine ⟨by cases p <;> rfl, ?_, fun q hq => modPool_pool_ne _ _ _ _ hq, fun j hj => ⟨?_, ?_, ?_⟩⟩
  · rw [modPool_pool_same]; exact hf
  · rw [modPool_pool_same]; exact hg j hj
  · cases p <;> rfl
  · cases p <;> rfl

theorem modGrant_delivered (f : Grant → Grant) (s : State) : Delivered p k s (modGrant p k f s) := by
  unfold modGrant
  split
  · exact modPool_delivered _ s rfl fun _ hj => look_put_ne _ _ _ _ hj
  · exact .refl s

theorem openForAttempt_delivered (s : State) : Delivered .pour k s (openForAttempt k s) := by
  unfold openForAttempt
  split
  · next n _ =>
    exact (updUnit_delivered (UnitState.openStopper n) s rfl).trans ((modGrant_delivered _ _).trans (toPhase_delivered _ _ _))
  · exact .refl s

theorem takePourGrant_delivered (s : State) : Delivered .pour k s (takePourGrant k s) := by
  unfold takePourGrant
  dsimp only
  split
  · exact openForAttempt_delivered s
  · split
    · exact (toPhase_delivered _ _ s).trans (openForAttempt_delivered _)
    · exact toPhase_delivered _ _ s

theorem takeDriveGrant_delivered (s : State) : Delivered .drive k s (takeDriveGrant k s).1 := by
  have unit : Delivered .drive k s (updUnit k UnitState.runDrive s) := updUnit_delivered _ s rfl
  unfold takeDriveGrant
  dsimp only
  split
  · exact unit.trans ((modGrant_delivered _ _).trans (toPhase_delivered _ _ _))
  · exact unit.trans (toPhase_delivered _ _ _)

theorem deliverGrant_delivered (s : State) : Delivered p k s (deliverGrant p k s).1 := by
  unfold deliverGrant
  split
  · cases p
    · exact takePourGrant_delivered s
    · exact takeDriveGrant_delivered s
  · exact .refl s

end

/-! ### A pass of the choice -/

/-- A pass finds nothing to grant at a closed pool, without a free slot or with nobody waiting (R83). -/
theorem grantPass_ends (p : PoolId) (s : State) (h : (s.pool p).isOpen = false ∨ capacity s p ≤ (s.pool p).holderCount ∨
    (s.pool p).waits = []) : grantPass p s = (s, []) := by
  unfold grantPass
  rcases h with h | h | h
  · rw [if_neg (by simp [h])]
  · rw [if_neg (by simp [Nat.not_lt.mpr h])]
  · simp [h]

/-- Otherwise it grants the first entry's strand a slot and delivers the grant (R83). -/
theorem grantPass_serves {p : PoolId} {s : State} {e : WaitEntry} {rest : List WaitEntry} (ho : (s.pool p).isOpen = true)
    (hc : (s.pool p).holderCount < capacity s p) (hw : (s.pool p).waits = e :: rest) :
    grantPass p s = ((deliverGrant p e.strand (makeGrant p e.strand rest s)).1,
      (deliverGrant p e.strand (makeGrant p e.strand rest s)).2 ++ [.grantChoice p]) := by
  simp [grantPass, ho, hc, hw]

section
variable (p : PoolId) (k : Strand) (rest : List WaitEntry) (s : State)

/-- A grant moves its pool and, at POUR, last granted. -/
theorem makeGrant_rest : makeGrant p k rest s = { s with
    pour := (makeGrant p k rest s).pour
    drive := (makeGrant p k rest s).drive
    lastGranted := match p with | .pour => some k | .drive => s.lastGranted } := by cases p <;> rfl

theorem makeGrant_strand (j : Strand) : (makeGrant p k rest s).strand j = s.strand j := by cases p <;> rfl

theorem makeGrant_unit (j : Strand) : (makeGrant p k rest s).unit j = s.unit j := by cases p <;> rfl

theorem makeGrant_record (j : Strand) : (makeGrant p k rest s).record? j = s.record? j := by cases p <;> rfl

theorem makeGrant_phase (j : Strand) : (makeGrant p k rest s).phase j = s.phase j := by cases p <;> rfl

theorem makeGrant_action (j : Strand) : (makeGrant p k rest s).action? j = s.action? j := by cases p <;> rfl

theorem makeGrant_grant : ((makeGrant p k rest s).pool p).grant? k = some (newGrant p k s) := by
  rw [(makeGrant_pool p k rest s).1]
  exact look_put_same _ _ _

end

/-! ### The grant taken by a step -/

/-- The record in a new phase, its rise reference absent (R66, R68). -/
def RestartRecord.inPhase (r : RestartRecord) (ph : Phase) (t : Option Nat) : RestartRecord :=
  { r with phase := ph, phaseTimer := t, riseReference := none }

theorem toPhase_of_record {s : State} {k : Strand} {r : RestartRecord} (h : s.record? k = some r) (ph : Phase)
    (t : Option Nat) :
    toPhase k ph t s = withRecord k (r.inPhase ph t) s :=
  modRecord_of_record k _ r s h

theorem fillOpening_of_action {s : State} {k : Strand} {fill a b c : Nat} (h : s.action? k = some (.opening fill a b c)) :
    fillOpening k s = some fill := by simp [fillOpening, h]

theorem modGrant_grant {p : PoolId} {k : Strand} {s : State} {g : Grant} (h : (s.pool p).grant? k = some g) (f : Grant → Grant) :
    ((modGrant p k f s).pool p).grant? k = some (f g) := by
  simp only [modGrant, h, modPool_pool_same]
  exact look_put_same _ _ _

/-- A record's change and a grant's are apart. -/
theorem openWindow_withRecord (k : Strand) (r : RestartRecord) (s : State) :
    openWindow k (withRecord k r s) = withRecord k r (openWindow k s) := by
  unfold openWindow modGrant
  rw [show ((withRecord k r s).pool .pour).grant? k = (s.pool .pour).grant? k from rfl]
  cases (s.pool .pour).grant? k <;> rfl

section
variable {s : State} {k : Strand} {r : RestartRecord} (hr : s.record? k = some r)
include hr

/-- A drive that already reports ready (R62, R95). -/
theorem takeDriveGrant_ready (h : s.driveReady k = true) : takeDriveGrant k s =
    (withRecord k (r.inPhase .inrush (phaseTime s.working.drive.inrushHold))
      (answer .drive k (modUnit k UnitState.runDrive s)),
     if s.working.drive.inrushHold = 0 then [.inrushEnd k] else []) := by
  have ready : (modUnit k UnitState.runDrive s).driveReady k = true := h
  have record : (answer .drive k (modUnit k UnitState.runDrive s)).record? k = some r := by
    simpa [State.record?, State.strand, answer] using hr
  simp only [takeDriveGrant, updUnit_quiet k UnitState.runDrive s rfl, ready, if_true, enterInrush,
    toPhase_of_record record]
  rfl

/-- A drive that does not report ready yet (R61). -/
theorem takeDriveGrant_starting (h : s.driveReady k = false) : takeDriveGrant k s =
    (withRecord k (r.inPhase .starting none) (modUnit k UnitState.runDrive s), []) := by
  have ready : (modUnit k UnitState.runDrive s).driveReady k = false := h
  have record : (modUnit k UnitState.runDrive s).record? k = some r := hr
  simp only [takeDriveGrant, updUnit_quiet k UnitState.runDrive s rfl, ready, toPhase_of_record record, Bool.false_eq_true,
    if_false]

/-- The stopper opens for an attempt of an OPEN step (R66, R93). -/
theorem openForAttempt_of_action {fill a b c : Nat} (ha : s.action? k = some (.opening fill a b c)) : openForAttempt k s =
    withRecord k (r.inPhase .pouring none)
      (openWindow k (modUnit k (UnitState.openStopper fill) s)) := by
  have record : (openWindow k (modUnit k (UnitState.openStopper fill) s)).record? k = some r := by
    simpa [State.record?, State.strand, openWindow] using hr
  simp only [openForAttempt, fillOpening_of_action ha, updUnit_quiet k (UnitState.openStopper fill) s rfl,
    toPhase_of_record record]

/-- A new phase leaves the action. -/
theorem action_withRecord {r' : RestartRecord} (h : r'.step? = r.step?) : (withRecord k r' s).action? k = s.action? k := by
  simp only [State.action?, record?_withRecord, hr, Option.bind_some, h]

/-- A POUR grant that opens the stopper at once (R65, R66). -/
theorem takePourGrant_opens {fill a b c : Nat} (ha : s.action? k = some (.opening fill a b c))
    (h : s.working.pour.preCharge = 0 ∨ (parkMarked k s = true ∧ s.casterLines.hydOk.isTrue = true)) : takePourGrant k s =
    withRecord k (r.inPhase .pouring none)
      (openWindow k (modUnit k (UnitState.openStopper fill) s)) := by
  unfold takePourGrant
  dsimp only
  split
  · exact openForAttempt_of_action hr ha
  · next hp =>
    have zero : s.working.pour.preCharge = 0 := h.resolve_right fun ⟨h1, h2⟩ => hp (by rw [h1, h2]; rfl)
    have action : (withRecord k (r.inPhase .preCharge none) s).action? k = some (.opening fill a b c) :=
      (action_withRecord (r' := r.inPhase .preCharge none) hr rfl).trans ha
    rw [if_pos zero, toPhase_of_record hr, openForAttempt_of_action (record?_withRecord k _ s) action,
      modUnit_withRecord, openWindow_withRecord, withRecord_withRecord]
    rfl

/-- A POUR grant that waits for the pre-charge (R65). -/
theorem takePourGrant_waits (h : ¬ (s.working.pour.preCharge = 0 ∨
      (parkMarked k s = true ∧ s.casterLines.hydOk.isTrue = true))) : takePourGrant k s =
    withRecord k (r.inPhase .preCharge (some s.working.pour.preCharge)) s := by
  obtain ⟨hz, hp⟩ := not_or.mp h
  have park : (parkMarked k s && s.casterLines.hydOk.isTrue) = false := by
    rw [Bool.and_eq_false_iff, ← Bool.not_eq_true, ← Bool.not_eq_true]
    exact Classical.not_and_iff_not_or_not.mp hp
  simp only [takePourGrant, park, hz, if_false, Bool.false_eq_true, toPhase_of_record hr]

end

/-- A delivery outside SLOT_WAIT is nothing. -/
theorem deliverGrant_other {p : PoolId} {k : Strand} {s : State} (h : s.phase k ≠ .slotWait) :
    deliverGrant p k s = (s, []) := if_neg h

/-- A grant and its delivery, seen from before the grant. -/
theorem Delivered.served {p : PoolId} {k : Strand} {rest : List WaitEntry} {s t : State}
    (h : Delivered p k (makeGrant p k rest s) t) :
    t.pool p = { s.pool p with waits := rest, holders := (t.pool p).holders } ∧
    t.lastGranted = (makeGrant p k rest s).lastGranted ∧
    t = { s with
      strands := t.strands, units := t.units, pour := t.pour, drive := t.drive, lastGranted := t.lastGranted } ∧
    (∀ q, q ≠ p → t.pool q = s.pool q) ∧
    ∀ j, j ≠ k → (t.pool p).grant? j = (s.pool p).grant? j ∧ t.strand j = s.strand j ∧ t.unit j = s.unit j := by
  obtain ⟨h1, h2, h3, h4⟩ := h
  obtain ⟨own, others⟩ := makeGrant_pool p k rest s
  have granted := makeGrant_rest p k rest s
  have last : t.lastGranted = (makeGrant p k rest s).lastGranted := by rw [h1]
  refine ⟨by rw [h2, own], last, ?_, fun q hq => (h3 q hq).trans (others q hq), fun j hj => ?_⟩
  · rw [last]
    exact h1.trans (by rw [granted])
  · obtain ⟨grant, strand, unit⟩ := h4 j hj
    refine ⟨grant.trans ?_, strand.trans (makeGrant_strand p k rest s j), unit.trans (makeGrant_unit p k rest s j)⟩
    rw [own]
    exact look_put_ne _ _ _ _ hj

theorem answer_strand (p : PoolId) (k j : Strand) (s : State) : (answer p k s).strand j = s.strand j :=
  congrArg (Tab.look · j) (modGrant_strands _ _ _ _)

theorem openWindow_strand (k j : Strand) (s : State) : (openWindow k s).strand j = s.strand j :=
  congrArg (Tab.look · j) (modGrant_strands _ _ _ _)

section
variable {k : Strand} {rest : List WaitEntry} {s : State}

/-- The grant after the drive has answered (R95). -/
theorem answered_grant : (((answer .drive k (modUnit k UnitState.runDrive (makeGrant .drive k rest s))).pool .drive).grant? k) =
    some ⟨s.now, false, if s.working.drive.monitor then .answered else .off⟩ := by
  refine (modGrant_grant (p := .drive) (k := k) (g := newGrant .drive k s)
    (s := modUnit k UnitState.runDrive (makeGrant .drive k rest s)) (makeGrant_grant .drive k rest s) _).trans ?_
  cases hm : s.working.drive.monitor <;> simp [newGrant, responseAtGrant, monitorOn, hm]

/-- The grant after the stopper has opened (R93). -/
theorem opened_grant (fill : Nat) :
    (((openWindow k (modUnit k (UnitState.openStopper fill) (makeGrant .pour k rest s))).pool .pour).grant? k) =
      some ⟨s.now, parkTarget s == some k,
        if s.working.pour.monitor then .running (s.working.pour.responseTime * 1000) else .off⟩ := by
  refine (modGrant_grant (p := .pour) (k := k) (g := newGrant .pour k s)
    (s := modUnit k (UnitState.openStopper fill) (makeGrant .pour k rest s))
    (makeGrant_grant .pour k rest s) _).trans ?_
  cases hm : s.working.pour.monitor <;> simp [newGrant, responseAtGrant, monitorOn, responseTime, makeGrant, hm]

theorem parkMarked_makeGrant : parkMarked k (makeGrant .pour k rest s) = (parkTarget s == some k) := by
  have := makeGrant_grant .pour k rest s
  simp only [parkMarked, show (makeGrant .pour k rest s).pour.grant? k = _ from this]
  rfl

end

/-- Settles O20: a pass is a grant and its delivery; the delivery is followed through the phase it leaves. -/
theorem grantChoiceServesFirst : Obligations.GrantChoiceServesFirst := by
  intro p e rest r fill start attempts dwell s
  refine ⟨grantPass_ends p s, fun ho hc hw => ?_⟩
  rw [grantPass_serves ho hc hw]
  generalize e.strand = k
  obtain ⟨pool, last, all, others, strands⟩ := (deliverGrant_delivered (p := p) (makeGrant p k rest s)).served
  refine ⟨⟨pool, last.trans (by cases p <;> rfl), all, others, strands⟩, fun hp => ?_, fun hd hr hp => ?_, fun hd hr hp ha => ?_⟩
  · rw [deliverGrant_other (by rw [makeGrant_phase]; exact hp)]
    refine ⟨⟨?_, rfl⟩, makeGrant_strand p k rest s k, makeGrant_unit p k rest s k⟩
    rw [makeGrant_grant]
    cases p <;> rfl
  · subst hd
    have record : (makeGrant .drive k rest s).record? k = some r := hr
    have delivered : deliverGrant .drive k (makeGrant .drive k rest s) = takeDriveGrant k (makeGrant .drive k rest s) :=
      if_pos (by simp only [State.phase, record, hp])
    have run : (modUnit k UnitState.runDrive (makeGrant .drive k rest s)).unit k = { s.unit k with driveRun := true } :=
      look_put_same _ _ _
    rw [delivered]
    by_cases ready : (s.strandLines.look k).driveReady.accepted = some true
    · rw [takeDriveGrant_ready record (beq_iff_eq.mpr ready), if_pos ready]
      refine ⟨(unit_withRecord _ _ _ _).trans ((congrArg (Tab.look · k) (modGrant_units _ _ _ _)).trans run),
        ⟨answered_grant, rfl⟩, (strand_withRecord _ _ _).trans ?_⟩
      rw [answer_strand]
      rfl
    · rw [takeDriveGrant_starting record (beq_eq_false_iff_ne.mpr ready), if_neg ready]
      refine ⟨run, ⟨makeGrant_grant .drive k rest s, rfl⟩, strand_withRecord _ _ _⟩
  · subst hd
    have record : (makeGrant .pour k rest s).record? k = some r := hr
    have delivered : deliverGrant .pour k (makeGrant .pour k rest s) = (takePourGrant k (makeGrant .pour k rest s), []) :=
      if_pos (by simp only [State.phase, record, hp])
    rw [delivered]
    have accepted : (makeGrant .pour k rest s).casterLines.hydOk.isTrue = true ↔ s.casterLines.hydOk.accepted = some true :=
      beq_iff_eq
    by_cases h : s.working.pour.preCharge = 0 ∨
      ((parkTarget s == some k) = true ∧ s.casterLines.hydOk.accepted = some true)
    · rw [takePourGrant_opens record ha (by rw [parkMarked_makeGrant, accepted]; exact h), if_pos h]
      refine ⟨⟨opened_grant fill, rfl⟩, (strand_withRecord _ _ _).trans ?_, (unit_withRecord _ _ _ _).trans
        ((congrArg (Tab.look · k) (modGrant_units _ _ _ _)).trans (look_put_same _ _ _))⟩
      rw [openWindow_strand]
      rfl
    · rw [takePourGrant_waits record (by rw [parkMarked_makeGrant, accepted]; exact h), if_neg h]
      exact ⟨⟨makeGrant_grant .pour k rest s, rfl⟩, strand_withRecord _ _ _, rfl⟩

end Sys2Proof.Machine
end
section
/-! PROOFS. The sampling instants: what a change of a line's accepted level delivers (R163, R164), the class instants (R160) and
the measurement instants (R167 to R169). -/

namespace Sys2Proof.Machine

/-! ### What the passage of a line's accepted level brings

Each delivery is read off the accepted level before and after, each of them absent, false or true. -/

section
variable (k : Strand) (line : PermissiveLine) (now : Stamp) (old new : Line)

theorem lineNews_self : lineNews old old = .nothing := by
  unfold lineNews
  cases old.accepted <;> simp

theorem newsBreakout_eq : newsBreakout k (lineNews old new) =
    if old.accepted ≠ some true ∧ new.accepted = some true then [.breakoutAlarmRise k] else [] := by
  unfold lineNews
  rcases old.accepted with _ | _ | _ <;> rcases new.accepted with _ | _ | _ <;> rfl

theorem newsPermissive_eq : newsPermissive line (lineNews old new) =
    if new.accepted ≠ none ∧ old.accepted ≠ new.accepted then [.permissiveLevelChange line] else [] := by
  unfold lineNews
  rcases old.accepted with _ | _ | _ <;> rcases new.accepted with _ | _ | _ <;> rfl

theorem newsDriveReady_eq : newsDriveReady k (lineNews old new) =
    (if old.accepted = some (!true) ∧ new.accepted = some true then [.driveReadyRise k] else [])
      ++ (if old.accepted = some (!false) ∧ new.accepted = some false then [.driveReadyFall k] else [])
      ++ (if new.accepted ≠ none ∧ old.accepted ≠ new.accepted then [.permissiveLevelChange (.driveReady k)] else []) := by
  unfold lineNews
  rcases old.accepted with _ | _ | _ <;> rcases new.accepted with _ | _ | _ <;> rfl

theorem newsSteel_eq : newsSteel k (lineNews old new) =
    if old.accepted = none then (new.accepted.map (.steelPresentFirstLevel k)).toList else [] := by
  unfold lineNews
  rcases old.accepted with _ | _ | _ <;> rcases new.accepted with _ | _ | _ <;> rfl

theorem newsSupply_eq : newsSupply now (lineNews old new) =
    (if old.accepted = none then (new.accepted.map (.supplyOkFirstLevel · now)).toList else [])
      ++ (if old.accepted = some (!true) ∧ new.accepted = some true then [.supplyOkRise now] else [])
      ++ (if old.accepted = some (!false) ∧ new.accepted = some false then [.supplyOkFall now] else []) := by
  unfold lineNews
  rcases old.accepted with _ | _ | _ <;> rcases new.accepted with _ | _ | _ <;> rfl

theorem newsTcRequest_eq : newsTcRequest (lineNews old new) =
    if old.accepted = some (!true) ∧ new.accepted = some true then [.tcRequestRise] else [] := by
  unfold lineNews
  rcases old.accepted with _ | _ | _ <;> rcases new.accepted with _ | _ | _ <;> rfl

theorem newsTundish_eq : newsTundish (lineNews old new) =
    if old.accepted = some (!true) ∧ new.accepted = some true then [.tundishInPlaceRise] else [] := by
  unfold lineNews
  rcases old.accepted with _ | _ | _ <;> rcases new.accepted with _ | _ | _ <;> rfl

end

/-! ### The class instants -/

/-- A strand's lines at a class A instant deliver the breakout alarm's news alone. -/
theorem strandNews_classA (k : Strand) (p : Presented) (l : StrandLines) : strandNews k l (sampleStrandA p l) =
    newsBreakout k (lineNews l.breakoutAlarm (l.breakoutAlarm.sample p)) := by
  simp only [strandNews, sampleStrandA, lineNews_self]
  simp [newsDriveReady, newsPermissive, newsSteel]

/-- A strand's lines at a class B instant deliver the other four lines' news. -/
theorem strandNews_classB (k : Strand) (p : StrandClassB) (l : StrandLines) : strandNews k l (sampleStrandB p l) =
    newsDriveReady k (lineNews l.driveReady (l.driveReady.sample p.driveReady))
      ++ newsPermissive (.dummyAtMold k) (lineNews l.dummyAtMold (l.dummyAtMold.sample p.dummyAtMold))
      ++ newsSteel k (lineNews l.steelPresent (l.steelPresent.sample p.steelPresent))
      ++ newsPermissive (.moldWaterOk k) (lineNews l.moldWaterOk (l.moldWaterOk.sample p.moldWaterOk)) := by
  simp only [strandNews, sampleStrandB, lineNews_self]
  simp [newsBreakout]

theorem casterNews_classA (now : Stamp) (p : ClassALevels) (l : CasterLines) : casterNews now l (sampleCasterA p l) =
    newsSupply now (lineNews l.supplyOk (l.supplyOk.sample p.supplyOk)) := by
  simp only [casterNews, sampleCasterA, lineNews_self]
  simp [newsTcRequest, newsTundish, newsPermissive]

theorem casterNews_classB (now : Stamp) (p : ClassBLevels) (l : CasterLines) : casterNews now l (sampleCasterB p l) =
    newsTcRequest (lineNews l.tcRequest (l.tcRequest.sample p.tcRequest))
      ++ newsTundish (lineNews l.tundishInPlace (l.tundishInPlace.sample p.tundishInPlace))
      ++ newsPermissive .hydOk (lineNews l.hydOk (l.hydOk.sample p.hydOk)) := by
  simp only [casterNews, sampleCasterB, lineNews_self]
  simp [newsSupply]

theorem takeClassA_strandLines (a : ClassALevels) (s : State) (k : Strand) :
    (takeClassA a s).strandLines.look k = sampleStrandA (a.breakoutAlarm.look k) (s.strandLines.look k) := look_ofFn _ k

theorem takeClassB_strandLines (b : ClassBLevels) (s : State) (k : Strand) :
    (takeClassB b s).strandLines.look k = sampleStrandB (b.strands.look k) (s.strandLines.look k) := look_ofFn _ k

theorem takeClassA_inFlight (a : ClassALevels) (s : State) : (takeClassA a s).inFlight = s.inFlight
    ++ (allStrands.flatMap (fun k => strandNews k (s.strandLines.look k) ((takeClassA a s).strandLines.look k))
      ++ casterNews s.now s.casterLines (sampleCasterA a s.casterLines)) := rfl

theorem takeClassB_inFlight (b : ClassBLevels) (s : State) : (takeClassB b s).inFlight = s.inFlight
    ++ (allStrands.flatMap (fun k => strandNews k (s.strandLines.look k) ((takeClassB b s).strandLines.look k))
      ++ casterNews s.now s.casterLines (sampleCasterB b s.casterLines)) := rfl

/-! ### The measurement instant -/

theorem markSample_valid {limit : Nat} {v : Int} {mark : Bool} (hm : mark = true) (h0 : 0 ≤ v) (h : v ≤ (limit : Int)) :
    markSample limit (.present v mark) = .valid v.toNat := if_pos ⟨hm, h0, h⟩

theorem markSample_invalid {limit : Nat} {v : Int} {mark : Bool} (h : mark = false ∨ v < 0 ∨ (limit : Int) < v) :
    markSample limit (.present v mark) = .invalid := by
  refine if_neg fun ⟨hm, h0, hv⟩ => ?_
  rcases h with h | h | h
  · exact absurd (h.symm.trans hm) nofun
  · omega
  · omega

theorem routeStrand_eq (p : MeasurementLevels) (s : State) (k : Strand) : routeStrand p s k =
    if s.inService k = false then []
    else if s.inOpenStep k then
      [.depthSampleUnit k (markSample 300 (p.depth.look k)), .depthSampleOpenStep k (markSample 300 (p.depth.look k)),
        .speedReferenceSample k (markSample 600 (p.speed.look k))]
    else
      [.depthSampleUnit k (markSample 300 (p.depth.look k)),
        .speedReferenceSample k (markSample 600 (p.speed.look k))] := by
  unfold routeStrand
  cases s.inService k <;> cases s.inOpenStep k <;> rfl

/-- Settles O44: an instant's effect is the sampled lines and what their passage brings; each delivery is that of its line. -/
theorem instantsSampleAndRoute : Obligations.InstantsSampleAndRoute := by
  intro a b k p limit v mark s
  refine ⟨⟨?_, ?_⟩, rfl, markSample_invalid, markSample_valid, ?_⟩
  · obtain ⟨t, reached, same, -⟩ := event_acts (i := .filterSample (.classA a)) ⟨rfl, nofun⟩ s
    have lines : t.strandLines = (takeClassA a s).strandLines := by rw [same]; rfl
    have caster : t.casterLines = sampleCasterA a s.casterLines := by rw [same]; rfl
    have sent : t.inFlight = (takeClassA a s).inFlight := same.inFlight
    refine ⟨t, reached, by rw [lines]; exact takeClassA_strandLines a s k, caster, ?_, ?_⟩
    · rw [lines, caster, sent]
      exact same
    · rw [sent, takeClassA_inFlight, lines, caster, casterNews_classA, newsSupply_eq]
      simp only [takeClassA_strandLines, strandNews_classA, newsBreakout_eq, List.append_assoc]
      rfl
  · obtain ⟨t, reached, same, -⟩ := event_acts (i := .filterSample (.classB b)) ⟨rfl, nofun⟩ s
    have lines : t.strandLines = (takeClassB b s).strandLines := by rw [same]; rfl
    have caster : t.casterLines = sampleCasterB b s.casterLines := by rw [same]; rfl
    have sent : t.inFlight = (takeClassB b s).inFlight := same.inFlight
    refine ⟨t, reached, by rw [lines]; exact takeClassB_strandLines b s k, caster, ?_, ?_⟩
    · rw [lines, caster, sent]
      exact same
    · rw [sent, takeClassB_inFlight, lines, caster, casterNews_classB, newsTcRequest_eq, newsTundish_eq, newsPermissive_eq]
      simp only [takeClassB_strandLines, strandNews_classB, newsDriveReady_eq, newsPermissive_eq, newsSteel_eq,
        List.append_assoc]
      rfl
  · obtain ⟨t, reached, same, -⟩ := event_acts (i := .measurementInstant p) ⟨rfl, nofun⟩ s
    have sent : t.inFlight = (takeMeasurement p s).inFlight := same.inFlight
    refine ⟨t, reached, ?_, ?_, routeStrand_eq p s k⟩
    · rw [sent]
      exact same
    · rw [sent, List.append_assoc]
      rfl

end Sys2Proof.Machine
end
section
/-! PROOFS. The receiver (R185) and the checks of a received request's kind and body length (R187). -/

namespace Sys2Proof.Machine

/-! ### Assembling a frame -/

theorem half_toNat (lo hi : Byte) : (half lo hi).toNat = hi.toNat * 256 + lo.toNat := by
  have hlo : lo.toNat < 2 ^ 8 := lo.isLt
  rw [half, BitVec.toNat_append, ← Nat.shiftLeft_add_eq_or_of_lt hlo, Nat.shiftLeft_eq]

/-- Two bytes of a number spell it (R184). -/
theorem half_ofNat_toNat {n : Nat} (h : n < 65536) :
    (half (BitVec.ofNat 8 n) (BitVec.ofNat 8 (n / 256))).toNat = n := by
  rw [half_toNat, BitVec.toNat_ofNat, BitVec.toNat_ofNat]
  omega

theorem assemble_long {lo hi : Byte} (h : 400 < (half lo hi).toNat) : assemble [lo, hi] = .discarded := if_pos h

/-- A frame that has told its length is partial until it is as long as that (R185). -/
theorem assemble_partial {l : List Byte} {n : Nat} (hn : statedLength l = some n) (h : n ≤ 400) (hl : l.length < n + 6) :
    assemble l = .partialFrame := by
  have short : ¬ Config.maxBody < n := Nat.not_lt.mpr h
  simp only [assemble, hn, short, hl, if_true, if_false]

/-- A frame as long as it has told is judged by its CRC (R185). -/
theorem assemble_checked {l : List Byte} {n : Nat} (hn : statedLength l = some n) (h : n ≤ 400) (hl : n + 6 ≤ l.length) :
    assemble l = checkFrame n l := by
  have short : ¬ Config.maxBody < n := Nat.not_lt.mpr h
  have whole : ¬ l.length < n + 6 := Nat.not_lt.mpr hl
  simp only [assemble, hn, short, whole, if_false]

/-- The parts of a whole frame. -/
theorem checkFrame_eq (l0 l1 tag kind c0 c1 : Byte) (body : List Byte) :
    checkFrame body.length ([l0, l1, tag, kind] ++ body ++ [c0, c1]) =
      if crc ([l0, l1, tag, kind] ++ body) = half c0 c1 then .complete tag kind body else .discarded := by
  have hl : ([l0, l1, tag, kind] ++ body).length = 4 + body.length := by rw [List.length_append]; rfl
  have content : ((([l0, l1, tag, kind] ++ body ++ [c0, c1]).drop 4).take body.length) = body :=
    List.take_left' (l₁ := body) rfl
  rw [checkFrame, List.take_left' hl, List.drop_left' hl, content]
  rfl

/-- A whole frame, its length told as the link tells it, is judged by its CRC (R185). -/
theorem assemble_whole (tag kind c0 c1 : Byte) (body : List Byte) (h : body.length ≤ 400) :
    assemble ([BitVec.ofNat 8 body.length, BitVec.ofNat 8 (body.length / 256), tag, kind] ++ body ++ [c0, c1]) =
      if half c0 c1 = crc ([BitVec.ofNat 8 body.length, BitVec.ofNat 8 (body.length / 256), tag, kind] ++ body) then
        .complete tag kind body
      else .discarded := by
  have stated : statedLength ([BitVec.ofNat 8 body.length, BitVec.ofNat 8 (body.length / 256), tag, kind] ++ body ++ [c0, c1])
      = some body.length := congrArg some (half_ofNat_toNat (by omega))
  rw [assemble_checked stated h, checkFrame_eq]
  · simp only [eq_comm]
  · simp only [List.length_append, List.length_cons, List.length_nil]
    omega

/-! ### What the receiver does with a byte -/

section
variable {s : State} {b tag kind : Byte} {bytes body : List Byte} {gap : Nat}

theorem receivedByte_noise (h : s.receiver = .hunting) (hb : b ≠ 0xA7) : exec (.receivedByte b) s = .next s := by
  refine congrArg Host.Outcome.next ?_
  simp only [receiveByte, h]
  exact if_neg hb

theorem receivedByte_sync (h : s.receiver = .hunting) :
    exec (.receivedByte 0xA7) s = .next { s with receiver := .assembling [] 5 } := by
  refine congrArg Host.Outcome.next ?_
  simp only [receiveByte, h]
  exact if_pos rfl

theorem receivedByte_assembling (h : s.receiver = .assembling bytes gap) :
    exec (.receivedByte b) s = .next (takeAssembly (bytes ++ [b]) s) := by
  refine congrArg Host.Outcome.next ?_
  simp only [receiveByte, h]

theorem receivedByte_partial (h : s.receiver = .assembling bytes gap) (ha : assemble (bytes ++ [b]) = .partialFrame) :
    exec (.receivedByte b) s = .next { s with receiver := .assembling (bytes ++ [b]) 5 } := by
  rw [receivedByte_assembling h, takeAssembly, ha]
  rfl

theorem receivedByte_discarded (h : s.receiver = .assembling bytes gap) (ha : assemble (bytes ++ [b]) = .discarded) :
    exec (.receivedByte b) s = .next { s with receiver := .hunting } := by
  rw [receivedByte_assembling h, takeAssembly, ha]

/-- The last byte of a frame is the request that the frame is. -/
theorem receivedByte_complete (h : s.receiver = .assembling bytes gap)
    (ha : assemble (bytes ++ [b]) = .complete tag kind body) :
    exec (.receivedByte b) s = request tag kind (receivedRequest kind body) { s with receiver := .hunting } := by
  rw [receivedByte_assembling h, takeAssembly, ha]
  rfl

end

/-! ### The kind and the length of a body -/

/-- A body of any length but `n` is refused with BAD_FIELD. -/
def Takes (n : Nat) (f : List Byte → Handler) : Prop := ∀ l, l.length ≠ n → f l = refuse .badField

theorem bare_takes (h : Handler) : Takes 0 (bare h) := fun l hl => by
  unfold bare; split
  · exact absurd rfl hl
  · rfl

theorem oneByte_takes (h : Byte → Handler) : Takes 1 (oneByte h) := fun l hl => by
  unfold oneByte; split
  · exact absurd rfl hl
  · rfl

theorem twoBytes_takes (h : Byte → Byte → Handler) : Takes 2 (twoBytes h) := fun l hl => by
  unfold twoBytes; split
  · exact absurd rfl hl
  · rfl

theorem receiveNoticeClear_takes : Takes 4 receiveNoticeClear := fun l hl => by
  unfold receiveNoticeClear; split
  · exact absurd rfl hl
  · rfl

theorem receiveStrandControl_takes : Takes 5 receiveStrandControl := fun l hl => by
  unfold receiveStrandControl; split
  · exact absurd rfl hl
  · rfl

theorem receiveMapWrite_takes : Takes 9 receiveMapWrite := fun l hl => by
  unfold receiveMapWrite; split
  · exact absurd rfl hl
  · rfl

theorem receiveSettingsWrite_takes : Takes 11 receiveSettingsWrite := fun l hl => by
  unfold receiveSettingsWrite; split
  · exact absurd rfl hl
  · rfl

theorem receiveStrandSettings_takes : Takes 21 receiveStrandSettings := fun l hl => by
  unfold receiveStrandSettings; split
  · exact absurd rfl hl
  · rfl

theorem receiveNoticeLevels_takes : Takes 29 receiveNoticeLevels := fun _ hl => if_neg hl

theorem receivedRequest_unknown {kind : Byte} (h : kind = 0 ∨ 0x21 < kind.toNat) (body : List Byte) :
    receivedRequest kind body = refuse .unknownKind := by
  have hk : kind.toNat = 0 ∨ 0x21 < kind.toNat := h.imp_left fun h => by rw [h]; rfl
  unfold receivedRequest
  split <;> first | rfl | omega

theorem receivedRequest_takes {kind : Byte} {n : Nat} (h : requiredLength? kind = some n) :
    Takes n (receivedRequest kind) := by
  intro l hl
  unfold requiredLength? at h
  unfold receivedRequest
  generalize kind.toNat = m at h
  split at h <;> cases h
  iterate 9 (· exact bare_takes _ l hl)
  iterate 12 (· exact oneByte_takes _ l hl)
  iterate 4 (· exact twoBytes_takes _ l hl)
  · exact receiveNoticeClear_takes l hl
  · exact receiveStrandControl_takes l hl
  · exact receiveMapWrite_takes l hl
  · exact receiveSettingsWrite_takes l hl
  · exact receiveStrandSettings_takes l hl
  · exact receiveNoticeLevels_takes l hl

/-- PLAN WRITE's body is taken at the length alone that its name length and its step count call for (R31, R195). -/
theorem receivePlanWrite_refuses {body : List Byte} (h : body.length < 4 ∨ (∃ n, body[1]?.map (·.toNat) = some n ∧
    ∀ c, body[3 + n]?.map (·.toNat) = some c → body.length ≠ 4 + n + 12 * c)) : receivePlanWrite body = refuse .badField := by
  unfold receivePlanWrite
  split
  · next number len rest =>
    split
    · rfl
    · next hr =>
      have tail : readRawTail (rest.take len.toNat) (rest.drop len.toNat) = none := by
        unfold readRawTail
        split
        · next kind count tail ht =>
          refine if_neg fun hc => ?_
          have length := congrArg List.length ht
          simp only [List.length_drop, List.length_cons] at length
          rcases h with h | ⟨n, hn, hb⟩
          · simp only [List.length_cons] at h; omega
          · cases hn
            refine hb count.toNat ?_ ?_
            · have place : rest[len.toNat + 1]? = some count := by rw [← List.getElem?_drop, ht]; rfl
              rw [show 3 + len.toNat = len.toNat + 1 + 1 + 1 by omega, List.getElem?_cons_succ, List.getElem?_cons_succ, place]
              rfl
            · simp only [List.length_cons]; omega
        · rfl
      rw [tail]
  · rfl

/-- ARBITER WRITE's body is taken at 9 bytes for POUR and at 6 for DRIVE (R101). -/
theorem receiveArbiterWrite_refuses {body : List Byte} (h1 : body.head? = some 1 → body.length ≠ 9)
    (h2 : body.head? = some 2 → body.length ≠ 6) : receiveArbiterWrite body = refuse .badField := by
  unfold receiveArbiterWrite
  split
  · exact if_neg fun h => h1 (congrArg some h) rfl
  · exact if_neg fun h => h2 (congrArg some h) rfl
  · rfl

/-- Settles O6: a byte moves the receiver by what the bytes so far come to; a whole frame is a request, refused by its kind or
by its body's length. -/
theorem receiverAssembles : Obligations.ReceiverAssembles := by
  intro s b lo hi bytes body tag kind c0 c1 gap
  refine ⟨receivedByte_noise, fun h hb => hb ▸ receivedByte_sync h, receivedByte_partial, receivedByte_discarded, assemble_long,
    assemble_whole tag kind c0 c1 body, rfl, fun h ha => ?_⟩
  rw [receivedByte_complete h ha]
  refine ⟨fun hq => congrArg Host.Outcome.next (handleRequest_full _ _ _ { s with receiver := .hunting } hq), fun hq hk => ?_,
    fun n hq hn hl => ?_, fun hq hk hb => ?_, fun hq hk h1 h2 => ?_⟩
  · exact request_refuses _ _ _ .unknownKind { s with receiver := .hunting } hq (congrFun (receivedRequest_unknown hk body) _)
  · exact request_refuses _ _ _ .badField { s with receiver := .hunting } hq
      (congrFun (receivedRequest_takes hn body hl) _)
  · subst hk
    exact request_refuses _ _ _ .badField { s with receiver := .hunting } hq (congrFun (receivePlanWrite_refuses hb) _)
  · subst hk
    exact request_refuses _ _ _ .badField { s with receiver := .hunting } hq (congrFun (receiveArbiterWrite_refuses h1 h2) _)

end Sys2Proof.Machine
end
section
/-! PROOFS. A request's frame, received byte by byte, is the request (R184 to R187, section 10.3): its bytes are assembled, and
its body read back as the operands it was made of. -/

namespace Sys2Proof.Machine

/-! ### The bytes of a frame -/

theorem runAll_one (c : Instr) (s : State) : runAll [c] s = exec c s := by
  unfold runAll runAll
  cases exec c s <;> rfl

/-- What a frame has told of its length before its end. -/
theorem assemble_prefix {l r : List Byte} {n : Nat} (hn : statedLength (l ++ r) = some n) (h : n ≤ 400)
    (hl : l.length < n + 6) : assemble l = .partialFrame :=
  match l with
  | [] => rfl
  | [_] => rfl
  | _ :: _ :: _ => assemble_partial hn h hl

/-- The bytes of a frame but the last are gathered (R185). -/
theorem runAll_gathers {n : Nat} (h : n ≤ 400) (r : List Byte) : ∀ (l pre : List Byte) (g : Nat) (s : State),
    s.receiver = .assembling pre g → statedLength (pre ++ (l ++ r)) = some n → (pre ++ l).length < n + 6 →
    ∃ g', runAll ((l ++ r).map .receivedByte) s = runAll (r.map .receivedByte) { s with receiver := .assembling (pre ++ l) g' }
  | [], pre, g, s, hs, _, _ => ⟨g, by rw [List.append_nil, ← hs]; rfl⟩
  | b :: l, pre, g, s, hs, hn, hl => by
    have shift : ∀ m : List Byte, pre ++ [b] ++ m = pre ++ b :: m := fun m => by rw [List.append_assoc]; rfl
    have so_far : assemble (pre ++ [b]) = .partialFrame := by
      refine assemble_prefix (r := l ++ r) (by rw [shift]; exact hn) h ?_
      rw [List.length_append] at hl ⊢
      exact Nat.lt_of_le_of_lt (Nat.add_le_add_left (Nat.le_add_left 1 l.length) _) hl
    obtain ⟨g', hg⟩ := runAll_gathers h r l (pre ++ [b]) 5 { s with receiver := .assembling (pre ++ [b]) 5 } rfl
      (by rw [shift]; exact hn) (by rw [shift]; exact hl)
    rw [shift] at hg
    refine ⟨g', Eq.trans ?_ hg⟩
    rw [List.cons_append, List.map_cons, runAll, receivedByte_partial hs so_far]

/-- A frame is the request of its kind and body. -/
theorem runAll_wire (f : Frame) (s : State) (hb : f.body.length ≤ 400) (hs : s.receiver = .hunting) :
    runAll (f.wire.map .receivedByte) s = request f.tag f.kind (receivedRequest f.kind f.body) s := by
  obtain ⟨c0, c1, hc⟩ : ∃ c0 c1, u16 (crc f.covered).toNat = [c0, c1] := ⟨_, _, rfl⟩
  have sum : half c0 c1 = crc f.covered := by
    cases hc
    exact BitVec.eq_of_toNat_eq (half_ofNat_toNat (crc f.covered).isLt)
  have wire : f.wire = 0xA7 :: (f.covered ++ [c0] ++ [c1]) := by
    rw [Frame.wire, hc, List.append_assoc, List.append_assoc]
    rfl
  have stated : statedLength (f.covered ++ [c0] ++ [c1]) = some f.body.length :=
    congrArg some (half_ofNat_toNat (by omega))
  have covered : f.covered.length = f.body.length + 4 := by
    simp only [Frame.covered, List.length_append, length_u16, List.length_cons, List.length_nil]
    omega
  obtain ⟨g, gathered⟩ := runAll_gathers hb [c1] (f.covered ++ [c0]) [] 5 { s with receiver := .assembling [] 5 } rfl stated (by
    rw [List.nil_append, List.length_append, covered]
    exact Nat.lt_succ_self _)
  have whole : assemble (f.covered ++ [c0] ++ [c1]) = .complete f.tag f.kind f.body := by
    rw [List.append_assoc]
    exact (assemble_whole f.tag f.kind c0 c1 f.body hb).trans (if_pos sum)
  rw [wire, List.map_cons, runAll, receivedByte_sync hs]
  refine gathered.trans ((runAll_one _ _).trans ?_)
  rw [receivedByte_complete (s := { s with receiver := .assembling ([] ++ (f.covered ++ [c0])) g }) rfl whole]
  refine congrArg (request f.tag f.kind (receivedRequest f.kind f.body)) ?_
  rw [← hs]

/-! ### Bodies read back -/

/-- A two-byte field reads back (R184). -/
theorem half_of_bytes (h : Half) : half (BitVec.ofNat 8 h.toNat) (BitVec.ofNat 8 (h.toNat / 256)) = h :=
  BitVec.eq_of_toNat_eq (half_ofNat_toNat h.isLt)

theorem receiveSettingsWrite_bytes (b : CasterBody) : receiveSettingsWrite (casterBodyBytes b) = handleSettingsWrite b := by
  simp only [casterBodyBytes, halfBytes, u16, List.cons_append, List.nil_append, receiveSettingsWrite, half_of_bytes]

theorem exists_vector4 (v : Tab 4 Byte) : ∃ a b c d, v = #v[a, b, c, d] := by
  obtain ⟨⟨l⟩, hl⟩ := v
  match l, hl with
  | [a, b, c, d], _ => exact ⟨a, b, c, d, rfl⟩

theorem receiveStrandSettings_bytes (k : Byte) (b : StrandBody) :
    receiveStrandSettings (k :: strandBodyBytes b) = handleStrandSettings k b := by
  obtain ⟨grade, pc, dc, freeze, hold, breakout, target, lb, ub, lc, uc⟩ := b
  obtain ⟨h1, h2, h3, h4, rfl⟩ := exists_vector4 hold
  obtain ⟨b1, b2, b3, b4, rfl⟩ := exists_vector4 breakout
  change handleStrandSettings k ⟨half _ _, pc, dc, half _ _, #v[h1, h2, h3, h4], #v[b1, b2, b3, b4], half _ _, lb, ub, lc, uc⟩ = _
  rw [half_of_bytes, half_of_bytes, half_of_bytes]

theorem receiveMapWrite_bytes (b : WindowBody) : receiveMapWrite (windowBodyBytes b) = handleMapWrite b := by
  simp only [windowBodyBytes, halfBytes, u16, List.cons_append, List.nil_append, receiveMapWrite, half_of_bytes]

theorem receiveArbiterWrite_bytes (b : ArbiterBody) (h : b.wellFormed = true) :
    receiveArbiterWrite (arbiterBodyBytes b) = handleArbiterWrite b := by
  cases b with
  | pour cap mon resp rise pre pol sel =>
    simp only [arbiterBodyBytes, halfBytes, u16, List.cons_append, List.nil_append, receiveArbiterWrite, half_of_bytes, if_true]
  | drive cap mon resp inrush =>
    simp only [arbiterBodyBytes, halfBytes, u16, List.cons_append, List.nil_append, receiveArbiterWrite, half_of_bytes, if_true]
  | other pool =>
    simp only [ArbiterBody.wellFormed, Bool.and_eq_true, bne_iff_ne] at h
    exact if_neg h.1

theorem receiveNoticeLevels_bytes (l : Tab 29 Byte) : receiveNoticeLevels l.toList = handleNoticeLevels l := by
  have levels : (Vector.ofFn fun n : Fin 29 => l.toList.getD n.val 0) = l := by
    refine Vector.ext fun i hi => ?_
    simp
  rw [receiveNoticeLevels, if_pos l.length_toList, levels]

theorem append_toNat {w : Nat} (hi : BitVec w) (lo : Byte) : (hi ++ lo).toNat = hi.toNat * 256 + lo.toNat := by
  have hlo : lo.toNat < 2 ^ 8 := lo.isLt
  rw [BitVec.toNat_append, ← Nat.shiftLeft_add_eq_or_of_lt hlo, Nat.shiftLeft_eq]

theorem receiveNoticeClear_bytes (m : BitVec 32) : receiveNoticeClear (maskBytes m) = handleNoticeClear m := by
  refine congrArg handleNoticeClear (BitVec.eq_of_toNat_eq ?_)
  have := m.isLt
  rw [append_toNat, append_toNat, append_toNat]
  simp only [BitVec.toNat_ofNat]
  omega

/-! ### A plan's record read back -/

theorem length_rawStepBytes (r : RawStep) : (rawStepBytes r).length = 12 := by
  simp [rawStepBytes, halfBytes]

theorem readRawStep_bytes (r : RawStep) (l : List Byte) : readRawStep (rawStepBytes r ++ l) = r := by
  obtain ⟨action, time, params⟩ := r
  have values : (Vector.ofFn fun i : Fin 9 => (params.toList ++ l).getD i.val 0) = params := by
    refine Vector.ext fun i hi => ?_
    have inside : i < params.toList.length := by rw [Vector.length_toList]; exact hi
    simp [List.getElem?_append_left inside, Vector.getElem?_eq_getElem hi]
  exact congr (congrArg (RawStep.mk action) (half_of_bytes time)) values

theorem readRawSteps_bytes : ∀ (l : List RawStep), readRawSteps l.length (l.flatMap rawStepBytes) = l
  | [] => rfl
  | r :: l => by
    rw [List.flatMap_cons, List.length_cons, readRawSteps, readRawStep_bytes, List.drop_left' (length_rawStepBytes r),
      readRawSteps_bytes l]

theorem readRawTail_bytes (p : RawPlan) (h : p.steps.length ≤ 255) :
    readRawTail p.name (p.kind :: BitVec.ofNat 8 p.steps.length :: p.steps.flatMap rawStepBytes) = some p := by
  have count : (BitVec.ofNat 8 p.steps.length).toNat = p.steps.length := toNat_byte (Nat.lt_succ_of_le h) (Nat.le_refl _)
  have length : (p.steps.flatMap rawStepBytes).length = 12 * p.steps.length := by
    simp [List.length_flatMap, length_rawStepBytes, List.map_const', List.sum_replicate_nat, Nat.mul_comm]
  rw [readRawTail, count, if_pos length, readRawSteps_bytes]

theorem receivePlanWrite_bytes (number : Byte) (p : RawPlan) (h : p.wellFormed = true) :
    receivePlanWrite (rawPlanBytes number p) = handlePlanWrite number p := by
  simp only [RawPlan.wellFormed, Bool.and_eq_true, decide_eq_true_eq] at h
  obtain ⟨⟨hn, hs⟩, -⟩ := h
  have len : (BitVec.ofNat 8 p.name.length).toNat = p.name.length := toNat_byte (Nat.lt_succ_of_le hn) (Nat.le_refl _)
  have bytes : rawPlanBytes number p = number :: BitVec.ofNat 8 p.name.length ::
      (p.name ++ p.kind :: BitVec.ofNat 8 p.steps.length :: p.steps.flatMap rawStepBytes) := by
    simp [rawPlanBytes, u8]
  have fits : ¬ (p.name ++ p.kind :: BitVec.ofNat 8 p.steps.length :: p.steps.flatMap rawStepBytes).length < p.name.length := by
    rw [List.length_append]
    omega
  rw [bytes, receivePlanWrite, len, if_neg fits, List.take_left' rfl, List.drop_left' rfl, readRawTail_bytes p hs]

theorem rawPlanBytes_length (number : Byte) (p : RawPlan) (h : p.wellFormed = true) :
    (rawPlanBytes number p).length ≤ 400 := by
  simp only [RawPlan.wellFormed, Bool.and_eq_true, decide_eq_true_eq] at h
  obtain ⟨-, fits⟩ := h
  change _ ≤ 400 at fits
  simp only [rawPlanBytes, List.length_append, List.length_flatMap, length_rawStepBytes, length_u8, List.length_cons,
    List.length_nil, List.map_const', List.sum_replicate_nat]
  omega

/-! ### A request's frame -/

/-- Every request's body fits a frame (R184). -/
theorem requestFrame_fits {i : Instr} {f : Frame} (hf : requestFrame? i = some f) (hw : i.wellFormed = true) :
    f.body.length ≤ 400 := by
  cases i <;> cases hf
  case planWrite tag n p => exact rawPlanBytes_length n p hw
  case noticeLevels tag l => exact Nat.le_trans (Nat.le_of_eq l.length_toList) (by decide)
  case arbiterWrite tag b => cases b <;> exact Nat.le_of_ble_eq_true rfl
  case strandSettings tag k b =>
    simp only [strandBodyBytes, halfBytes, List.length_append, List.length_cons, List.length_nil, length_u16,
      Vector.length_toList]
    decide
  all_goals exact Nat.le_of_ble_eq_true rfl

/-- A request's frame reaches the request's own handler. -/
theorem receivedRequest_frame {i : Instr} {f : Frame} {h : Handler} (hf : requestFrame? i = some f) (hw : i.wellFormed = true)
    (hh : handlerOf i = some h) : receivedRequest f.kind f.body = h := by
  cases i <;> cases hf <;> cases hh
  case settingsWrite tag b => exact receiveSettingsWrite_bytes b
  case strandSettings tag k b => exact receiveStrandSettings_bytes k b
  case planWrite tag n p => exact receivePlanWrite_bytes n p hw
  case mapWrite tag b => exact receiveMapWrite_bytes b
  case arbiterWrite tag b => exact receiveArbiterWrite_bytes b hw
  case noticeLevels tag l => exact receiveNoticeLevels_bytes l
  case noticeClear tag m => exact receiveNoticeClear_bytes m
  all_goals rfl

/-- Settles O7: the bytes are gathered to the frame, and the frame's body is read back as the command's operands. -/
theorem requestFrameIsTheCommand : Obligations.RequestFrameIsTheCommand := by
  intro i f s hf hw hs
  obtain ⟨h, hh, he⟩ := exec_request hf
  rw [he s, runAll_wire f s (requestFrame_fits hf hw) hs, receivedRequest_frame hf hw hh]

end Sys2Proof.Machine
end
section
/-! PROOFS. A notice owed stays owed through everything that the strand blocks do (R177): only the choice and the clearing of
flags take one back. -/

namespace Sys2Proof.Machine

/-- Every pending flag of `s` is pending in `t`. -/
def Owed (s t : State) : Prop := ∀ n, s.noticePending.look n = true → t.noticePending.look n = true

theorem Owed.refl (s : State) : Owed s s := fun _ h => h

theorem Owed.trans {s t u : State} (a : Owed s t) (b : Owed t u) : Owed s u := fun n h => b n (a n h)

theorem owed_of_eq {s t : State} (h : t.noticePending = s.noticePending) : Owed s t := fun n hn => by rw [h]; exact hn

/-- A flag that is pending stays so. -/
theorem Owed.noticed {s t : State} (h : Owed s t) {src : Source} (hs : s.noticePending.look src.number = true) :
    Noticed t src := .inl (h _ hs)

/-! ### The named updates -/

theorem pend_owed (src : Source) (s : State) : Owed s (pend src s) := fun n h => pend_look_mono src n s h

theorem modRecord_owed (k : Strand) (f : RestartRecord → RestartRecord) (s : State) : Owed s (modRecord k f s) :=
  owed_of_eq (modRecord_noticePending k s f)

theorem modStrand_owed (k : Strand) (f : StrandContext → StrandContext) (s : State) : Owed s (modStrand k f s) :=
  owed_of_eq rfl

theorem updUnit_owed (k : Strand) (f : UnitState → UnitState) (s : State) : Owed s (updUnit k f s) := by
  unfold updUnit
  split
  · exact owed_of_eq rfl
  · exact (owed_of_eq (s := s) (t := modUnit k f s) rfl).trans (pend_owed _ _)

theorem modReported_owed (k : Strand) (f : StrandContext → StrandContext) (s : State) : Owed s (modReported k f s) := by
  unfold modReported
  split
  · exact .refl s
  · exact (modStrand_owed k f s).trans (pend_owed _ _)

theorem modPool_owed (p : PoolId) (f : Pool → Pool) (s : State) : Owed s (modPool p f s) := by
  cases p <;> exact owed_of_eq rfl

theorem modGrant_owed (p : PoolId) (k : Strand) (f : Grant → Grant) (s : State) : Owed s (modGrant p k f s) := by
  unfold modGrant
  split
  · exact modPool_owed _ _ _
  · exact .refl s

theorem writeFault_owed (k : Strand) (c : FaultCode) (d : Nat) (s : State) : Owed s (writeFault k c d s) :=
  (owed_of_eq (s := s) (t := { s with faults := s.faults.put k (some (faultAfter k c d s)) }) rfl).trans (pend_owed _ _)

theorem modCoordinator_owed (f : Coordinator → Coordinator) (s : State) : Owed s (modCoordinator f s) := owed_of_eq rfl

theorem enterSteady_owed (s : State) : Owed s (enterSteady s) := (modCoordinator_owed _ s).trans (pend_owed _ _)

theorem reportSettled_owed (k : Strand) (s : State) : Owed s (reportSettled k s) := by
  have left := (modCoordinator_owed (fun c => { c with releaseSet := c.releaseSet.erase k }) s).trans (pend_owed .tundish _)
  unfold reportSettled
  split
  · dsimp only
    split
    · exact left.trans (enterSteady_owed _)
    · exact left
  · exact .refl s

/-! ### The tasks -/

theorem makeGrant_owed (p : PoolId) (k : Strand) (l : List WaitEntry) (s : State) : Owed s (makeGrant p k l s) := by
  cases p <;> exact owed_of_eq rfl

theorem toPhase_owed (k : Strand) (ph : Phase) (t : Option Nat) (s : State) : Owed s (toPhase k ph t s) :=
  modRecord_owed _ _ _

theorem failStep_owed (k : Strand) (f : StepFailure) (s : State) : Owed s (failStep k f s) := by
  unfold failStep
  split
  · exact (modRecord_owed k _ s).trans (owed_of_eq rfl)
  · exact .refl s

theorem openForAttempt_owed (k : Strand) (s : State) : Owed s (openForAttempt k s) := by
  unfold openForAttempt
  split
  · exact ((updUnit_owed _ _ _).trans (modGrant_owed _ _ _ _)).trans (toPhase_owed _ _ _ _)
  · exact .refl s

theorem enterInrush_owed (k : Strand) (s : State) : Owed s (enterInrush k s).1 :=
  (modGrant_owed _ _ _ _).trans (toPhase_owed _ _ _ _)

theorem deliverGrant_owed (p : PoolId) (k : Strand) (s : State) : Owed s (deliverGrant p k s).1 := by
  have delivered := deliverGrant_delivered (p := p) (k := k) s
  exact owed_of_eq (by rw [delivered.1])

theorem grantPass_owed (p : PoolId) (s : State) : Owed s (grantPass p s).1 := by
  unfold grantPass
  split
  · split
    · exact .refl s
    · exact (makeGrant_owed _ _ _ _).trans (deliverGrant_owed _ _ _)
  · exact .refl s

theorem requestSlot_owed (p : PoolId) (k : Strand) (s : State) : Owed s (requestSlot p k s).1 := by
  unfold requestSlot
  split
  · exact failStep_owed _ _ _
  · exact (toPhase_owed _ _ _ _).trans (modPool_owed _ _ _)

theorem writeSource_owed (k : Strand) (src : LevelSource) (s : State) : Owed s (writeSource k src s) := by
  cases src with
  | plan p =>
    have stored : Owed s { s with working := { s.working with levels := s.working.levels.put k p } } := owed_of_eq rfl
    unfold writeSource writeLevelSet
    dsimp only
    split
    · exact stored.trans (updUnit_owed _ _ _)
    · exact stored
  | strand => exact .refl s

theorem beginLevel_owed (k : Strand) (src : LevelSource) (s : State) : Owed s (beginLevel k src s).1 := by
  unfold beginLevel
  split
  · exact failStep_owed _ _ _
  · exact ((writeSource_owed k src s).trans (updUnit_owed _ _ _)).trans (toPhase_owed _ _ _ _)

theorem beginDraw_owed (k : Strand) (a b c : Nat) (s : State) : Owed s (beginDraw k a b c s).1 := by
  unfold beginDraw
  split
  · exact (updUnit_owed _ _ _).trans (toPhase_owed _ _ _ _)
  · split
    · exact (updUnit_owed _ _ _).trans (toPhase_owed _ _ _ _)
    · exact failStep_owed _ _ _

theorem beginAction_owed (k : Strand) (a : Action) (s : State) : Owed s (beginAction k a s).1 := by
  cases a with
  | check m => exact toPhase_owed _ _ _ _
  | cool z => exact updUnit_owed _ _ _
  | drive => exact requestSlot_owed _ _ _
  | opening => exact requestSlot_owed _ _ _
  | level src => exact beginLevel_owed _ _ _
  | wait => exact toPhase_owed _ _ _ _
  | draw a b c => exact beginDraw_owed _ _ _ _ _
  | handover => exact toPhase_owed _ _ _ _

theorem finishStep_owed (k : Strand) (s : State) : Owed s (finishStep k s).1 := by
  unfold finishStep
  split
  · exact .refl s
  · split
    · exact ((modRecord_owed k _ s).trans (modRecord_owed _ _ _)).trans (pend_owed _ _)
    · exact (modRecord_owed k _ s).trans (owed_of_eq rfl)

theorem runTask_owed (t : Task) (s : State) : Owed s (runTask t s).1 := by
  cases t with
  | enterStep k =>
    unfold runTask beginStep
    dsimp only
    split
    · exact (modRecord_owed _ _ _).trans (beginAction_owed _ _ _)
    · exact .refl s
  | completeStep k => exact finishStep_owed k s
  | grantChoice p => exact grantPass_owed p s
  | inrushEnd k => exact (modPool_owed _ _ _).trans (modStrand_owed _ _ _)

theorem drain_owed (l : List Task) (s : State) : Owed s (drain l s) :=
  drain_rel Owed.refl (fun _ _ _ => Owed.trans) runTask_owed l s

theorem withdrawFrom_owed (p : PoolId) (k : Strand) (s : State) : Owed s (withdrawFrom p k s) := by
  unfold withdrawFrom
  split
  · exact (modPool_owed _ _ _).trans ((modPool_owed _ _ _).trans (drain_owed _ _))
  · exact modPool_owed _ _ _

theorem abandon_owed (k : Strand) (s : State) : Owed s (abandon k s) := by
  unfold abandon
  split
  · exact .refl s
  · exact (((modRecord_owed k _ s).trans (withdrawFrom_owed _ _ _)).trans (withdrawFrom_owed _ _ _)).trans (updUnit_owed _ _ _)

/-! ### The changes of condition -/

theorem enterHeld_owed (k : Strand) (f : HoldFlag) (s : State) : Owed s (enterHeld k f s) :=
  (((abandon_owed k s).trans (updUnit_owed _ _ _)).trans (modStrand_owed _ _ _)).trans (pend_owed _ _)

theorem enterHalted_owed (k : Strand) (c : HaltCause) (s : State) : Owed s (enterHalted k c s) :=
  ((((abandon_owed k s).trans (updUnit_owed _ _ _)).trans (modStrand_owed _ _ _)).trans (reportSettled_owed _ _)).trans
    (pend_owed _ _)

theorem enterDry_owed (k : Strand) (s : State) : Owed s (enterDry k s) :=
  ((((abandon_owed k s).trans (updUnit_owed _ _ _)).trans (modStrand_owed _ _ _)).trans (reportSettled_owed _ _)).trans
    (pend_owed _ _)

theorem enterCasting_owed (k : Strand) (s : State) : Owed s (enterCasting k s) :=
  (((abandon_owed k s).trans (modStrand_owed _ _ _)).trans (reportSettled_owed _ _)).trans (pend_owed _ _)

theorem stopStrand_owed (k : Strand) (c : HaltCause) (s : State) : Owed s (stopStrand k c s) := by
  unfold stopStrand
  split
  · exact enterHalted_owed _ _ _
  · exact enterDry_owed _ _

theorem enterRestarting_owed (k : Strand) (kind : RestartKind) (n : Fin 32) (p : Plan) (s : State) :
    Owed s (enterRestarting k kind n p s) :=
  ((owed_of_eq (s := s)
      (t := { setCondition k (.restarting (newRecord s kind n p)) s with nextSerial := s.nextSerial + 1 }) rfl).trans
    (pend_owed _ _)).trans (drain_owed _ _)

theorem restartFromHeld_owed (k : Strand) (s : State) : Owed s (restartFromHeld k s) := by
  unfold restartFromHeld
  dsimp only
  split
  · exact enterRestarting_owed _ _ _ _ _
  · exact (writeFault_owed _ _ _ _).trans (enterHalted_owed _ _ _)

theorem addHold_owed (k : Strand) (f : HoldFlag) (s : State) : Owed s (addHold k f s) := by
  unfold addHold
  cases f
  · exact modReported_owed _ _ _
  · exact ((modReported_owed _ _ _).trans (modStrand_owed _ _ _)).trans (updUnit_owed _ _ _)
  · exact modReported_owed _ _ _

theorem holdClaim_owed (f : HoldFlag) (k : Strand) (s : State) : Owed s (holdClaim f k s) := by
  unfold holdClaim
  split
  · exact enterHeld_owed _ _ _
  · exact addHold_owed _ _ _
  · split
    · exact enterHeld_owed _ _ _
    · exact enterDry_owed _ _
  all_goals exact .refl s

theorem releaseFlag_owed (f : HoldFlag) (k : Strand) (s : State) : Owed s (releaseFlag f k s) := by
  unfold releaseFlag
  dsimp only
  split
  · split
    · split
      · exact modReported_owed _ _ _
      · exact (modReported_owed _ _ _).trans (restartFromHeld_owed _ _)
    all_goals exact modReported_owed _ _ _
  · exact .refl s

theorem takeFailure_owed (k : Strand) (c : FailureClaim) (s : State) : Owed s (takeFailure k c s) := by
  unfold takeFailure
  split
  · split
    · exact (writeFault_owed _ _ _ _).trans (stopStrand_owed _ _ _)
    · exact .refl s
  · exact .refl s

theorem takeCompletion_owed (k : Strand) (n : Nat) (s : State) : Owed s (takeCompletion k n s) := by
  unfold takeCompletion
  split
  · split
    · exact enterCasting_owed _ _
    · exact .refl s
  · exact .refl s

theorem setInFlight_owed (l : List Instr) (s : State) : Owed s { s with inFlight := l } := owed_of_eq rfl

theorem takeOwnCompletion_owed (k : Strand) (s : State) : Owed s (takeOwnCompletion k s) := by
  unfold takeOwnCompletion
  split
  · split
    · exact (setInFlight_owed _ s).trans (takeCompletion_owed _ _ _)
    · exact .refl s
  · exact .refl s

theorem takeOwnFailure_owed (k : Strand) (s : State) : Owed s (takeOwnFailure k s) := by
  unfold takeOwnFailure
  split
  · exact .refl s
  · split
    · exact (setInFlight_owed _ s).trans (takeFailure_owed _ _ _)
    · exact .refl s

theorem haltClaim_owed (k : Strand) (s : State) : Owed s (haltClaim k s) := by
  unfold haltClaim
  split
  · exact (writeFault_owed _ _ _ _).trans (enterHalted_owed _ _ _)
  · exact (writeFault_owed _ _ _ _).trans (enterHalted_owed _ _ _)
  · split
    · exact (writeFault_owed _ _ _ _).trans (enterHalted_owed _ _ _)
    · exact enterDry_owed _ _
  all_goals exact .refl s

theorem lostDrive_owed (k : Strand) (s : State) : Owed s (lostDrive k s) := by
  unfold lostDrive
  split
  · exact (writeFault_owed _ _ _ _).trans (enterHalted_owed _ _ _)
  · split
    · unfold stepReadyFall
      split
      · exact toPhase_owed _ _ _ _
      · exact .refl s
    · split
      · exact (writeFault_owed _ _ _ _).trans (stopStrand_owed _ _ _)
      · exact .refl s
  · split
    · exact modStrand_owed _ _ _
    · exact .refl s
  all_goals exact .refl s

theorem reexamine_owed (k : Strand) (s : State) : Owed s (reexamine k s) := by
  unfold reexamine
  split
  · exact lostDrive_owed _ _
  · exact .refl s

theorem releaseTundish_owed (k : Strand) (s : State) : Owed s (releaseTundish k s) := by
  unfold releaseTundish
  split
  · exact (releaseFlag_owed _ _ _).trans (takeOwnFailure_owed _ _)
  · exact releaseFlag_owed _ _ _

theorem holdStrand_owed (f : HoldFlag) (k : Strand) (s : State) : Owed s (holdStrand f k s) :=
  (takeOwnCompletion_owed k s).trans (holdClaim_owed f k _)

theorem tripStrand_owed (k : Strand) (s : State) : Owed s (tripStrand k s) :=
  (takeOwnCompletion_owed k s).trans (haltClaim_owed k _)

/-! ### The caster-wide operations -/

theorem forConfigured_owed (f : Strand → State → State) (h : ∀ k s, Owed s (f k s)) (s : State) :
    Owed s (forConfigured f s) := forConfigured_rel Owed.refl (fun _ _ _ => Owed.trans) f h s

theorem openPool_owed (p : PoolId) (s : State) : Owed s (openPool p s) := by
  unfold openPool
  split
  · exact .refl s
  · exact (modPool_owed _ _ _).trans (drain_owed _ _)

theorem tripReturn_owed (s : State) : Owed s (tripReturn s) := by
  have emptied := modCoordinator_owed (fun c => { c with releaseSet := StrandSet.none }) s
  unfold tripReturn
  dsimp only
  split
  · exact emptied.trans (openPool_owed _ _)
  · exact emptied.trans ((modCoordinator_owed _ _).trans ((pend_owed _ _).trans (openPool_owed _ _)))

end Sys2Proof.Machine
end
section
/-! PROOFS. The end of a restart or a cast with its fault (R12, R13, R172): what becomes of the strand, its fault record and its
place in the release set; the claims of the Restart Sequencer (R17, R56) and ABORT (R23). -/

namespace Sys2Proof.Machine

/-! ### The contexts that a change of condition leaves -/

theorem updUnit_strand (k j : Strand) (f : UnitState → UnitState) (s : State) : (updUnit k f s).strand j = s.strand j := by
  simp only [State.strand, updUnit_strands]

section
variable {s : State} {k : Strand}

theorem slotLawAt_of_law (h : slotLaw s = true) (k : Strand) : slotLawAt s k = true :=
  (slotLawAt_iff s k).mpr ((slotLaw_iff s).mp h k)

theorem inService_notOffline (h : s.inService k = true) : (s.strand k).condition.isOffline = false := by
  rw [State.inService, Bool.and_eq_true, Bool.not_eq_true'] at h
  exact h.2

variable (h : slotLawAt s k = true)
include h

/-- The abandonment of a step leaves the strand's context but for its restart. -/
theorem abandon_strand : ∃ c, c.isOffline = (s.strand k).condition.isOffline ∧
    (abandon k s).strand k = { s.strand k with condition := c } := by
  obtain ⟨-, ⟨c, hc⟩, -⟩ := abandon_own k s h
  obtain ⟨-, carried, -⟩ := abandon_carried k s
  refine ⟨c, isOffline_of_name ?_, hc⟩
  have name := (carried k).1
  rwa [hc] at name

theorem enterHalted_strand (cause : HaltCause) : (enterHalted k cause s).strand k =
    { (s.strand k).settle with
      condition := .halted cause
      steel := (s.strand k).steel || cause == .reset
      driveLost := (s.strand k).driveLost && !(s.strand k).condition.isOffline } := by
  obtain ⟨c, ho, hc⟩ := abandon_strand h
  unfold enterHalted
  dsimp only
  rw [pend_strand, reportSettled_strand, modStrand_strand_same, updUnit_strand, hc, ← ho]
  rfl

theorem enterDry_strand : (enterDry k s).strand k =
    { (s.strand k).settle with condition := .dry, steel := false, driveLost := false } := by
  obtain ⟨c, -, hc⟩ := abandon_strand h
  unfold enterDry
  rw [pend_strand, reportSettled_strand, modStrand_strand_same, updUnit_strand, hc]
  rfl

theorem enterHeld_strand (f : HoldFlag) : (enterHeld k f s).strand k = (s.strand k).hold f := by
  obtain ⟨c, -, hc⟩ := abandon_strand h
  unfold enterHeld
  dsimp only
  rw [pend_strand, modStrand_strand_same, updUnit_strand, hc]
  cases f <;> rfl

end

/-! ### The Fault Log and the Coordinator -/

section
variable (k : Strand) (s : State)

theorem enterHalted_faults (cause : HaltCause) : (enterHalted k cause s).faults = s.faults := by
  obtain ⟨-, -, faults, -⟩ := abandon_carried k s
  simp only [enterHalted, pend_faults, reportSettled_faults, modStrand_faults, updUnit_faults, faults]

theorem enterDry_faults : (enterDry k s).faults = s.faults := by
  obtain ⟨-, -, faults, -⟩ := abandon_carried k s
  simp only [enterDry, pend_faults, reportSettled_faults, modStrand_faults, updUnit_faults, faults]

theorem enterHeld_faults (f : HoldFlag) : (enterHeld k f s).faults = s.faults := by
  obtain ⟨-, -, faults, -⟩ := abandon_carried k s
  simp only [enterHeld, pend_faults, modStrand_faults, updUnit_faults, faults]

theorem enterCasting_faults : (enterCasting k s).faults = s.faults := by
  obtain ⟨-, -, faults, -⟩ := abandon_carried k s
  simp only [enterCasting, pend_faults, reportSettled_faults, modStrand_faults, faults]

theorem stopStrand_faults (cause : HaltCause) : (stopStrand k cause s).faults = s.faults := by
  unfold stopStrand
  split
  · exact enterHalted_faults k s cause
  · exact enterDry_faults k s

theorem enterHalted_coordinator (cause : HaltCause) : (enterHalted k cause s).coordinator = s.coordinator.settled k := by
  obtain ⟨-, -, -, -, -, coordinator, -⟩ := abandon_carried k s
  simp only [enterHalted, pend_coordinator, reportSettled_coordinator, modStrand_coordinator, updUnit_coordinator, coordinator]

theorem enterDry_coordinator : (enterDry k s).coordinator = s.coordinator.settled k := by
  obtain ⟨-, -, -, -, -, coordinator, -⟩ := abandon_carried k s
  simp only [enterDry, pend_coordinator, reportSettled_coordinator, modStrand_coordinator, updUnit_coordinator, coordinator]

theorem enterCasting_coordinator : (enterCasting k s).coordinator = s.coordinator.settled k := by
  obtain ⟨-, -, -, -, -, coordinator, -⟩ := abandon_carried k s
  simp only [enterCasting, pend_coordinator, reportSettled_coordinator, modStrand_coordinator, coordinator]

theorem stopStrand_coordinator (cause : HaltCause) : (stopStrand k cause s).coordinator = s.coordinator.settled k := by
  unfold stopStrand
  split
  · exact enterHalted_coordinator k s cause
  · exact enterDry_coordinator k s

end

/-- A strand that settles while RELEASING is no member of the release set (R134). -/
theorem settled_leaves {c : Coordinator} (k : Strand) (h : c.state = .releasing) : (c.settled k).releaseSet.look k = false := by
  unfold Coordinator.settled
  split
  · exact look_put_same _ _ _
  · next hn =>
    rw [not_and, Bool.not_eq_true] at hn
    exact hn h

/-! ### The end of a restart or a cast -/

theorem haltCooling_eq (s : State) (k : Strand) (cause : HaltCause) :
    haltCooling s k cause = if cause = .breakout then (s.settingsOf k).breakoutCooling else ⟨0, 0, 0, 0⟩ := by
  cases cause <;> rfl

section
variable {s : State} {k : Strand} {cause : HaltCause} (h : slotLawAt s k = true) (hk : s.isConfigured k = true)
include h hk

/-- A strand halted from CASTING or HELD, or from RESTARTING with steel (R12). -/
theorem enterHalted_ends (hc : cause ≠ .reset) (ho : (s.strand k).condition.isOffline = false)
    (hr : ¬ ((s.record? k).isSome ∧ (s.strand k).steel = false)) : Ends s (enterHalted k cause s) k cause := by
  obtain ⟨stopped, -⟩ := enterHalted_own k cause s h hk
  have strand := enterHalted_strand h cause
  unfold Ends
  rw [if_neg hr, ← haltCooling_eq, strand]
  refine ⟨stopped, ?_, ?_, rfl⟩
  · simp [hc]
  · simp [ho]

/-- A strand that leaves RESTARTING without steel (R13). -/
theorem enterDry_ends (hr : (s.record? k).isSome ∧ (s.strand k).steel = false) : Ends s (enterDry k s) k cause := by
  obtain ⟨stopped, steel, lost, -⟩ := enterDry_own k s h hk
  unfold Ends
  rw [if_pos hr]
  exact ⟨stopped, steel, lost⟩

/-- The end of a restart (R12, R13). -/
theorem stopStrand_ends (hc : cause ≠ .reset) (hr : (s.record? k).isSome = true) :
    Ends s (stopStrand k cause s) k cause := by
  have ho : (s.strand k).condition.isOffline = false := by
    obtain ⟨r, e⟩ := condition_of_record?_isSome hr
    rw [e]
    rfl
  unfold stopStrand
  cases hs : (s.strand k).steel with
  | true => exact enterHalted_ends h hk hc ho fun ⟨_, h⟩ => absurd (h.symm.trans hs) nofun
  | false => exact enterDry_ends h hk ⟨hr, hs⟩

end

/-- What the end is judged against is the strand and its settings. -/
theorem Ends.of_same {s u t : State} {k : Strand} {c : HaltCause} (hs : u.strand k = s.strand k)
    (hw : u.settingsOf k = s.settingsOf k) (h : Ends u t k c) : Ends s t k c := by
  unfold Ends State.record? at *
  rwa [hs, hw] at h

/-! ### The end with its fault -/

/-- Strand `k` has ended, and a fault stands written, its notice pending (R172). -/
def EndsWith (s t : State) (k : Strand) (cause : HaltCause) (code : FaultCode) (detail : Nat) : Prop :=
  Ends s t k cause ∧ t.faults.look k = some (faultAfter k code detail s) ∧
    t.noticePending.look (Source.fault k).number = true

section
variable {s : State} {k : Strand} {cause : HaltCause} (code : FaultCode) (detail : Nat)

theorem writeFault_slotLawAt : slotLawAt (writeFault k code detail s) k = slotLawAt s k := by
  simp [slotLawAt, writeFault_strand]

theorem writeFault_settingsOf : (writeFault k code detail s).settingsOf k = s.settingsOf k := by simp [State.settingsOf]

theorem writeFault_record : (writeFault k code detail s).record? k = s.record? k := by
  simp only [State.record?, writeFault_strand]

theorem writeFault_look : (writeFault k code detail s).faults.look k = some (faultAfter k code detail s) := by
  rw [writeFault_faults, look_put_same]

theorem writeFault_configured : (writeFault k code detail s).isConfigured k = s.isConfigured k := by
  simp [State.isConfigured]

variable (h : slotLawAt s k = true) (hk : s.isConfigured k = true)
include h hk

theorem halted_endsWith (hc : cause ≠ .reset) (ho : (s.strand k).condition.isOffline = false)
    (hr : ¬ ((s.record? k).isSome ∧ (s.strand k).steel = false)) :
    EndsWith s (enterHalted k cause (writeFault k code detail s)) k cause code detail := by
  refine ⟨?_, ?_, enterHalted_owed k cause _ _ (writeFault_pends k code detail s hk)⟩
  · refine Ends.of_same (writeFault_strand k k code detail s) (writeFault_settingsOf code detail) ?_
    refine enterHalted_ends (by rwa [writeFault_slotLawAt]) (by rwa [writeFault_configured]) hc ?_ ?_
    · rwa [writeFault_strand]
    · rwa [writeFault_strand, writeFault_record]
  · rw [enterHalted_faults, writeFault_look]

theorem stopped_endsWith (hc : cause ≠ .reset) (hr : (s.record? k).isSome = true) :
    EndsWith s (stopStrand k cause (writeFault k code detail s)) k cause code detail := by
  refine ⟨?_, ?_, stopStrand_owed k cause _ _ (writeFault_pends k code detail s hk)⟩
  · refine Ends.of_same (writeFault_strand k k code detail s) (writeFault_settingsOf code detail) ?_
    exact stopStrand_ends (by rwa [writeFault_slotLawAt]) (by rwa [writeFault_configured]) hc (by rwa [writeFault_record])
  · rw [stopStrand_faults, writeFault_look]

end

/-- After the command's end. -/
theorem Sent.endsWith {s u t : State} {k : Strand} {cause : HaltCause} {code : FaultCode} {detail : Nat} (h : Sent u t)
    (a : EndsWith s u k cause code detail) :
    Ends s t k cause ∧ t.faults.look k = some (faultAfter k code detail s) ∧ Noticed t (.fault k) := by
  obtain ⟨ends, faults, pending⟩ := a
  exact ⟨h.ends ends, by rw [h.1.faults]; exact faults, h.2 _ (.inl pending)⟩

end Sys2Proof.Machine
end
section
/-! PROOFS. The claims of the Restart Sequencer (R17, R56), ABORT (R23) and the hold timer's end (R2, R10). -/

namespace Sys2Proof.Machine

/-! ### A strand at no pool, abandoned -/

section
variable {s : State} {k : Strand}

/-- A strand without a slot gives none back: its entry leaves the list alone (R86). -/
theorem withdrawFrom_of_not_holds {p : PoolId} (h : (s.pool p).holds k = false) : withdrawFrom p k s = dropEntry p k s := by
  have kept : ((dropEntry p k s).pool p).holds k = false := by
    rw [dropEntry, modPool_pool_same]
    exact h
  rw [withdrawFrom, if_neg (by rw [kept]; nofun)]

/-- A unit that no fill opening and no ramp governs is not changed by the abandonment of its step. -/
theorem endFill_stopRamp_of_quiet {u : UnitState} (hr : u.ramp = none) (hf : ∀ o, u.stopper ≠ .fill o) :
    u.endFill.stopRamp = u := by
  have fill : u.endFill = u := by
    unfold UnitState.endFill
    split
    · next o e => exact absurd e (hf o)
    all_goals rfl
  rw [fill, UnitState.stopRamp, ← hr]

/-- The abandonment of a step that holds no slot and governs nothing leaves every unit (R76). -/
theorem abandon_units (hp : s.pour.holds k = false) (hd : s.drive.holds k = false) (hr : (s.unit k).ramp = none)
    (hf : ∀ o, (s.unit k).stopper ≠ .fill o) : (abandon k s).units = s.units := by
  unfold abandon
  split
  · rfl
  · have pour : ((stopStep k s).pool .pour).holds k = false := by
      rw [show (stopStep k s).pool .pour = s.pour from modRecord_pour _ _ _]; exact hp
    have drive : ((dropEntry .pour k (stopStep k s)).pool .drive).holds k = false := by
      rw [show (dropEntry .pour k (stopStep k s)).pool .drive = s.drive from modRecord_drive _ _ _]; exact hd
    rw [withdrawFrom_of_not_holds pour, withdrawFrom_of_not_holds drive]
    have units : (dropEntry .drive k (dropEntry .pour k (stopStep k s))).units = s.units := modRecord_units _ _ _
    have unit : (dropEntry .drive k (dropEntry .pour k (stopStep k s))).unit k = s.unit k := by
      rw [State.unit, units]; rfl
    have quiet := endFill_stopRamp_of_quiet hr hf
    rw [updUnit_quiet _ _ _ (by rw [unit, quiet])]
    simp only [modUnit, unit, quiet, units]
    exact put_look _ _

end

/-! ### The claims -/

section
variable {s : State} {k : Strand} {r : RestartRecord}

theorem takeFailure_none (c : FailureClaim) (h : s.record? k = none) : takeFailure k c s = s := by simp [takeFailure, h]

theorem takeCompletion_none (n : Nat) (h : s.record? k = none) : takeCompletion k n s = s := by simp [takeCompletion, h]

theorem takeFailure_other {c : FailureClaim} (h : s.record? k = some r) (hs : r.serial ≠ c.restart) :
    takeFailure k c s = s := by simp [takeFailure, h, hs]

theorem takeCompletion_other {n : Nat} (h : s.record? k = some r) (hs : r.serial ≠ n) : takeCompletion k n s = s := by
  simp [takeCompletion, h, hs]

theorem takeFailure_own {c : FailureClaim} (h : s.record? k = some r) (hs : r.serial = c.restart) : takeFailure k c s =
    stopStrand k .fault (writeFault k (failureCode c.failure) (failureDetail c.failure) s) := by
  simp [takeFailure, h, hs]

theorem takeCompletion_own {n : Nat} (h : s.record? k = some r) (hs : r.serial = n) :
    takeCompletion k n s = enterCasting k s := by simp [takeCompletion, h, hs]

end

theorem reportSettled_units (k : Strand) (s : State) : (reportSettled k s).units = s.units :=
  Vector.ext fun i hi => reportSettled_unit k ⟨i, hi⟩ s

theorem enterCasting_units (k : Strand) (s : State) : (enterCasting k s).units = (abandon k s).units := by
  unfold enterCasting
  rw [pend_units, reportSettled_units]
  rfl

/-- Settles O31: a claim is taken where it names the standing restart, and ends it. -/
theorem claimsEndTheRestart : Obligations.ClaimsEndTheRestart := by
  intro k c n r s
  refine ⟨fun h => ⟨?_, ?_⟩, fun h hs => ?_, fun h hs => ?_, fun hk h hs => ?_, fun hk h hs => ?_⟩
  · exact event_discarded (i := .stepFailureClaim k c) ⟨rfl, nofun⟩ s (takeFailure_none c h)
  · exact event_discarded (i := .restartCompleteClaim k n) ⟨rfl, nofun⟩ s (takeCompletion_none n h)
  · exact event_discarded (i := .stepFailureClaim k c) ⟨rfl, nofun⟩ s (takeFailure_other h hs)
  · exact event_discarded (i := .restartCompleteClaim k n) ⟨rfl, nofun⟩ s (takeCompletion_other h hs)
  · have record : (s.record? k).isSome = true := by rw [h]; rfl
    obtain ⟨t, reached, sent⟩ := event_acts (i := .stepFailureClaim k c) ⟨rfl, nofun⟩ s
    have local_ : LocalTo s t k := sent.1.localTo (takeFailure_at k c s).local
    rw [show effect (.stepFailureClaim k c) s = _ from takeFailure_own h hs] at sent
    exact ⟨t, reached, local_, sent.endsWith (stopped_endsWith _ _ (slotLawAt_of_record record) hk nofun record)⟩
  · have record : (s.record? k).isSome = true := by rw [h]; rfl
    obtain ⟨t, reached, same, noticed⟩ := event_acts (i := .restartCompleteClaim k n) ⟨rfl, nofun⟩ s
    rw [show effect (.restartCompleteClaim k n) s = enterCasting k s from takeCompletion_own h hs] at same noticed
    obtain ⟨strand, -, withdrawn, state⟩ := enterCasting_own k s (slotLawAt_of_record record) hk
    refine ⟨t, reached, same.localTo (enterCasting_at k s).local, noticed _ state, same.withdrawn withdrawn,
      (same.strand k).trans strand, fun hr => ?_, same.faults.trans (enterCasting_faults k s), fun hp hd hn hf => ?_⟩
    · rw [same.coordinator, enterCasting_coordinator]
      exact settled_leaves k hr
    · exact same.units.trans ((enterCasting_units k s).trans (abandon_units hp hd hn hf))

/-! ### ABORT -/

section
variable {s : State} {k : Strand}

theorem handleAbort_eq (hk : s.inService k = true) : handleAbort (nameByte k) s =
    checked (fun s => [((s.strand k).condition.name == .dry || (s.strand k).condition.name == .halted, .wrongState)])
      (accept (abortStrand k 0)) s := namingInService_name k _ s hk

/-- ABORT, and TUNDISH ABORT, end a strand that is CASTING, HELD or RESTARTING (R23). -/
theorem abortStrand_endsWith (detail : Nat) (h : slotLawAt s k = true) (hk : s.isConfigured k = true)
    (hw : (s.strand k).condition.waitsForHost = false) :
    EndsWith s (abortStrand k detail s) k .abort .abort detail ∧
      (abortStrand k detail s).coordinator = s.coordinator.settled k := by
  cases hc : (s.strand k).condition with
  | restarting r =>
    have record : (s.record? k).isSome = true := by rw [State.record?, hc]; rfl
    rw [show abortStrand k detail s = stopStrand k .abort (writeFault k .abort detail s) by simp [abortStrand, hc]]
    exact ⟨stopped_endsWith _ _ h hk nofun record, (stopStrand_coordinator _ _ _).trans (by rw [writeFault_coordinator])⟩
  | casting =>
    have record : ¬ ((s.record? k).isSome ∧ (s.strand k).steel = false) := by rw [State.record?, hc]; nofun
    rw [show abortStrand k detail s = enterHalted k .abort (writeFault k .abort detail s) by simp [abortStrand, hc]]
    exact ⟨halted_endsWith _ _ h hk nofun (by rw [hc]; rfl) record,
      (enterHalted_coordinator _ _ _).trans (by rw [writeFault_coordinator])⟩
  | held =>
    have record : ¬ ((s.record? k).isSome ∧ (s.strand k).steel = false) := by rw [State.record?, hc]; nofun
    rw [show abortStrand k detail s = enterHalted k .abort (writeFault k .abort detail s) by simp [abortStrand, hc]]
    exact ⟨halted_endsWith _ _ h hk nofun (by rw [hc]; rfl) record,
      (enterHalted_coordinator _ _ _).trans (by rw [writeFault_coordinator])⟩
  | dry | halted | offline => rw [hc] at hw; cases hw

theorem waitsForHost_eq_false (ho : (s.strand k).condition.isOffline = false) (hd : (s.strand k).condition.name ≠ .dry)
    (hh : (s.strand k).condition.name ≠ .halted) : (s.strand k).condition.waitsForHost = false := by
  cases hc : (s.strand k).condition with
  | dry => rw [hc] at hd; exact absurd rfl hd
  | halted c => rw [hc] at hh; exact absurd rfl hh
  | offline c => rw [hc] at ho; cases ho
  | _ => rfl

end

/-- Settles O23: the condition is checked by its name; what is left is CASTING, HELD or RESTARTING. -/
theorem abortStops : Obligations.AbortStops := by
  intro tag k s hq hk hl
  refine ⟨fun h => ?_, fun hd hh => ?_⟩
  · refine request_refuses tag 0x08 _ .wrongState s hq ((handleAbort_eq hk).trans (checked_one_fails ?_))
    rcases h with h | h <;> rw [h] <;> rfl
  · have passes : ((s.strand k).condition.name == .dry || (s.strand k).condition.name == .halted) = false := by
      rw [beq_eq_false_iff_ne.mpr hd, beq_eq_false_iff_ne.mpr hh]
      rfl
    obtain ⟨t, reached, answered, -, sent⟩ := request_acts tag 0x08 (.of_command (.abort tag (nameByte k)) rfl) _ s hq
      ((handleAbort_eq hk).trans (checked_one_passes passes))
    obtain ⟨endsWith, coordinator⟩ := abortStrand_endsWith 0 (slotLawAt_of_law hl k) (isConfigured_of_inService k s hk)
      (waitsForHost_eq_false (inService_notOffline hk) hd hh)
    obtain ⟨ends, fault, noticed⟩ := sent.endsWith endsWith
    refine ⟨t, reached, answered, ends, fault, noticed, sent.1.localTo (abortStrand_at k 0 s).local, fun hr => ?_⟩
    rw [sent.1.coordinator, coordinator]
    exact settled_leaves k hr

/-! ### The hold timer's end -/

section
variable {k : Strand}

/-- A strand that is withdrawn keeps its level parameter set (R86). -/
theorem withdrawFrom_pour_levelSet (s : State) : (withdrawFrom .pour k s).levelSet k = s.levelSet k := by
  have waits : (dropEntry .pour k s).pour.waiting k = false := dropEntry_waiting .pour s
  unfold withdrawFrom
  split
  · obtain ⟨-, -, levels, -⟩ := drain_pour_elsewhere (k := k) (dropGrant .pour k (dropEntry .pour k s)) waits
    exact levels
  · rfl

theorem withdrawFrom_drive_levelSet (s : State) (hp : s.pour.waiting k = false) :
    (withdrawFrom .drive k s).levelSet k = s.levelSet k := by
  have waits : ∀ p, ((dropGrant .drive k (dropEntry .drive k s)).pool p).waiting k = false := fun p => by
    cases p
    · exact hp
    · exact dropEntry_waiting .drive s
  unfold withdrawFrom
  split
  · obtain ⟨-, -, levels, -⟩ := drain_elsewhere (k := k) [.grantChoice .drive] (dropGrant .drive k (dropEntry .drive k s))
      (by simp [Task.avoids]) waits
    exact levels
  · rfl

theorem abandon_levelSet (s : State) : (abandon k s).levelSet k = s.levelSet k := by
  unfold abandon
  split
  · rfl
  · obtain ⟨-, waiting, -⟩ := withdrawFrom_pour (k := k) (stopStep k s)
    have step : (stopStep k s).levelSet k = s.levelSet k := congrArg (fun w => w.levels.look k) (modRecord_working _ _ _)
    rw [State.levelSet, updUnit_working]
    exact (withdrawFrom_drive_levelSet _ waiting).trans ((withdrawFrom_pour_levelSet _).trans step)

theorem enterHalted_levelSet (cause : HaltCause) (s : State) : (enterHalted k cause s).levelSet k = s.levelSet k := by
  refine Eq.trans ?_ (abandon_levelSet s)
  simp only [enterHalted, State.levelSet, pend_working, reportSettled_working, modStrand_working, updUnit_working]

theorem modStrand_of_same {f : StrandContext → StrandContext} {s : State} (h : f (s.strand k) = s.strand k) :
    modStrand k f s = s := by
  have strands : s.strands.put k (s.strand k) = s.strands := put_look _ _
  rw [modStrand, h, strands]

/-- An expiry at the freeze limit finds the held time there (R10, log 9). -/
theorem holdExpiry_eq {s : State} (h : (s.settingsOf k).freezeLimit * 1000 ≤ (s.strand k).holdTimer.elapsed) :
    holdExpiry k s = freeze k s := by
  unfold holdExpiry
  rw [modStrand_of_same]
  simp [Nat.max_eq_left h]

/-- The end of the hold timer halts the strand, whatever its condition (R10). -/
theorem freeze_own {s : State} (h : slotLawAt s k = true) (hk : s.isConfigured k = true) :
    Stopped (freeze k s) k (.halted .frozen) ⟨0, 0, 0, 0⟩ ∧ ((freeze k s).strand k).steel = (s.strand k).steel ∧
      ((freeze k s).strand k).holdTimer = ⟨(s.strand k).holdTimer.elapsed, false⟩ ∧
      (freeze k s).faults.look k = some (faultAfter k .frozen ((s.strand k).holdTimer.elapsed / 1000) s) ∧
      (freeze k s).noticePending.look (Source.fault k).number = true := by
  obtain ⟨stopped, steel, timer, -⟩ := enterHalted_own k .frozen
    (writeFault k .frozen ((s.strand k).holdTimer.elapsed / 1000) s) (by rwa [writeFault_slotLawAt])
    (by rwa [writeFault_configured])
  rw [writeFault_strand] at steel timer
  refine ⟨stopped, steel.trans (Bool.or_false _), timer, ?_, enterHalted_owed k .frozen _ _ (writeFault_pends k _ _ s hk)⟩
  rw [freeze, enterHalted_faults, writeFault_look]

theorem faultAfter_code (code : FaultCode) (detail : Nat) (s : State) :
    (faultAfter k code detail s).code = (s.faults.look k).elim code (·.code) := by
  unfold faultAfter
  cases s.faults.look k <;> rfl

/-- A new freeze limit that is due (R2). -/
theorem freezeAfter_due {old new : StrandSettings} {s : State} (hn : new.freezeLimit ≠ old.freezeLimit)
    (hr : (s.strand k).holdTimer.running = true) (he : new.freezeLimit * 1000 ≤ (s.strand k).holdTimer.elapsed) :
    freezeAfter k old new s = freeze k s := if_pos ⟨hn, hr, he⟩

theorem freeze_settings {s : State} :
    (freeze k s).settingsOf k = s.settingsOf k ∧ (freeze k s).levelSet k = s.levelSet k := by
  refine ⟨settingsOf_of_outside (freeze_at k s).1 k, (enterHalted_levelSet _ _).trans ?_⟩
  rw [State.levelSet, writeFault_working]
  rfl

/-- What STRAND SETTINGS leaves of the strand before its freeze limit is compared. -/
theorem coolAfter_storeStrand {old p : StrandSettings} {l : LevelParams} {s : State} :
    let t := coolAfter k old p (storeStrand k p l s)
    t.strands = s.strands ∧ t.faults = s.faults ∧ t.pour = s.pour ∧ t.drive = s.drive ∧
      t.configuredCount = s.configuredCount ∧ t.settingsOf k = p ∧ t.levelSet k = l := by
  dsimp only
  rw [coolAfter_rest]
  exact ⟨rfl, rfl, rfl, rfl, rfl, look_put_same _ _ _, look_put_same _ _ _⟩

end

/-- Settles O30: both ways the strand is halted by its freeze, with the held time as it stands. -/
theorem holdTimerFreezes : Obligations.HoldTimerFreezes := by
  intro tag b p l k s hl
  have slot := slotLawAt_of_law hl k
  refine ⟨fun hr => ?_, fun hr hk he _ => ?_, fun hq hk hb hc hv hn hr he => ?_⟩
  · exact event_discarded (i := .holdTimerExpiry k) ⟨rfl, nofun⟩ s (if_neg (by rw [hr]; nofun))
  · obtain ⟨t, reached, sent⟩ := event_acts (i := .holdTimerExpiry k) ⟨rfl, nofun⟩ s
    rw [show effect (.holdTimerExpiry k) s = freeze k s from (if_pos hr).trans (holdExpiry_eq he)] at sent
    obtain ⟨stopped, steel, timer, fault, owed⟩ := freeze_own slot hk
    refine ⟨t, reached, sent.stopped stopped, ?_, ?_, ?_, sent.2 _ (.inl owed), sent.1.localTo (freeze_at k s).local⟩
    · rw [sent.1.strand]; exact steel
    · rw [sent.1.strand]; exact timer
    · rw [sent.1.faults]; exact fault
  · have checks : firstFailure [(classBusy k p s, .busy), (l != s.levelSet k && (s.unit k).levelOn, .locked)] = none := by
      rcases hv with hv | hv <;> rw [hc, hv] <;> simp [firstFailure]
    obtain ⟨t, reached, answered, -, sent⟩ := request_acts tag 0x06 (.of_command (.strandSettings tag _ b) rfl) _ s hq
      ((handleStrandSettings_some hk hb).trans (checked_passes _ _ _ checks))
    unfold applyStrand at sent
    obtain ⟨strands, faults, pour, drive, count, settings, levels⟩ :=
      coolAfter_storeStrand (k := k) (old := s.settingsOf k) (p := p) (l := l) (s := s)
    generalize coolAfter k (s.settingsOf k) p (storeStrand k p l s) = u at *
    have strand : u.strand k = s.strand k := congrArg (Tab.look · k) strands
    rw [freezeAfter_due hn (by rw [strand]; exact hr) (by rw [strand]; exact he)] at sent
    obtain ⟨stopped, steel, -, fault, -⟩ := freeze_own (s := u) (k := k)
      (by simpa only [slotLawAt, strand, pour, drive] using slot)
      (by simpa only [State.isConfigured, count] using isConfigured_of_inService k s hk)
    obtain ⟨sameSettings, sameLevels⟩ := freeze_settings (s := u) (k := k)
    refine ⟨t, reached, answered, sent.stopped stopped, ?_, ?_, ?_, ?_⟩
    · rw [sent.1.strand, steel, strand]
    · rw [sent.1.faults, fault, Option.map_some, faultAfter_code, faults]
    · rw [State.settingsOf, sent.1.working]; exact sameSettings.trans settings
    · rw [State.levelSet, sent.1.working]; exact sameLevels.trans levels

end Sys2Proof.Machine
end
section
/-! PROOFS. The lines' events at a strand: BREAKOUT_ALARM, STEEL_PRESENT and DRIVE_READY (R4, R18, R19, R62, R63). -/

namespace Sys2Proof.Machine

/-! ### BREAKOUT_ALARM and STEEL_PRESENT -/

section
variable {s : State} {k : Strand}

theorem effect_breakout (hk : s.inService k = true) : effect (.breakoutAlarmRise k) s = takeBreakout k s := if_pos hk

theorem effect_readyFall (hk : s.inService k = true) : effect (.driveReadyFall k) s = takeReadyFall k s := if_pos hk

theorem effect_readyRise (hk : s.inService k = true) : effect (.driveReadyRise k) s = stepReadyRise k s := if_pos hk

/-- An alarm at a strand that casts, holds or restarts ends it (R12, R13, R18). -/
theorem takeBreakout_endsWith (h : slotLawAt s k = true) (hk : s.inService k = true)
    (hw : (s.strand k).condition.waitsForHost = false) : EndsWith s (takeBreakout k s) k .breakout .breakout 0 := by
  have configured := isConfigured_of_inService k s hk
  cases hc : (s.strand k).condition with
  | restarting r =>
    have record : (s.record? k).isSome = true := by rw [State.record?, hc]; rfl
    rw [show takeBreakout k s = stopStrand k .breakout (writeFault k .breakout 0 s) by simp [takeBreakout, hc]]
    exact stopped_endsWith _ _ h configured nofun record
  | casting | held =>
    have record : ¬ ((s.record? k).isSome ∧ (s.strand k).steel = false) := by rw [State.record?, hc]; nofun
    rw [show takeBreakout k s = enterHalted k .breakout (writeFault k .breakout 0 s) by simp [takeBreakout, hc]]
    exact halted_endsWith _ _ h configured nofun (by rw [hc]; rfl) record
  | dry | halted | offline => rw [hc] at hw; cases hw

/-- At a HALTED strand the alarm changes the cause and the cooling (R18). -/
theorem takeBreakout_halted {c : HaltCause} (hc : (s.strand k).condition = .halted c) : takeBreakout k s =
    updUnit k (fun u => { u with cooling := (s.settingsOf k).breakoutCooling })
      (modReported k (fun c => { c with condition := .halted .breakout }) (writeFault k .breakout 0 s)) := by
  simp [takeBreakout, hc]

theorem modReported_strand_same (f : StrandContext → StrandContext) : (modReported k f s).strand k = f (s.strand k) := by
  unfold modReported
  split
  · next h => exact h.symm
  · rw [pend_strand, modStrand_strand_same]

theorem modReported_noticed {f : StrandContext → StrandContext} (h : f (s.strand k) ≠ s.strand k)
    (hk : s.isConfigured k = true) : (modReported k f s).noticePending.look (Source.state k).number = true := by
  rw [modReported, if_neg h]
  exact pend_look (.state k) _ hk

/-- The first level true halts the strand for RESET, with its steel and fault (R4, R6). -/
theorem endStartUp_true (h : slotLawAt s k = true) (hk : s.isConfigured k = true) :
    ((endStartUp k true s).strand k).check = .done ∧ Stopped (endStartUp k true s) k (.halted .reset) ⟨0, 0, 0, 0⟩ ∧
      ((endStartUp k true s).strand k).steel = true ∧
      (endStartUp k true s).faults.look k = some (faultAfter k .resetWithSteel 0 s) ∧
      (endStartUp k true s).noticePending.look (Source.fault k).number = true := by
  have strand : (modStrand k (fun c => { c with check := .done }) s).strand k = { s.strand k with check := .done } :=
    modStrand_strand_same _ _ _
  have law : slotLawAt (writeFault k .resetWithSteel 0 (modStrand k (fun c => { c with check := .done }) s)) k = true := by
    rw [writeFault_slotLawAt, slotLawAt, strand]
    exact h
  have same : faultAfter k .resetWithSteel 0 (modStrand k (fun c => { c with check := .done }) s) =
      faultAfter k .resetWithSteel 0 s := by
    simp only [faultAfter, State.record?, strand]
    rfl
  obtain ⟨stopped, -⟩ := enterHalted_own k .reset _ law (by rwa [writeFault_configured])
  have entered := enterHalted_strand law .reset
  rw [writeFault_strand, strand] at entered
  rw [show endStartUp k true s =
    enterHalted k .reset (writeFault k .resetWithSteel 0 (modStrand k (fun c => { c with check := .done }) s)) from rfl]
  refine ⟨?_, stopped, ?_, ?_, enterHalted_owed k .reset _ _ (writeFault_pends k _ _ _ hk)⟩
  · rw [entered]; rfl
  · rw [entered]; exact Bool.or_true _
  · rw [enterHalted_faults, writeFault_look, same]

end

/-- Settles O28: the alarm by the strand's condition; the level while the check is pending. -/
theorem breakoutAndSteelLevelsAct : Obligations.BreakoutAndSteelLevelsAct := by
  intro k s
  refine ⟨⟨fun hk => ?_, fun hk hl => ?_⟩, fun hl => ⟨fun hn b => ?_, fun hk hc => ⟨?_, ?_⟩⟩⟩
  · exact event_discarded (i := .breakoutAlarmRise k) ⟨rfl, nofun⟩ s (if_neg (by rw [hk]; nofun))
  · have configured := isConfigured_of_inService k s hk
    obtain ⟨t, reached, sent⟩ := event_acts (i := .breakoutAlarmRise k) ⟨rfl, nofun⟩ s
    rw [effect_breakout hk] at sent
    have ended := fun hw => sent.endsWith (takeBreakout_endsWith (slotLawAt_of_law hl k) hk hw)
    refine ⟨t, reached, sent.1.localTo (takeBreakout_at k s).local, ?_⟩
    cases hc : (s.strand k).condition with
    | dry =>
      rw [show takeBreakout k s = writeFault k .breakout 0 s by simp [takeBreakout, hc]] at sent
      refine ⟨?_, sent.2 _ (.inl (writeFault_pends k _ _ s configured)), ?_, ?_⟩
      · rw [sent.1.faults, writeFault_look]
      · rw [sent.1.strands, writeFault_strands]
      · rw [sent.1.units, writeFault_units]
    | halted cause =>
      rw [takeBreakout_halted hc] at sent
      have strand : (writeFault k .breakout 0 s).strand k = s.strand k := writeFault_strand k k _ _ s
      refine ⟨?_, sent.2 _ (.inl ?_), ?_, fun hb => sent.2 _ (.inl ?_), ?_⟩
      · rw [sent.1.faults, updUnit_faults, modReported_faults, writeFault_look]
      · exact updUnit_owed _ _ _ _ (modReported_owed _ _ _ _ (writeFault_pends k _ _ s configured))
      · rw [sent.1.strand, updUnit_strand, modReported_strand_same, strand]
      · refine updUnit_owed _ _ _ _ (modReported_noticed (fun e => hb ?_) (by rwa [writeFault_configured]))
        have condition := congrArg StrandContext.condition e
        rw [strand, hc] at condition
        exact (Condition.halted.inj condition).symm
      · rw [sent.1.unit, updUnit_unit_same]
        simp only [State.unit, modReported_units, writeFault_units]
    | offline cause => exact absurd (inService_notOffline hk) (by rw [hc]; nofun)
    | casting | held | restarting r =>
      obtain ⟨ends, fault, noticed⟩ := ended (by rw [hc]; rfl)
      exact ⟨fault, noticed, ends⟩
  · refine event_discarded (i := .steelPresentFirstLevel k b) ⟨rfl, nofun⟩ s (if_neg fun ⟨hk, hc⟩ => ?_)
    rcases hn with hn | hn
    · exact absurd (hn.symm.trans hk) nofun
    · exact absurd (hn.symm.trans hc) nofun
  · obtain ⟨t, reached, noticed, same⟩ := event_pends (i := .steelPresentFirstLevel k false) ⟨rfl, nofun⟩ (src := .state k)
      (u := modStrand k (fun c => { c with check := .done }) s) hk (if_pos ⟨hk, hc⟩)
    exact ⟨t, reached, noticed, same⟩
  · obtain ⟨t, reached, sent⟩ := event_acts (i := .steelPresentFirstLevel k true) ⟨rfl, nofun⟩ s
    rw [show effect (.steelPresentFirstLevel k true) s = endStartUp k true s from if_pos ⟨hk, hc⟩] at sent
    obtain ⟨done, stopped, steel, fault, owed⟩ := endStartUp_true (slotLawAt_of_law hl k) hk
    obtain ⟨outside, settings, others, -⟩ := sent.1.localTo (endStartUp_at k true s).local
    refine ⟨t, reached, ?_, sent.stopped stopped, ?_, ?_, sent.2 _ (.inl owed), outside, settings, others⟩
    · rw [sent.1.strand]; exact done
    · rw [sent.1.strand]; exact steel
    · rw [sent.1.faults]; exact fault

/-! ### DRIVE_READY -/

section
variable {s : State} {k : Strand} {r : RestartRecord}

/-- What a current DRIVE step means for its strand. -/
theorem record?_of_driveStep (h : s.action? k = some .drive) : ∃ r, s.record? k = some r ∧ s.inDriveStep k = true := by
  obtain ⟨r, hr⟩ := Option.isSome_iff_exists.mp (record?_of_action h)
  exact ⟨r, hr, beq_iff_eq.mpr h⟩

/-- A current DRIVE step takes the fall, whatever the supply (R19). -/
theorem takeReadyFall_inStep (h : s.action? k = some .drive) : takeReadyFall k s = stepReadyFall k s := by
  obtain ⟨r, hr, inStep⟩ := record?_of_driveStep h
  have hc := condition_of_record? hr
  have lost : lostDrive k s = stepReadyFall k s := by simp [lostDrive, hc, inStep]
  unfold takeReadyFall
  rw [lost, if_pos inStep, ite_self]

/-- The fall ends INRUSH: back to STARTING (R63). -/
theorem stepReadyFall_of_record (h : s.action? k = some .drive) (hp : s.phase k = .inrush) (hr : s.record? k = some r) :
    stepReadyFall k s = withRecord k (r.inPhase .starting none) s := by
  rw [stepReadyFall, if_pos ⟨beq_iff_eq.mpr h, hp⟩, toPhase_of_record hr]

theorem stepReadyFall_other (h : ¬ (s.action? k = some .drive ∧ s.phase k = .inrush)) : stepReadyFall k s = s := by
  unfold stepReadyFall
  refine if_neg fun ⟨inStep, hp⟩ => h ⟨?_, hp⟩
  rwa [State.inDriveStep, beq_iff_eq] at inStep

theorem inDriveStep_eq_false (h : ¬ s.action? k = some .drive) : s.inDriveStep k = false := beq_eq_false_iff_ne.mpr h

/-- The fall that ends a cast, or a restart past its DRIVE step (R19). -/
theorem takeReadyFall_endsWith (h : slotLawAt s k = true) (hk : s.inService k = true) (hs : s.supply.state = .supplied)
    (hc : (s.strand k).condition = .casting ∨
      ((s.strand k).condition.name = .restarting ∧ ¬ s.action? k = some .drive ∧ (s.unit k).driveRun = true)) :
    EndsWith s (takeReadyFall k s) k .driveLost .driveLost 0 := by
  have configured := isConfigured_of_inService k s hk
  rw [show takeReadyFall k s = lostDrive k s from if_pos (beq_iff_eq.mpr hs)]
  rcases hc with hc | ⟨hc, hn, run⟩
  · rw [show lostDrive k s = enterHalted k .driveLost (writeFault k .driveLost 0 s) by simp [lostDrive, hc]]
    exact halted_endsWith _ _ h configured nofun (by rw [hc]; rfl) (by rw [State.record?, hc]; nofun)
  · cases e : (s.strand k).condition with
    | restarting r =>
      have ends : lostDrive k s = stopStrand k .driveLost (writeFault k .driveLost 0 s) := by
        simp [lostDrive, e, inDriveStep_eq_false hn, run]
      rw [ends]
      exact stopped_endsWith _ _ h configured nofun (by rw [State.record?, e]; rfl)
    | _ => rw [e] at hc; cases hc

/-- The falls that change nothing (R19). -/
theorem takeReadyFall_discards
    (h : ¬ s.supply.state = .supplied ∨ (s.strand k).condition = .dry ∨ (s.strand k).condition.name = .halted ∨
      ((s.strand k).condition = .held ∧ ¬ (s.unit k).driveRun = true) ∨
      ((s.strand k).condition.name = .restarting ∧ ¬ (s.unit k).driveRun = true) ∨ s.action? k = some .drive)
    (hn : ¬ (s.action? k = some .drive ∧ s.phase k = .inrush)) : takeReadyFall k s = s := by
  have other := stepReadyFall_other hn
  by_cases inStep : s.action? k = some .drive
  · rw [takeReadyFall_inStep inStep, other]
  · unfold takeReadyFall
    rw [inDriveStep_eq_false inStep, if_neg Bool.false_ne_true]
    split
    · next supplied =>
      rcases h with h | h | h | ⟨h, run⟩ | ⟨h, run⟩ | h
      · exact absurd (eq_of_beq supplied) h
      · simp [lostDrive, h]
      · cases e : (s.strand k).condition with
        | halted c => simp [lostDrive, e]
        | _ => rw [e] at h; cases h
      · simp [lostDrive, h, run]
      · cases e : (s.strand k).condition with
        | restarting r => simp [lostDrive, e, run, other]
        | _ => rw [e] at h; cases h
      · exact absurd h inStep
    · rfl

/-- The rise ends STARTING: the response is answered and INRUSH begins (R62, R95). -/
theorem stepReadyRise_of_record (h : s.action? k = some .drive) (hp : s.phase k = .starting) (hr : s.record? k = some r) :
    stepReadyRise k s = drain (if s.working.drive.inrushHold = 0 then [.inrushEnd k] else [])
      (withRecord k (r.inPhase .inrush (phaseTime s.working.drive.inrushHold)) (answer .drive k s)) := by
  have record : (answer .drive k s).record? k = some r := by rw [State.record?, answer_strand]; exact hr
  rw [stepReadyRise, if_pos ⟨beq_iff_eq.mpr h, hp⟩, drained, enterInrush]
  dsimp only
  rw [toPhase_of_record record]

theorem stepReadyRise_other (h : ¬ (s.action? k = some .drive ∧ s.phase k = .starting)) : stepReadyRise k s = s := by
  unfold stepReadyRise
  refine if_neg fun ⟨inStep, hp⟩ => h ⟨?_, hp⟩
  rwa [State.inDriveStep, beq_iff_eq] at inStep

/-- An action's tasks never set drive_lost (R8). -/
theorem calm_tasks (k : Strand) : TasksKeep fun s => (s.strand k).driveLost = false where
  same := fun s t ⟨h1, _⟩ h => by simpa only [State.strand, h1] using h
  pend := fun src s h => by rwa [pend_strand]
  record := fun j f s _ h => by
    obtain e | ⟨r, -, rfl, e⟩ := modRecord_strand j k f s
    · rwa [e]
    · rw [e]; exact h
  modGrant := fun p j f s h => by simpa only [State.strand, modGrant_strands] using h
  unit := fun j f s _ _ h => by rwa [updUnit_strand]
  join := fun p j s _ h => by simpa [State.strand, joinWaits] using h
  grant := fun p e rest s _ _ _ h => by rwa [makeGrant_strand]
  dropGrant := fun p j s h => by simpa [State.strand, Machine.dropGrant] using h
  levels := fun j p s _ _ h => h
  calm := fun j s h => by
    rw [modStrand_strand]
    split
    · rfl
    · exact h

/-- The end of INRUSH clears drive_lost (R8, R63). -/
theorem inrushEnd_calms (s : State) : ((drain [.inrushEnd k] s).strand k).driveLost = false := by
  rw [drain_cons]
  refine (calm_tasks k).drain _ _ ?_
  exact congrArg StrandContext.driveLost (modStrand_strand_same k _ _)

theorem answer_response {n : Nat} (h : (s.drive.grant? k).map (·.response) = some (.running n)) :
    ((answer .drive k s).drive.grant? k).map (·.response) = some .answered := by
  obtain ⟨g, hg, running⟩ := Option.map_eq_some_iff.mp h
  have answered := modGrant_grant (p := .drive) (k := k) (s := s) hg
    fun g => { g with response := match g.response with
        | .running _ => .answered
        | .off => .off
        | .idle => .idle
        | .answered => .answered }
  rw [show (answer .drive k s).drive.grant? k = _ from answered, Option.map_some]
  simp only [running]

end

/-- Settles O29: a fall by the strand's condition and step; a rise by the DRIVE step's phase. -/
theorem driveReadyEdgesAct : Obligations.DriveReadyEdgesAct := by
  intro k s hk hl
  refine ⟨fun hc hs => ?_, fun hc run hs => ?_, fun inStep hp => ?_, fun hc hn => ?_, fun hn => ?_,
    fun inStep hp hi => ?_, fun inStep hp hi => ?_⟩
  · obtain ⟨t, reached, sent⟩ := event_acts (i := .driveReadyFall k) ⟨rfl, nofun⟩ s
    rw [effect_readyFall hk] at sent
    obtain ⟨ends, fault, noticed⟩ := sent.endsWith (takeReadyFall_endsWith (slotLawAt_of_law hl k) hk hs hc)
    exact ⟨t, reached, sent.1.localTo (takeReadyFall_at k s).local, ends, fault, noticed⟩
  · refine ⟨_, exec_event (i := .driveReadyFall k) ⟨rfl, nofun⟩ s, ?_⟩
    rw [effect_readyFall hk, takeReadyFall, if_pos (show s.isSupplied = true from beq_iff_eq.mpr hs)]
    have marked : lostDrive k s = modStrand k (fun c => { c with driveLost := true }) s := by simp [lostDrive, hc, run]
    rw [marked]
    rfl
  · obtain ⟨r, record, -⟩ := record?_of_driveStep inStep
    obtain ⟨t, reached, same, -⟩ := event_acts (i := .driveReadyFall k) ⟨rfl, nofun⟩ s
    have carried := stepReadyFall_carried k s
    rw [effect_readyFall hk, takeReadyFall_inStep inStep] at same
    rw [stepReadyFall_of_record inStep hp record] at same carried
    refine ⟨t, reached, ?_, ?_, same.localTo (carried.at k).local, same.units, same.faults⟩
    · rw [same.drive]; rfl
    · rw [same.record, record?_withRecord, record]; rfl
  · exact event_discarded (i := .driveReadyFall k) ⟨rfl, nofun⟩ s
      ((effect_readyFall hk).trans (takeReadyFall_discards hc hn))
  · exact event_discarded (i := .driveReadyRise k) ⟨rfl, nofun⟩ s ((effect_readyRise hk).trans (stepReadyRise_other hn))
  · obtain ⟨r, record, -⟩ := record?_of_driveStep inStep
    obtain ⟨t, reached, same, -⟩ := event_acts (i := .driveReadyRise k) ⟨rfl, nofun⟩ s
    have carried := stepReadyRise_carried k s
    rw [effect_readyRise hk] at same
    rw [stepReadyRise_of_record inStep hp record, if_neg hi, drain_nil] at same carried
    refine ⟨t, reached, same.localTo (carried.at k).local, same.units.trans ?_, ?_, fun n hn => ?_⟩
    · exact modGrant_units _ _ _ _
    · rw [same.record, record?_withRecord, phaseTime, if_neg hi]; rfl
    · rw [same.drive]
      exact answer_response hn
  · obtain ⟨r, record, -⟩ := record?_of_driveStep inStep
    obtain ⟨t, reached, same, -⟩ := event_acts (i := .driveReadyRise k) ⟨rfl, nofun⟩ s
    have carried := stepReadyRise_carried k s
    rw [effect_readyRise hk] at same
    refine ⟨t, reached, same.localTo (carried.at k).local, ?_⟩
    rw [same.strand, stepReadyRise_of_record inStep hp record, if_pos hi]
    exact inrushEnd_calms _

end Sys2Proof.Machine
end
section
/-! PROOFS. CLEAR STRAND and SERVICE (R25, R26), and the code of a request's checks. -/

namespace Sys2Proof.Machine

/-! ### The code that a list of checks gives -/

/-- The first failing check's code, and OK's where none fails. -/
def codeOf : List (Bool × ReplyCode) → Byte
  | [] => 0
  | (b, c) :: rest => if b = true then c.byte else codeOf rest

theorem ReplyCode.byte_ne_zero {c : ReplyCode} (h : c ≠ .ok) : c.byte ≠ 0 := by
  cases c <;> first | exact absurd rfl h | decide

theorem firstFailure_of_codeOf {l : List (Bool × ReplyCode)} (h : codeOf l ≠ 0) :
    ∃ c, firstFailure l = some c ∧ c.byte = codeOf l := by
  induction l with
  | nil => exact absurd rfl h
  | cons x rest ih =>
    obtain ⟨b, c⟩ := x
    cases b with
    | true => exact ⟨c, rfl, rfl⟩
    | false => exact ih h

theorem firstFailure_of_codeOf_zero {l : List (Bool × ReplyCode)} (hl : ∀ x ∈ l, x.2 ≠ .ok) (h : codeOf l = 0) :
    firstFailure l = none := by
  induction l with
  | nil => rfl
  | cons x rest ih =>
    obtain ⟨b, c⟩ := x
    cases b with
    | true => exact absurd h (ReplyCode.byte_ne_zero (hl _ (List.mem_cons_self ..)))
    | false => exact ih (fun y hy => hl y (List.mem_cons_of_mem _ hy)) h

theorem firstFailure_append (a b : List (Bool × ReplyCode)) : firstFailure (a ++ b) = (firstFailure a).or (firstFailure b) := by
  induction a with
  | nil => rfl
  | cons x rest ih =>
    obtain ⟨c, code⟩ := x
    cases c with
    | true => rfl
    | false => exact ih

/-- Two stages of checks are one. -/
theorem checked_checked (a b : State → List (Bool × ReplyCode)) (h : Handler) (s : State) :
    checked a (checked b h) s = checked (fun s => a s ++ b s) h s := by
  simp only [checked, firstFailure_append]
  cases firstFailure (a s) <;> rfl

/-- A request whose handler is a list of checks before its work is refused with their code. -/
theorem request_fails (tag kind : Byte) {h g : Handler} {checks : State → List (Bool × ReplyCode)} {s : State} (hq : s.queueFree)
    (he : h s = checked checks g s) (hc : codeOf (checks s) ≠ 0) :
    ∃ t, request tag kind h s = .next t ∧ Answered s t tag kind [codeOf (checks s)] ∧ SameButReply s t := by
  obtain ⟨c, failure, code⟩ := firstFailure_of_codeOf hc
  rw [← code]
  exact request_refuses tag kind h c s hq (he.trans (checked_fails _ _ _ _ failure))

/-! ### Entry into OFFLINE -/

theorem abandon_of_no_record {s : State} {k : Strand} (h : s.record? k = none) : abandon k s = s := by simp [abandon, h]

theorem record?_of_name {s : State} {k : Strand} (h : (s.strand k).condition.name ≠ .restarting) : s.record? k = none := by
  rw [State.record?]
  cases hc : (s.strand k).condition with
  | restarting r => rw [hc] at h; exact absurd rfl h
  | _ => rfl

theorem reportSettled_lastGranted (k : Strand) (s : State) : (reportSettled k s).lastGranted = s.lastGranted := by
  unfold reportSettled
  dsimp only
  repeat' split
  · exact (pend_lastGranted _ _).trans (pend_lastGranted _ _)
  · exact pend_lastGranted _ _
  · rfl

section
variable {s : State} {k : Strand}

theorem forgetGranted_fields (k j : Strand) (s : State) : (forgetGranted k s).strand j = s.strand j ∧
    (forgetGranted k s).faults = s.faults ∧
    (forgetGranted k s).lastGranted = if s.lastGranted = some k then none else s.lastGranted := by
  unfold forgetGranted
  split <;> exact ⟨rfl, rfl, rfl⟩

/-- What a strand that is not restarting takes with it OFFLINE, and what it leaves behind (R14, R90). -/
theorem enterOffline_rest (h : s.record? k = none) :
    ((enterOffline k s).strand k).driveLost = (s.strand k).driveLost ∧ (enterOffline k s).faults = s.faults ∧
      (enterOffline k s).lastGranted = if s.lastGranted = some k then none else s.lastGranted := by
  unfold enterOffline
  rw [abandon_of_no_record h]
  obtain ⟨strand, faults, last⟩ := forgetGranted_fields k k
    (modStrand k (fun c => { c.settle with condition := .offline .service }) (updUnit k (UnitState.rest false zeroZones) s))
  refine ⟨?_, ?_, ?_⟩
  · rw [pend_strand, reportSettled_strand, strand, modStrand_strand_same, updUnit_strand]
    rfl
  · rw [pend_faults, reportSettled_faults, faults, modStrand_faults, updUnit_faults]
  · rw [pend_lastGranted, reportSettled_lastGranted, last, modStrand_lastGranted, updUnit_lastGranted]

/-! ### CLEAR STRAND -/

/-- CLEAR STRAND's checks (R25), after the one of every request that names a strand in service. -/
def clearChecks (k : Strand) (s : State) : List (Bool × ReplyCode) :=
  [((s.strand k).condition.isOffline, .wrongState), ((s.strand k).check == .pending, .busy),
    ((s.strand k).condition.name != .halted, .wrongState), ((s.faults.look k).isSome, .faultPending),
    (s.steelPresent k, .wrongState)]

theorem handleClearStrand_eq (hk : s.isConfigured k = true) :
    handleClearStrand (nameByte k) s = checked (clearChecks k) (accept (enterDry k)) s := by
  rw [handleClearStrand, namingInService, namingStrand_name k _ s hk, checked_checked]
  rfl

theorem codeOf_clearChecks : codeOf (clearChecks k s) =
    if (s.strand k).condition.isOffline then 0x04 else if (s.strand k).check = .pending then 0x01
    else if (s.strand k).condition.name ≠ .halted then 0x04 else if s.faults.look k ≠ none then 0x08
    else if s.steelPresent k then 0x04 else 0x00 := by
  simp only [codeOf, clearChecks, beq_iff_eq, bne_iff_ne, Option.isSome_iff_ne_none]
  rfl

theorem clearChecks_codes : ∀ x ∈ clearChecks k s, x.2 ≠ .ok := by simp [clearChecks]

/-! ### SERVICE -/

/-- SERVICE's checks (R26). -/
def serviceChecks (k : Strand) (on : Byte) (s : State) : List (Bool × ReplyCode) :=
  [(on != 0 && on != 1, .badField), ((s.strand k).check == .pending, .busy)]

theorem handleService_eq (on : Byte) (hk : s.isConfigured k = true) : handleService (nameByte k) on s =
    checked (serviceChecks k on) (if on = 0 then serviceOff k else serviceOn k) s := namingStrand_name k _ s hk

/-- A SERVICE with its field in range, at a strand whose start-up check is done. -/
theorem handleService_passes {on : Byte} (hk : s.isConfigured k = true) (ho : on = 0 ∨ on = 1)
    (hc : (s.strand k).check = .done) :
    handleService (nameByte k) on s = (if on = 0 then serviceOff k else serviceOn k) s := by
  refine (handleService_eq on hk).trans (checked_passes _ _ _ ?_)
  rw [serviceChecks, hc]
  rcases ho with rfl | rfl <;> rfl

/-- A SERVICE that asks for what the strand is (R26). -/
theorem service_stays {on : Byte} (hk : s.isConfigured k = true) (hc : (s.strand k).check = .done)
    (h : (on = 0 ∧ (s.strand k).condition.isOffline = true) ∨ (on = 1 ∧ (s.strand k).condition.isOffline = false)) :
    handleService (nameByte k) on s = accept id s := by
  rw [handleService_passes hk (h.imp And.left And.left) hc]
  rcases h with ⟨rfl, h⟩ | ⟨rfl, h⟩
  · rw [if_pos rfl]
    cases e : (s.strand k).condition with
    | offline c => simp [serviceOff, e]
    | _ => rw [e] at h; cases h
  · rw [if_neg (by decide)]
    cases e : (s.strand k).condition with
    | offline c => rw [e] at h; cases h
    | _ => simp [serviceOn, e]

theorem serviceOff_refuses (h : (s.strand k).condition.heldOrRestarting = true ∨ (s.strand k).condition = .casting) :
    serviceOff k s = refuse .wrongState s := by
  cases e : (s.strand k).condition with
  | casting | held | restarting r => simp [serviceOff, e]
  | _ => rw [e] at h; rcases h with h | h <;> cases h

theorem serviceOff_accepts (h : (s.strand k).condition.name = .dry ∨ (s.strand k).condition.name = .halted) :
    serviceOff k s = accept (enterOffline k) s := by
  cases e : (s.strand k).condition with
  | dry | halted c => simp [serviceOff, e]
  | _ => rw [e] at h; rcases h with h | h <;> cases h

theorem serviceOn_accepts (h : (s.strand k).condition.isOffline = true) :
    serviceOn k s = accept (returnToService k) s := by
  cases e : (s.strand k).condition with
  | offline c => simp [serviceOn, e]
  | _ => rw [e] at h; cases h

theorem returnToService_dry (h : s.steelPresent k = false) : returnToService k s = enterDry k s :=
  if_neg (by rw [h]; nofun)

/-- SERVICE ON with steel in the mold: HALTED RESET, with its fault (R26). -/
theorem returnToService_steel (h : s.steelPresent k = true) (hl : slotLawAt s k = true) (hk : s.isConfigured k = true)
    (ho : (s.strand k).condition.isOffline = true) :
    Stopped (returnToService k s) k (.halted .reset) ⟨0, 0, 0, 0⟩ ∧ ((returnToService k s).strand k).steel = true ∧
      ((returnToService k s).strand k).driveLost = false ∧
      (returnToService k s).faults.look k = some (faultAfter k .resetWithSteel 0 s) ∧
      (returnToService k s).noticePending.look (Source.fault k).number = true := by
  rw [returnToService, if_pos h]
  have law : slotLawAt (writeFault k .resetWithSteel 0 s) k = true := by rwa [writeFault_slotLawAt]
  obtain ⟨stopped, -⟩ := enterHalted_own k .reset _ law (by rwa [writeFault_configured])
  have strand := enterHalted_strand law .reset
  rw [writeFault_strand] at strand
  refine ⟨stopped, ?_, ?_, ?_, enterHalted_owed k .reset _ _ (writeFault_pends k _ _ s hk)⟩
  · rw [strand]; exact Bool.or_true _
  · rw [strand]; simp [ho]
  · rw [enterHalted_faults, writeFault_look]

end

/-- Settles O25: CLEAR STRAND by its checks; SERVICE by its checks and the strand's condition. -/
theorem clearAndService : Obligations.ClearAndService := by
  intro tag on k s hq hk hl _
  have slot := slotLawAt_of_law hl k
  dsimp only
  rw [← codeOf_clearChecks]
  have service := fun {f} (he : handleService (nameByte k) on s = accept f s) =>
    request_acts tag 0x0C (.of_command (.service tag (nameByte k) on) rfl) f s hq he
  refine ⟨fun hc => ?_, fun hc => ?_, fun h0 h1 => ?_, fun ho hc => ?_, fun ho hc hw => ?_, fun hs hc => ?_,
    fun ho hc hw => ?_, fun ho hc hw => ?_⟩
  · exact request_fails tag 0x0B hq (handleClearStrand_eq hk) hc
  · obtain ⟨t, reached, answered, -, sent⟩ := request_acts tag 0x0B (.of_command (.clearStrand tag (nameByte k)) rfl) _ s hq
      ((handleClearStrand_eq hk).trans (checked_passes _ _ _ (firstFailure_of_codeOf_zero clearChecks_codes hc)))
    obtain ⟨stopped, steel, lost, -⟩ := enterDry_own k s slot hk
    refine ⟨t, reached, answered, sent.1.localTo (enterDry_at k s).local, sent.stopped stopped, ?_, ?_,
      sent.1.faults.trans (enterDry_faults k s)⟩
    · rw [sent.1.strand]; exact steel
    · rw [sent.1.strand]; exact lost
  · exact request_refuses tag 0x0C _ .badField s hq
      ((handleService_eq on hk).trans (checked_fails _ _ _ _ (by rw [serviceChecks, bne_iff_ne.mpr h0, bne_iff_ne.mpr h1]; rfl)))
  · refine request_refuses tag 0x0C _ .busy s hq ((handleService_eq on hk).trans (checked_fails _ _ _ _ ?_))
    rw [serviceChecks, hc]
    rcases ho with rfl | rfl <;> rfl
  · refine request_refuses tag 0x0C _ .wrongState s hq ((handleService_passes hk (.inl ho) hc).trans ?_)
    rw [if_pos ho]
    exact serviceOff_refuses hw
  · exact request_keeps tag 0x0C (.of_command (.service tag (nameByte k) on) rfl) id s hq (service_stays hk hc hs) rfl
  · have accepts := (handleService_passes hk (.inl ho) hc).trans ((congrFun (if_pos ho) s).trans (serviceOff_accepts hw))
    obtain ⟨t, reached, answered, -, sent⟩ := service accepts
    have record : s.record? k = none := record?_of_name (by rcases hw with hw | hw <;> rw [hw] <;> nofun)
    obtain ⟨stopped, steel⟩ := enterOffline_own k s slot hk
    obtain ⟨lost, faults, last⟩ := enterOffline_rest record
    refine ⟨t, reached, answered, sent.1.localTo (enterOffline_at k s).local, sent.stopped stopped, ?_, ?_,
      sent.1.faults.trans faults, sent.1.lastGranted.trans last⟩
    · rw [sent.1.strand]; exact steel
    · rw [sent.1.strand]; exact lost
  · have on1 : ¬ on = 0 := by rw [ho]; decide
    have accepts := (handleService_passes hk (.inr ho) hc).trans ((congrFun (if_neg on1) s).trans (serviceOn_accepts hw))
    obtain ⟨t, reached, answered, -, sent⟩ := service accepts
    refine ⟨t, reached, answered, sent.1.localTo (returnToService_at k s).local, ?_⟩
    rw [sent.1.strand]
    cases hp : s.steelPresent k with
    | true =>
      obtain ⟨stopped, steel, lost, fault, owed⟩ := returnToService_steel hp slot hk hw
      refine ⟨lost, ?_⟩
      rw [if_pos rfl, sent.1.faults]
      exact ⟨sent.stopped stopped, steel, sent.2 _ (.inl owed), fault⟩
    | false =>
      obtain ⟨stopped, steel, lost, -⟩ := enterDry_own k s slot hk
      rw [returnToService_dry hp] at sent ⊢
      refine ⟨lost, ?_⟩
      rw [if_neg Bool.false_ne_true]
      exact ⟨sent.stopped stopped, steel, sent.1.faults.trans (enterDry_faults k s)⟩

end Sys2Proof.Machine
end
section
/-! PROOFS. RESUME, and what a flag's release does to a HELD strand (R16, R24). -/

namespace Sys2Proof.Machine

/-! ### Entry into RESTARTING -/

section
variable {s : State} {k : Strand}

/-- The state in which a restart begins its first step (R49, R51, R52). -/
def begunRestart (k : Strand) (kind : RestartKind) (n : Fin 32) (p : Plan) (s : State) : State :=
  pend (.state k) (withRecord k (newRecord s kind n p) { s with nextSerial := s.nextSerial + 1 })

variable (kind : RestartKind) (n : Fin 32) (p : Plan)

theorem enterRestarting_eq : enterRestarting k kind n p s = drain [.enterStep k] (begunRestart k kind n p s) := rfl

theorem begunRestart_strand :
    (begunRestart k kind n p s).strand k = { s.strand k with condition := .restarting (newRecord s kind n p) } := by
  rw [begunRestart, pend_strand, strand_withRecord]
  rfl

theorem begunRestart_record : (begunRestart k kind n p s).record? k = some (newRecord s kind n p) :=
  congrArg (fun c => c.condition.record?) (begunRestart_strand kind n p)

/-- A restart entered stands as it was begun, at its first step or past it (R16, R22, R52). -/
theorem enterRestarting_record :
    ∃ r, (enterRestarting k kind n p s).record? k = some r ∧ (newRecord s kind n p).Onward r :=
  (drain_onward [.enterStep k] _ k).1 _ (begunRestart_record kind n p)

/-- What an entry into RESTARTING leaves of its strand (R5). -/
theorem enterRestarting_context :
    ((enterRestarting k kind n p s).strand k).steel = (s.strand k).steel ∧
      ((enterRestarting k kind n p s).strand k).heldForTundish = (s.strand k).heldForTundish ∧
      ((enterRestarting k kind n p s).strand k).heldForDip = (s.strand k).heldForDip ∧
      ((enterRestarting k kind n p s).strand k).heldByOperator = (s.strand k).heldByOperator ∧
      ((enterRestarting k kind n p s).strand k).holdTimer = (s.strand k).holdTimer := by
  obtain ⟨-, same, -⟩ := drain_carried [.enterStep k] (begunRestart k kind n p s)
  obtain ⟨-, steel, tundish, dip, operator, timer, -⟩ := same k
  rw [begunRestart_strand] at steel tundish dip operator timer
  exact ⟨steel, tundish, dip, operator, timer⟩

theorem enterRestarting_faults : (enterRestarting k kind n p s).faults = s.faults := by
  obtain ⟨-, -, faults, -⟩ := drain_carried [.enterStep k] (begunRestart k kind n p s)
  exact faults.trans (pend_faults _ _)

end

section
variable {s : State} {k : Strand}

/-! ### A flag's release -/

/-- The flag cleared, with its notice. -/
def dropFlag (f : HoldFlag) (k : Strand) (s : State) : State := pend (.state k) (modStrand k (StrandContext.setFlag f false) s)

theorem dropFlag_strand (f : HoldFlag) : (dropFlag f k s).strand k = (s.strand k).setFlag f false := by
  rw [dropFlag, pend_strand, modStrand_strand_same]

theorem dropFlag_units (f : HoldFlag) : (dropFlag f k s).units = s.units := pend_units _ _

theorem dropFlag_faults (f : HoldFlag) : (dropFlag f k s).faults = s.faults := pend_faults _ _

theorem dropFlag_faultAfter (f : HoldFlag) (code : FaultCode) (d : Nat) :
    faultAfter k code d (dropFlag f k s) = faultAfter k code d s := by
  have condition : ((dropFlag f k s).strand k).condition = (s.strand k).condition := by
    rw [dropFlag_strand, (setFlag_fields f false _).1]
  have now : (dropFlag f k s).now = s.now := pend_now _ _
  simp only [faultAfter, dropFlag_faults, record?_of_condition condition, condition, now]

theorem dropFlag_working (f : HoldFlag) : (dropFlag f k s).working = s.working := pend_working _ _

theorem dropFlag_configured (f : HoldFlag) (j : Strand) : (dropFlag f k s).isConfigured j = s.isConfigured j :=
  congrArg (fun n => decide (j.val < n)) (pend_configuredCount _ _)

theorem dropFlag_pends (f : HoldFlag) (hk : s.isConfigured k = true) :
    (dropFlag f k s).noticePending.look (Source.state k).number = true := pend_look (.state k) _ hk

/-- The release of a flag of a HELD strand (R16): it stays HELD while another flag stands, and else restarts. -/
theorem releaseFlag_held {f : HoldFlag} (hc : (s.strand k).condition = .held) (hf : (s.strand k).flag f = true) :
    releaseFlag f k s = if ((s.strand k).setFlag f false).anyHold then dropFlag f k s
      else restartFromHeld k (dropFlag f k s) := by
  rw [← dropFlag_strand]
  simp only [releaseFlag, if_pos hf, modReported_clear hf, hc, dropFlag]
  rfl

theorem releaseFlag_owed_state {f : HoldFlag} (hf : (s.strand k).flag f = true) (hk : s.isConfigured k = true) :
    (releaseFlag f k s).noticePending.look (Source.state k).number = true := by
  rw [releaseFlag, if_pos hf, modReported_clear hf]
  have owed := dropFlag_pends (s := s) f hk
  rw [dropFlag] at owed
  dsimp only
  repeat' split
  any_goals exact owed
  exact restartFromHeld_owed _ _ _ owed

theorem restartFromHeld_some {n : Fin 32} {p : Plan}
    (h : lookupPlan s.working k (if (s.strand k).driveLost then .dip else .flying) = some (n, p)) :
    restartFromHeld k s = enterRestarting k (if (s.strand k).driveLost then .dip else .flying) n p s := by
  simp only [restartFromHeld, h]

theorem restartFromHeld_none (h : lookupPlan s.working k (if (s.strand k).driveLost then .dip else .flying) = none) :
    restartFromHeld k s = enterHalted k .noPlan
      (writeFault k .noPlan (kindCode (if (s.strand k).driveLost then .dip else .flying)) s) := by
  simp only [restartFromHeld, h]

/-! ### Entry into HALTED of a strand that is not restarting -/

theorem enterHalted_strand_of_no_record (h : s.record? k = none) (cause : HaltCause) : (enterHalted k cause s).strand k =
    { (s.strand k).settle with
      condition := .halted cause
      steel := (s.strand k).steel || cause == .reset
      driveLost := (s.strand k).driveLost && !(s.strand k).condition.isOffline } := by
  unfold enterHalted
  dsimp only
  rw [pend_strand, reportSettled_strand, modStrand_strand_same, updUnit_strand, abandon_of_no_record h]

theorem enterHalted_atRest_of_no_record (h : s.record? k = none) (cause : HaltCause) :
    AtRest (enterHalted k cause s) k (haltCooling s k cause) := by
  refine atRest_of_unit (u := s.unit k) ?_
  unfold enterHalted
  dsimp only
  rw [pend_unit, reportSettled_unit, abandon_of_no_record h]
  exact updUnit_unit_same _ _ _

/-- A strand that finds no plan is halted for it (R16, R48). -/
theorem noPlan_strand (d : Nat) (hc : (s.strand k).condition = .held) :
    (enterHalted k .noPlan (writeFault k .noPlan d s)).strand k =
      { (s.strand k).settle with condition := .halted .noPlan } := by
  have record : (writeFault k .noPlan d s).record? k = none := by
    rw [writeFault_record, State.record?, hc]
    rfl
  rw [enterHalted_strand_of_no_record record, writeFault_strand, hc]
  simp [Condition.isOffline, StrandContext.settle]

theorem noPlan_rest (d : Nat) (hc : (s.strand k).condition = .held) (hk : s.isConfigured k = true) :
    AtRest (enterHalted k .noPlan (writeFault k .noPlan d s)) k ⟨0, 0, 0, 0⟩ ∧
      (enterHalted k .noPlan (writeFault k .noPlan d s)).faults.look k = some (faultAfter k .noPlan d s) ∧
      (enterHalted k .noPlan (writeFault k .noPlan d s)).noticePending.look (Source.fault k).number = true := by
  refine ⟨enterHalted_atRest_of_no_record ?_ .noPlan, ?_, enterHalted_owed k .noPlan _ _ (writeFault_pends k _ _ s hk)⟩
  · rw [writeFault_record, State.record?, hc]
    rfl
  · rw [enterHalted_faults, writeFault_look]

/-- A restart from HELD sets no flag. -/
theorem restartFromHeld_flag {f : HoldFlag} (hc : (s.strand k).condition = .held) (hf : (s.strand k).flag f = false) :
    ((restartFromHeld k s).strand k).flag f = false := by
  unfold restartFromHeld
  dsimp only
  split
  · next n p _ =>
    obtain ⟨-, tundish, dip, operator, -⟩ := enterRestarting_context (s := s) (k := k)
      (if (s.strand k).driveLost then .dip else .flying) n p
    cases f
    · exact tundish.trans hf
    · exact dip.trans hf
    · exact operator.trans hf
  · rw [noPlan_strand _ hc]
    cases f <;> rfl

theorem flag_setFlag (f : HoldFlag) (b : Bool) (c : StrandContext) : (c.setFlag f b).flag f = b := by cases f <;> rfl

/-- A release claim clears its flag, whatever becomes of the strand (R16). -/
theorem releaseFlag_clears (f : HoldFlag) : ((releaseFlag f k s).strand k).flag f = false := by
  have dropped : ((dropFlag f k s).strand k).flag f = false := by rw [dropFlag_strand, flag_setFlag]
  unfold releaseFlag
  split
  · next hf =>
    rw [modReported_clear hf, ← dropFlag]
    dsimp only
    split
    · next hc =>
      split
      · exact dropped
      · refine restartFromHeld_flag ?_ dropped
        rw [dropFlag_strand, (setFlag_fields f false _).1, hc]
    all_goals exact dropped
  · next hf => exact Bool.eq_false_iff.mpr hf

end

/-! ### RESUME -/

section
variable {s : State} {k : Strand}

/-- RESUME's checks (R24). -/
def resumeChecks (k : Strand) (s : State) : List (Bool × ReplyCode) :=
  [(s.trip.latched, .tripped), ((s.strand k).condition != .held || !(s.strand k).heldByOperator, .wrongState)]

theorem handleResume_eq (hk : s.inService k = true) :
    handleResume (nameByte k) s = checked (resumeChecks k) (accept (releaseFlag .operator k)) s := namingInService_name k _ s hk

end

/-- Settles O24: the checks first; the flag's release leaves the strand HELD, restarts it, or halts it without a plan. -/
theorem resumeReleases : Obligations.ResumeReleases := by
  intro tag k s hq hk
  refine ⟨fun hl => ?_, fun hl hc => ?_, fun hl hc ho => ?_⟩
  · exact request_refuses tag 0x0A _ .tripped s hq
      ((handleResume_eq hk).trans (checked_fails _ _ _ _ (by rw [resumeChecks, hl]; rfl)))
  · refine request_refuses tag 0x0A _ .wrongState s hq ((handleResume_eq hk).trans (checked_fails _ _ _ _ ?_))
    rw [resumeChecks, hl]
    rcases hc with hc | hc
    · rw [bne_iff_ne.mpr hc]; rfl
    · rw [hc]; simp [firstFailure]
  · have passes : firstFailure (resumeChecks k s) = none := by rw [resumeChecks, hl, hc, ho]; rfl
    have configured := isConfigured_of_inService k s hk
    obtain ⟨t, reached, answered, -, sent⟩ := request_acts tag 0x0A (.of_command (.resume tag (nameByte k)) rfl) _ s hq
      ((handleResume_eq hk).trans (checked_passes _ _ _ passes))
    have dropped := dropFlag_strand (s := s) (k := k) .operator
    have held : ((dropFlag .operator k s).strand k).condition = .held := by rw [dropped]; exact hc
    have lost : ((dropFlag .operator k s).strand k).driveLost = (s.strand k).driveLost := by rw [dropped]; rfl
    have outcome := releaseFlag_held (f := .operator) hc ho
    refine ⟨t, reached, answered, sent.1.localTo (releaseFlag_at .operator k s).local,
      sent.2 _ (.inl (releaseFlag_owed_state (f := .operator) ho configured)), ?_, fun other => ?_, fun hT hD => ?_⟩
    · rw [sent.1.strand]
      exact releaseFlag_clears .operator
    · rw [outcome, if_pos (by rcases other with h | h <;> simp [StrandContext.setFlag, StrandContext.anyHold, h])] at sent
      refine ⟨?_, sent.1.units.trans (dropFlag_units _), sent.1.faults.trans (dropFlag_faults _)⟩
      rw [sent.1.strand, dropped]
      rfl
    · rw [outcome, if_neg (by simp [StrandContext.setFlag, StrandContext.anyHold, hT, hD])] at sent
      have working := dropFlag_working (s := s) (k := k) .operator
      rw [← lost, ← working]
      split
      · next n p found =>
        rw [restartFromHeld_some found] at sent
        obtain ⟨steel, -, -, -, timer⟩ := enterRestarting_context (s := dropFlag .operator k s) (k := k)
          (if ((dropFlag .operator k s).strand k).driveLost then .dip else .flying) n p
        obtain ⟨r, record, -, kind, number, snapshot, -⟩ := enterRestarting_record (s := dropFlag .operator k s) (k := k)
          (if ((dropFlag .operator k s).strand k).driveLost then .dip else .flying) n p
        refine ⟨?_, ?_, ?_, ?_⟩
        · rw [sent.1.strand, timer, dropped]; rfl
        · rw [sent.1.strand, steel, dropped]; rfl
        · rw [sent.1.faults, enterRestarting_faults, dropFlag_faults]
        · rw [sent.1.record, record, Option.map_some, kind, number, snapshot]
          rfl
      · next found =>
        rw [restartFromHeld_none found] at sent
        have strand := noPlan_strand (kindCode (if ((dropFlag .operator k s).strand k).driveLost then .dip else .flying)) held
        obtain ⟨rest, fault, owed⟩ := noPlan_rest
          (kindCode (if ((dropFlag .operator k s).strand k).driveLost then .dip else .flying)) held
          ((dropFlag_configured .operator k).trans configured)
        refine ⟨?_, sent.1.atRest rest, sent.2 _ (.inl owed), ?_, ?_, ?_⟩
        · rw [sent.1.strand, strand]
        · rw [sent.1.strand, strand, dropped]; rfl
        · rw [sent.1.strand, strand, dropped]; rfl
        · rw [sent.1.faults, fault, dropFlag_faultAfter]

end Sys2Proof.Machine
end
section
/-! PROOFS. STRAND CONTROL (R122, R123): its checks, the unit it leaves, and DISENGAGE. -/

namespace Sys2Proof.Machine

/-! ### The unit's fields -/

/-- The control mode that STRAND CONTROL's field gives (R123, item 2). -/
def newMode (mode : Byte) (u : UnitState) : ControlMode :=
  if mode = 1 then .auto else if mode = 2 then .manual else u.controlMode

/-- The manual choice that STRAND CONTROL's field gives (R123, item 1). -/
def newChoice (choice : Byte) (u : UnitState) : Supervision :=
  if choice = 1 then .acquire else if choice = 2 then .track else u.manualChoice

/-- The unit after an accepted STRAND CONTROL: a changed mode clears LOCK (R114, R123). -/
def controlled (mode choice : Byte) (u : UnitState) : UnitState :=
  { u with
    controlMode := newMode mode u
    manualChoice := newChoice choice u
    lock := if newMode mode u = u.controlMode then u.lock else false
    inCount := if newMode mode u = u.controlMode then u.inCount else 0
    outCount := if newMode mode u = u.controlMode then u.outCount else 0 }

theorem applyChoice_eq (choice : Byte) (u : UnitState) : applyChoice choice u = { u with manualChoice := newChoice choice u } := by
  unfold applyChoice newChoice
  split
  · rfl
  · split <;> rfl

theorem setMode_eq (m : ControlMode) (u : UnitState) : u.setMode m =
    { u with
      controlMode := m
      lock := if m = u.controlMode then u.lock else false
      inCount := if m = u.controlMode then u.inCount else 0
      outCount := if m = u.controlMode then u.outCount else 0 } := by
  unfold UnitState.setMode
  by_cases h : u.controlMode = m
  · subst h
    simp
  · rw [if_neg h, if_neg (Ne.symm h), if_neg (Ne.symm h), if_neg (Ne.symm h)]
    rfl

theorem applyMode_eq (mode : Byte) (u : UnitState) : applyMode mode u =
    { u with
      controlMode := newMode mode u
      lock := if newMode mode u = u.controlMode then u.lock else false
      inCount := if newMode mode u = u.controlMode then u.inCount else 0
      outCount := if newMode mode u = u.controlMode then u.outCount else 0 } := by
  unfold applyMode newMode
  split
  · exact setMode_eq .auto u
  · split
    · exact setMode_eq .manual u
    · simp

theorem applyMode_applyChoice (mode choice : Byte) (u : UnitState) :
    applyMode mode (applyChoice choice u) = controlled mode choice u := by
  rw [applyMode_eq, applyChoice_eq]
  rfl

/-- A unit at rest supervises wide in AUTO, and in MANUAL by its choice (R115). -/
theorem wide_of_unlocked {u : UnitState} (h : u.lock = false) : u.wide = decide (u.controlMode = .auto ∨ u.manualChoice = .acquire) := by
  unfold UnitState.wide UnitState.supervisor
  rw [h]
  cases u.controlMode <;> cases u.manualChoice <;> rfl

/-! ### Entry into HELD of a strand that is casting -/

section
variable {s : State} {k : Strand}

theorem enterHeld_strand_of_no_record (h : s.record? k = none) (f : HoldFlag) :
    (enterHeld k f s).strand k = (s.strand k).hold f := by
  unfold enterHeld
  dsimp only
  rw [pend_strand, modStrand_strand_same, updUnit_strand, abandon_of_no_record h]
  rfl

theorem enterHeld_unit_of_no_record (h : s.record? k = none) (f : HoldFlag) :
    (enterHeld k f s).unit k = (s.unit k).rest (f != .dip) (s.settingsOf k).holdCooling ∧
      ∀ j, j ≠ k → (enterHeld k f s).unit j = s.unit j := by
  unfold enterHeld
  dsimp only
  rw [abandon_of_no_record h]
  refine ⟨?_, fun j hj => ?_⟩
  · rw [pend_unit]
    exact updUnit_unit_same _ _ _
  · rw [pend_unit]
    exact updUnit_unit_ne _ _ _ j hj

theorem enterHeld_rest_of_no_record (h : s.record? k = none) (f : HoldFlag) : (enterHeld k f s).coordinator = s.coordinator ∧
    (enterHeld k f s).pour = s.pour ∧ (enterHeld k f s).drive = s.drive := by
  unfold enterHeld
  dsimp only
  rw [abandon_of_no_record h]
  simp

theorem enterHeld_pends (f : HoldFlag) (hk : s.isConfigured k = true) :
    (enterHeld k f s).noticePending.look (Source.state k).number = true := by
  refine pend_look (.state k) _ ?_
  show State.isConfigured _ k = true
  rw [State.isConfigured, modStrand_configuredCount, updUnit_configuredCount]
  exact (isConfigured_of_outside (abandon_carried k s).1 k).trans hk

/-! ### The two changes of the unit -/

/-- The unit's part of STRAND CONTROL (R123, items 1 and 2). -/
def controlUnit (k : Strand) (mode choice : Byte) (s : State) : State :=
  updUnit k (applyMode mode) (updUnit k (applyChoice choice) s)

variable (mode choice : Byte)

theorem controlUnit_strands : (controlUnit k mode choice s).strands = s.strands := by simp [controlUnit]

theorem controlUnit_strand (j : Strand) : (controlUnit k mode choice s).strand j = s.strand j :=
  congrArg (Tab.look · j) (controlUnit_strands mode choice)

theorem controlUnit_unit : (controlUnit k mode choice s).unit k = controlled mode choice (s.unit k) := by
  rw [controlUnit, updUnit_unit_same, updUnit_unit_same, applyMode_applyChoice]

theorem controlUnit_unit_ne {j : Strand} (hj : j ≠ k) : (controlUnit k mode choice s).unit j = s.unit j := by
  rw [controlUnit, updUnit_unit_ne _ _ _ j hj, updUnit_unit_ne _ _ _ j hj]

theorem controlUnit_at : AtStrand k s (controlUnit k mode choice s) :=
  ((updUnit_carried k _ s).trans (updUnit_carried k _ _)).at k

theorem controlUnit_rest : (controlUnit k mode choice s).faults = s.faults ∧
    (controlUnit k mode choice s).coordinator = s.coordinator ∧ (controlUnit k mode choice s).pour = s.pour ∧
    (controlUnit k mode choice s).drive = s.drive ∧
    (controlUnit k mode choice s).settingsOf k = s.settingsOf k ∧
    (controlUnit k mode choice s).isConfigured k = s.isConfigured k := by
  simp [controlUnit, State.settingsOf, State.isConfigured]

/-- A changed mode owes the LOCK notice (R113 to R115). -/
theorem controlUnit_pends (hk : s.isConfigured k = true) (hm : newMode mode (s.unit k) ≠ (s.unit k).controlMode) :
    (controlUnit k mode choice s).noticePending.look (Source.lock k).number = true := by
  have changed : ¬ (applyMode mode ((updUnit k (applyChoice choice) s).unit k)).lockView =
      ((updUnit k (applyChoice choice) s).unit k).lockView := by
    rw [updUnit_unit_same, applyMode_applyChoice, applyChoice_eq]
    exact fun h => hm (congrArg (fun v => v.2.1) h)
  rw [controlUnit, updUnit, if_neg changed]
  refine pend_look (.lock k) _ ?_
  show State.isConfigured _ k = true
  simpa [State.isConfigured] using hk

/-! ### The checks -/

theorem handleStrandControl_eq (level draw : Byte) (hk : s.inService k = true) :
    handleStrandControl (nameByte k) level draw mode choice s =
      checked (controlChecks k level draw mode choice) (accept (control k draw mode choice)) s := namingInService_name k _ s hk

theorem controlFields_eq (level draw : Byte) :
    (controlField level && controlField draw && controlField mode && controlField choice) =
      decide (level.toNat ≤ 2 ∧ draw.toNat ≤ 2 ∧ mode.toNat ≤ 2 ∧ choice.toNat ≤ 2) := by
  simp [controlField, Bool.and_assoc]

/-- The codes of the checks of a CASTING strand's request whose fields lie in their lists (R122). -/
theorem controlChecks_casting {level draw : Byte}
    (hf : level.toNat ≤ 2 ∧ draw.toNat ≤ 2 ∧ mode.toNat ≤ 2 ∧ choice.toNat ≤ 2) (hc : (s.strand k).condition = .casting)
    (hl : (s.unit k).levelOn = true) (hd : (s.unit k).draw = true) (hb : (s.levelSet k).lockBand ≠ 0) :
    firstFailure (controlChecks k level draw mode choice s) = if level = 2 then some .interlock else none := by
  have allowed : drawAllowed (s.levelSet k) (s.unit k) = true := by simp [drawAllowed, hl, hb]
  rw [controlChecks, controlFields_eq, decide_eq_true hf, hc, hd, allowed]
  by_cases h2 : level = 2
  · subst h2
    rw [if_pos rfl]
    cases changesLevel 2 (s.unit k) && changesDraw draw (s.unit k) <;> rfl
  · have keeps : changesLevel level (s.unit k) = false := by
      rw [changesLevel, hl, beq_eq_false_iff_ne.mpr h2]
      cases level == 1 <;> rfl
    rw [keeps, if_neg h2, beq_eq_false_iff_ne.mpr h2]
    cases draw == 1 <;> rfl

end

/-- Settles O26: the checks; then the unit's two fields, and DISENGAGE as an entry into HELD. -/
theorem strandControlActs : Obligations.StrandControlActs := by
  intro tag level draw mode choice k s hq hk
  have configured := isConfigured_of_inService k s hk
  refine ⟨fun hf => ?_, fun hf hc => ?_, fun hf hc hl hd hb h2 => ?_, fun hf hc hl hd hb h2 => ?_⟩
  · refine request_refuses tag 0x09 _ .badField s hq
      ((handleStrandControl_eq mode choice level draw hk).trans (checked_fails _ _ _ _ ?_))
    rw [controlChecks, controlFields_eq, decide_eq_false hf]
    rfl
  · refine request_refuses tag 0x09 _ .wrongState s hq
      ((handleStrandControl_eq mode choice level draw hk).trans (checked_fails _ _ _ _ ?_))
    rw [controlChecks, controlFields_eq, decide_eq_true hf, bne_iff_ne.mpr hc]
    rfl
  · refine request_refuses tag 0x09 _ .interlock s hq
      ((handleStrandControl_eq mode choice level draw hk).trans (checked_fails _ _ _ _ ?_))
    rw [controlChecks_casting mode choice hf hc hl hd hb, if_pos h2]
  · have passes : firstFailure (controlChecks k level draw mode choice s) = none := by
      rw [controlChecks_casting mode choice hf hc hl hd hb, if_neg h2]
    obtain ⟨t, reached, answered, -, sent⟩ := request_acts tag 0x09
      (.of_command (.strandControl tag (nameByte k) level draw mode choice) rfl) _ s hq
      ((handleStrandControl_eq mode choice level draw hk).trans (checked_passes _ _ _ passes))
    obtain ⟨faults, coordinator, pour, drive, settings, count⟩ := controlUnit_rest (s := s) (k := k) mode choice
    have strand := controlUnit_strand (s := s) (k := k) mode choice k
    have unit := controlUnit_unit (s := s) (k := k) mode choice
    have others := fun j hj => controlUnit_unit_ne (s := s) (k := k) (j := j) mode choice hj
    have around := controlUnit_at (s := s) (k := k) mode choice
    have lockOwed := controlUnit_pends (s := s) (k := k) mode choice configured
    refine ⟨t, reached, answered, ?_⟩
    by_cases h : draw = 2
    · have record : (controlUnit k mode choice s).record? k = none := by rw [State.record?, strand, hc]; rfl
      rw [show control k draw mode choice s = enterHeld k .operator (controlUnit k mode choice s) from if_pos h] at sent
      obtain ⟨own, rest⟩ := enterHeld_unit_of_no_record record .operator
      obtain ⟨hcoordinator, hpour, hdrive⟩ := enterHeld_rest_of_no_record record .operator
      have unitK : t.unit k = (controlled mode choice (s.unit k)).rest true (s.settingsOf k).holdCooling := by
        rw [sent.1.unit, own, unit, settings]
        rfl
      refine ⟨sent.1.localTo (around.trans (enterHeld_at k .operator _)).local, ?_, sent.1.coordinator.trans
        (hcoordinator.trans coordinator), sent.1.pour.trans (hpour.trans pour), sent.1.drive.trans (hdrive.trans drive),
        fun j hj => ?_, by rw [unitK]; rfl, by rw [unitK]; rfl,
        fun hm => sent.2 _ (.inl (enterHeld_owed k .operator _ _ (lockOwed hm))), fun hn => absurd h hn, fun _ => ⟨?_, ?_, ?_, ?_, ?_⟩⟩
      · rw [sent.1.faults, enterHeld_faults, faults]
      · rw [sent.1.unit, rest j hj, others j hj]
      · rw [sent.1.strand, enterHeld_strand_of_no_record record, strand]
        simp [StrandContext.hold, StrandContext.setFlag, HoldTimer.start]
      · have unlocked : (t.unit k).lock = false := by rw [unitK]; rfl
        rw [State.outputs, wide_of_unlocked unlocked, unitK]
        rfl
      · rw [unitK]; rfl
      · rw [unitK]; rfl
      · exact sent.2 _ (.inl (enterHeld_pends .operator (count.trans configured)))
    · rw [show control k draw mode choice s = controlUnit k mode choice s from if_neg h] at sent
      have unitK : t.unit k = controlled mode choice (s.unit k) := by rw [sent.1.unit, unit]
      refine ⟨sent.1.localTo around.local, sent.1.faults.trans faults, sent.1.coordinator.trans coordinator,
        sent.1.pour.trans pour, sent.1.drive.trans drive, fun j hj => ?_, by rw [unitK]; rfl, by rw [unitK]; rfl,
        fun hm => sent.2 _ (.inl (lockOwed hm)), fun _ => ⟨sent.1.strands.trans (controlUnit_strands mode choice), unitK⟩,
        fun hn => absurd hn h⟩
      rw [sent.1.unit, others j hj]

end Sys2Proof.Machine
end
section
/-! PROOFS. The completion of a step (R54): the next step begun in the same action, or the restart claimed complete. What an
action keeps of a strand whose step it does not name, and the speed reference (R75). -/

namespace Sys2Proof.Machine

/-! ### Actions in stages -/

/-- An action's later tasks are taken where its earlier ones have come to their end. -/
theorem drain_append (a b : List Task) (s : State) : drain (a ++ b) s = drain b (drain a s) := by
  match a with
  | [] => rw [List.nil_append, drain_nil]
  | t :: a =>
    rw [List.cons_append, drain_cons, drain_cons, ← List.append_assoc]
    exact drain_append _ b _
termination_by cascadeBound a s
decreasing_by exact runTask_lowers t a s

/-- An action's last task that brings no further one. -/
theorem drain_last {t : Task} {s u : State} (h : runTask t s = (u, [])) : drain [t] s = u := by
  rw [drain_cons, h]
  exact drain_nil u

/-! ### A step's completion -/

/-- The record of a step that has stopped (R54, R56). -/
def RestartRecord.stopped (r : RestartRecord) : RestartRecord :=
  { r with stepTimer := none, phase := .noPhase, phaseTimer := none, riseReference := none }

/-- The record at the step that follows (R54). -/
def RestartRecord.next (r : RestartRecord) : RestartRecord := { r.stopped with stepIndex := r.stepIndex + 1, attempt := none }

section
variable {s : State} {k : Strand} {r : RestartRecord}

theorem stopStep_of_record (h : s.record? k = some r) : stopStep k s = withRecord k r.stopped s := modRecord_of_record k _ r s h

theorem failStep_of_record (f : StepFailure) (h : s.record? k = some r) : failStep k f s =
    { withRecord k r.stopped s with inFlight := s.inFlight ++ [.stepFailureClaim k ⟨r.serial, f⟩] } := by
  simp only [failStep, h, stopStep_of_record h]
  rfl

/-- A step of the plan but the last completes (R54). -/
theorem finishStep_next (h : s.record? k = some r) (hi : r.stepIndex < r.snapshot.plan.steps.length) :
    finishStep k s = (pend (.state k) (withRecord k r.next s), [.enterStep k]) := by
  simp only [finishStep, h, if_pos hi, advanceStep, stopStep_of_record h, modRecord_withRecord]
  rfl

/-- The last step completes (R54). -/
theorem finishStep_last (h : s.record? k = some r) (hi : r.stepIndex = r.snapshot.plan.steps.length) : finishStep k s =
    ({ withRecord k r.stopped s with inFlight := s.inFlight ++ [.restartCompleteClaim k r.serial] }, []) := by
  simp only [finishStep, h, hi, Nat.lt_irrefl, if_false, stopStep_of_record h]
  rfl

theorem drain_completeStep (h : s.record? k = some r) (hi : r.stepIndex < r.snapshot.plan.steps.length) :
    drain [.completeStep k] s = drain [.enterStep k] (pend (.state k) (withRecord k r.next s)) := by
  rw [drain_cons, runTask, finishStep_next h hi]
  rfl

theorem drain_completeLast (h : s.record? k = some r) (hi : r.stepIndex = r.snapshot.plan.steps.length) :
    drain [.completeStep k] s =
      { withRecord k r.stopped s with inFlight := s.inFlight ++ [.restartCompleteClaim k r.serial] } :=
  drain_last (finishStep_last h hi)

/-- The restart stands at a later step than `r` did. -/
def Beyond (k : Strand) (r : RestartRecord) (s : State) : Prop :=
  ∃ r', s.record? k = some r' ∧ r.Onward r' ∧ r.stepIndex < r'.stepIndex

theorem Beyond.advanced {u t : State} (h : Beyond k r t) (hr : u.record? k = some r) : Advanced u t k := by
  obtain ⟨r', record, ⟨serial, -, -, snapshot, -⟩, later⟩ := h
  exact ⟨r, hr, r', record, serial, snapshot, later⟩

theorem Beyond.onward {s t : State} (h : Beyond k r s) (g : OnwardFrom s t) : Beyond k r t := by
  obtain ⟨r', record, onward, later⟩ := h
  obtain ⟨r'', record', onward'⟩ := (g k).1 r' record
  exact ⟨r'', record', onward.trans onward', Nat.lt_of_lt_of_le later onward'.2.2.2.2⟩

theorem beyond_next (s : State) (k : Strand) (r : RestartRecord) : Beyond k r (pend (.state k) (withRecord k r.next s)) := by
  refine ⟨r.next, ?_, ⟨rfl, rfl, rfl, rfl, Nat.le_succ _⟩, Nat.lt_succ_self _⟩
  rw [State.record?, pend_strand, strand_withRecord]
  rfl

/-- A completed step leaves the restart at a later one, with its notice (R5, R54). -/
theorem drain_completeStep_beyond (h : s.record? k = some r) (hi : r.stepIndex < r.snapshot.plan.steps.length)
    (hk : s.isConfigured k = true) : Beyond k r (drain [.completeStep k] s) ∧
      (drain [.completeStep k] s).noticePending.look (Source.state k).number = true := by
  rw [drain_completeStep h hi]
  exact ⟨(beyond_next s k r).onward (drain_onward _ _), drain_owed _ _ _ (pend_look (.state k) _ hk)⟩

end

/-! ### An action that does not name the strand's step -/

/-- `P` is kept by what an action at other strands, and a grant that is not taken, do to strand `k`. -/
structure AwayKeep (k : Strand) (P : State → Prop) : Prop where
  elsewhere : ∀ s t, Elsewhere k s t → t.now = s.now → P s → P t
  grant : ∀ p e rest s, e.strand = k → (s.pool p).waits = e :: rest → P s → P (makeGrant p k rest s)

section
variable {k : Strand} {P : State → Prop} (A : AwayKeep k P)
include A

theorem AwayKeep.carried {s t : State} (he : Elsewhere k s t) (hc : Carried s t) (h : P s) : P t := by
  obtain ⟨⟨⟨-, now, -⟩, -⟩, -⟩ := hc
  exact A.elsewhere s t he now h

theorem AwayKeep.avoids {s : State} {r : State × List Task} (ha : Avoids k s r) (hc : Carried s r.1) (h : P s) :
    P r.1 ∧ ∀ u ∈ r.2, Task.avoids k u := ⟨A.carried ha.1 hc h, ha.2⟩

/-- Tasks that begin, complete or end a step of another strand. -/
theorem AwayKeep.other {j : Strand} (hj : k ≠ j) (s : State) (h : P s) :
    (P (beginStep j s).1 ∧ ∀ u ∈ (beginStep j s).2, Task.avoids k u) ∧
    (P (finishStep j s).1 ∧ ∀ u ∈ (finishStep j s).2, Task.avoids k u) ∧
    (P (endInrush j s).1 ∧ ∀ u ∈ (endInrush j s).2, Task.avoids k u) := by
  refine ⟨A.avoids ?_ (beginStep_carried j s) h, A.avoids ?_ (finishStep_carried j s) h,
    A.avoids ⟨(dropGrant_elsewhere hj _ _).trans (modStrand_elsewhere hj _ _), by simpa [endInrush, Task.avoids] using hj⟩
      (endInrush_carried j s) h⟩
  · unfold beginStep
    split
    · exact (beginAction_avoids hj _ _).after (modRecord_elsewhere hj _ _)
    · exact ⟨Elsewhere.refl k s, by simp⟩
  · unfold finishStep
    split
    · exact ⟨Elsewhere.refl k s, by simp⟩
    · split
      · exact ⟨((modRecord_elsewhere hj _ _).trans (modRecord_elsewhere hj _ _)).trans (pend_elsewhere _ _),
          by simpa [Task.avoids] using hj⟩
      · exact ⟨(modRecord_elsewhere hj _ _).trans (emit_elsewhere _ _), by simp⟩

/-- A grant made to another strand. -/
theorem AwayKeep.grantOther {p : PoolId} {e : WaitEntry} {rest : List WaitEntry} {s : State} (he : e.strand ≠ k)
    (hw : (s.pool p).waits = e :: rest) (h : P s) : P (deliverGrant p e.strand (makeGrant p e.strand rest s)).1 ∧
      ∀ u ∈ (deliverGrant p e.strand (makeGrant p e.strand rest s)).2, Task.avoids k u := by
  have rests : (s.pool p).waiting k = false → rest.any (·.strand == k) = false := by
    rw [Pool.waiting, hw, List.any_cons, Bool.or_eq_false_iff]
    exact And.right
  refine A.avoids ((deliverGrant_avoids (Ne.symm he) p _).after (makeGrant_elsewhere (Ne.symm he) p rest s rests)) ?_ h
  exact (makeGrant_carried _ _ _ _).trans (deliverGrant_carried _ _ _)

end

/-- A grant that finds strand `k` in no SLOT_WAIT changes its grant record alone (R84). -/
theorem deliverGrant_away {p : PoolId} {k : Strand} {rest : List WaitEntry} {s : State} (h : s.phase k ≠ .slotWait) :
    deliverGrant p k (makeGrant p k rest s) = (makeGrant p k rest s, []) :=
  deliverGrant_other (by rw [makeGrant_phase]; exact h)

/-- What a strand in no SLOT_WAIT keeps of a task that does not name it. -/
theorem AwayKeep.runTask {k : Strand} {P : State → Prop} (A : AwayKeep k P) {t : Task} {s : State} (ht : t.avoids k)
    (hp : s.phase k ≠ .slotWait) (hs : P s) : P (runTask t s).1 ∧ ∀ u ∈ (runTask t s).2, Task.avoids k u := by
  cases t with
  | enterStep j => exact (A.other ht s hs).1
  | completeStep j => exact (A.other ht s hs).2.1
  | inrushEnd j => exact (A.other ht s hs).2.2
  | grantChoice p =>
    rw [Machine.runTask, Machine.grantPass]
    split
    · split
      · exact ⟨hs, nofun⟩
      · next e rest hw =>
        have chosen : Task.avoids k (.grantChoice p) := trivial
        by_cases he : e.strand = k
        · rw [he, deliverGrant_away hp]
          exact ⟨A.grant p e rest s he hw hs, by simpa using chosen⟩
        · obtain ⟨kept, avoids⟩ := A.grantOther he hw hs
          refine ⟨kept, fun u hu => ?_⟩
          rcases List.mem_append.mp hu with hu | hu
          · exact avoids u hu
          · rw [List.mem_singleton.mp hu]; exact chosen
    · exact ⟨hs, nofun⟩

/-- What a strand in no SLOT_WAIT keeps of an action that does not name it. -/
theorem AwayKeep.drain {k : Strand} {P : State → Prop} (A : AwayKeep k P) (hP : ∀ s, P s → s.phase k ≠ .slotWait)
    (l : List Task) (s : State) (hl : ∀ u ∈ l, Task.avoids k u) (h : P s) : P (Machine.drain l s) :=
  drain_keeps_among (Q := Task.avoids k) (fun _ s ht hs => A.runTask ht (hP s hs) hs) l s hl h

/-- Strand `k`'s context and unit, and its level parameter set, stand as in `s`. -/
theorem away_own (k : Strand) (s : State) :
    AwayKeep k fun t => t.strand k = s.strand k ∧ t.unit k = s.unit k ∧ t.levelSet k = s.levelSet k where
  elsewhere := fun t u ⟨strand, unit, level, _⟩ _ ⟨h1, h2, h3⟩ => ⟨strand.trans h1, unit.trans h2, level.trans h3⟩
  grant := fun p e rest t _ _ ⟨h1, h2, h3⟩ => by
    refine ⟨(makeGrant_strand p k rest t k).trans h1, (makeGrant_unit p k rest t k).trans h2, ?_⟩
    rw [← h3]
    cases p <;> rfl

theorem drain_away {k : Strand} {s : State} (hp : s.phase k ≠ .slotWait) {l : List Task} (hl : ∀ u ∈ l, Task.avoids k u) :
    (drain l s).strand k = s.strand k ∧ (drain l s).unit k = s.unit k ∧ (drain l s).levelSet k = s.levelSet k := by
  refine (away_own k s).drain (fun t ⟨strand, _⟩ => ?_) l s hl ⟨rfl, rfl, rfl⟩
  rw [State.phase, State.record?, strand]
  exact hp

/-! ### The speed reference -/

/-- The two changes of the unit in REFERENCE_WAIT (R75, R120). -/
theorem followReference_takeReference (v : Nat) (u : UnitState) : UnitState.followReference v (UnitState.takeReference v u) =
    { u with lastReference := some v, speedSource := .reference, setpoint := v } := rfl

theorem takeReference_eq (v : Nat) (u : UnitState) : UnitState.takeReference v u =
    { u with lastReference := some v, setpoint := if u.speedSource = .reference then v else u.setpoint } := by
  unfold UnitState.takeReference
  cases u.speedSource <;> rfl

theorem modUnit_modUnit (k : Strand) (f g : UnitState → UnitState) (s : State) :
    modUnit k g (modUnit k f s) = modUnit k (fun u => g (f u)) s := by
  have own : (modUnit k f s).unit k = f (s.unit k) := look_put_same _ _ _
  simp only [modUnit] at own ⊢
  rw [own]
  simp [put_put]

/-- Settles O48: the reference is taken, and in REFERENCE_WAIT the step's completion is read off its equation. -/
theorem speedReferenceIsTaken : Obligations.SpeedReferenceIsTaken := by
  intro k v r s
  have quiet := updUnit_quiet k (UnitState.takeReference v) s rfl
  refine ⟨rfl, fun hk => ?_, fun hk hp => ?_, fun hk hr hp hi => ?_⟩
  · exact event_discarded (i := .speedReferenceSample k (.valid v)) ⟨rfl, nofun⟩ s (if_neg (by rw [hk]; nofun))
  · have elsewhere : ¬ (updUnit k (UnitState.takeReference v) s).phase k = .referenceWait := by
      rwa [State.phase, State.record?, updUnit_strand]
    have taken : effect (.speedReferenceSample k (.valid v)) s = modUnit k (UnitState.takeReference v) s :=
      (if_pos hk).trans ((if_neg elsewhere).trans quiet)
    rw [exec_event (i := .speedReferenceSample k (.valid v)) ⟨rfl, nofun⟩ s, taken, modUnit, takeReference_eq]
  · have record : (modUnit k (fun u => UnitState.followReference v (UnitState.takeReference v u)) s).record? k = some r := hr
    have waits : (updUnit k (UnitState.takeReference v) s).phase k = .referenceWait := by
      rw [State.phase, State.record?, updUnit_strand, ← State.record?, hr]
      exact hp
    have taken : effect (.speedReferenceSample k (.valid v)) s = drain [.completeStep k]
        (modUnit k (fun u => UnitState.followReference v (UnitState.takeReference v u)) s) := by
      refine (if_pos hk).trans ((if_pos waits).trans ?_)
      rw [updUnit_quiet k (UnitState.followReference v) _ rfl, quiet, modUnit_modUnit]
    obtain ⟨t, reached, same, -⟩ := event_acts (i := .speedReferenceSample k (.valid v)) ⟨rfl, nofun⟩ s
    rw [taken, drain_completeLast record hi] at same
    refine ⟨t, reached, same.inFlight, ?_⟩
    rw [SameButNotices, same.inFlight]
    exact same

end Sys2Proof.Machine
end
section
/-! PROOFS. The response timers of an OPEN and a DRIVE step (R66, R68, R93 to R98). -/

namespace Sys2Proof.Machine

/-! ### The failure claims that an action sends -/

/-- A failure claim of strand `k` that is under way in `t` was under way in `s`. -/
def NoNewFailure (k : Strand) (s t : State) : Prop :=
  ∀ c, Instr.stepFailureClaim k c ∈ t.inFlight → Instr.stepFailureClaim k c ∈ s.inFlight

section
variable {k j : Strand}

theorem NoNewFailure.trans {s t u : State} (a : NoNewFailure k s t) (b : NoNewFailure k t u) : NoNewFailure k s u :=
  fun c h => a c (b c h)

theorem noNewFailure_of_eq {s t : State} (h : t.inFlight = s.inFlight) : NoNewFailure k s t := fun c hc => by rwa [h] at hc

theorem emit_noNewFailure {i : Instr} (hi : ∀ c, i ≠ .stepFailureClaim k c) (s : State) : NoNewFailure k s (emit i s) :=
  fun c hc => by
    rcases List.mem_append.mp hc with h | h
    · exact h
    · exact absurd (List.mem_singleton.mp h).symm (hi c)

theorem failStep_noNewFailure (hj : k ≠ j) (f : StepFailure) (s : State) : NoNewFailure k s (failStep j f s) := by
  unfold failStep
  split
  · refine (noNewFailure_of_eq (modRecord_inFlight _ _ _)).trans (emit_noNewFailure (fun c e => hj ?_) _)
    exact (Instr.stepFailureClaim.inj e).1.symm
  · exact noNewFailure_of_eq rfl

theorem openForAttempt_inFlight (s : State) : (openForAttempt j s).inFlight = s.inFlight := by
  unfold openForAttempt
  split
  · simp [toPhase, openWindow]
  · rfl

theorem deliverGrant_inFlight (p : PoolId) (s : State) : (deliverGrant p j s).1.inFlight = s.inFlight := by
  unfold deliverGrant
  split
  · cases p with
    | pour =>
      dsimp only [takePourGrant]
      repeat' split
      · exact openForAttempt_inFlight s
      · exact (openForAttempt_inFlight _).trans (modRecord_inFlight _ _ _)
      · exact modRecord_inFlight _ _ _
    | drive =>
      dsimp only [takeDriveGrant]
      split
      · simp [enterInrush, toPhase, answer]
      · simp [toPhase]
  · rfl

theorem grantPass_inFlight (p : PoolId) (s : State) : (grantPass p s).1.inFlight = s.inFlight := by
  unfold grantPass
  split
  · split
    · rfl
    · exact (deliverGrant_inFlight _ _).trans (makeGrant_inFlight _ _ _ _)
  · rfl

theorem requestSlot_noNewFailure (hj : k ≠ j) (p : PoolId) (s : State) : NoNewFailure k s (requestSlot p j s).1 := by
  unfold requestSlot
  split
  · exact failStep_noNewFailure hj _ _
  · exact noNewFailure_of_eq (by simp [joinWaits, toPhase])

theorem writeSource_inFlight (src : LevelSource) (s : State) : (writeSource j src s).inFlight = s.inFlight := by
  cases src with
  | plan p =>
    rw [writeSource, writeLevelSet]
    dsimp only
    split
    · exact updUnit_inFlight _ _ _
    · rfl
  | strand => rfl

theorem beginLevel_noNewFailure (hj : k ≠ j) (src : LevelSource) (s : State) : NoNewFailure k s (beginLevel j src s).1 := by
  unfold beginLevel
  split
  · exact failStep_noNewFailure hj _ _
  · exact noNewFailure_of_eq ((modRecord_inFlight _ _ _).trans ((updUnit_inFlight _ _ _).trans (writeSource_inFlight _ _)))

theorem beginDraw_noNewFailure (hj : k ≠ j) (a b c : Nat) (s : State) : NoNewFailure k s (beginDraw j a b c s).1 := by
  unfold beginDraw
  split
  · exact noNewFailure_of_eq ((modRecord_inFlight _ _ _).trans (updUnit_inFlight _ _ _))
  · split
    · exact noNewFailure_of_eq ((modRecord_inFlight _ _ _).trans (updUnit_inFlight _ _ _))
    · exact failStep_noNewFailure hj _ _

theorem beginAction_noNewFailure (hj : k ≠ j) (a : Action) (s : State) : NoNewFailure k s (beginAction j a s).1 := by
  cases a with
  | check m => exact noNewFailure_of_eq (modRecord_inFlight _ _ _)
  | cool z => exact noNewFailure_of_eq (updUnit_inFlight _ _ _)
  | drive => exact requestSlot_noNewFailure hj _ _
  | opening a b c d => exact requestSlot_noNewFailure hj _ _
  | level src => exact beginLevel_noNewFailure hj src s
  | wait => exact noNewFailure_of_eq (modRecord_inFlight _ _ _)
  | draw a b c => exact beginDraw_noNewFailure hj a b c s
  | handover => exact noNewFailure_of_eq (modRecord_inFlight _ _ _)

theorem beginStep_noNewFailure (hj : k ≠ j) (s : State) : NoNewFailure k s (beginStep j s).1 := by
  unfold beginStep
  split
  · exact (noNewFailure_of_eq (modRecord_inFlight _ _ _)).trans (beginAction_noNewFailure hj _ _)
  · exact noNewFailure_of_eq rfl

theorem finishStep_noNewFailure (s : State) : NoNewFailure k s (finishStep j s).1 := by
  unfold finishStep
  split
  · exact noNewFailure_of_eq rfl
  · split
    · exact noNewFailure_of_eq (by simp [advanceStep, stopStep])
    · exact (noNewFailure_of_eq (modRecord_inFlight _ _ _)).trans (emit_noNewFailure (fun _ e => by cases e) _)

/-- An action that does not name strand `k` claims no failure of it. -/
theorem drain_noNewFailure {l : List Task} {s : State} (hl : ∀ u ∈ l, Task.avoids k u)
    (hw : ∀ p, (s.pool p).waiting k = false) : NoNewFailure k s (drain l s) := by
  refine (drain_keeps_among (P := fun t => Elsewhere k s t ∧ NoNewFailure k s t) (Q := Task.avoids k) (fun u t hu ht => ?_)
    l s hl ⟨.refl k s, noNewFailure_of_eq rfl⟩).2
  obtain ⟨own, sent⟩ := ht
  obtain ⟨same, avoids⟩ := runTask_avoids u t hu fun p => (own.2.2.2 p).2 (hw p)
  refine ⟨⟨own.trans same, sent.trans ?_⟩, avoids⟩
  cases u with
  | enterStep j => exact beginStep_noNewFailure hu t
  | completeStep j => exact finishStep_noNewFailure t
  | grantChoice p => exact noNewFailure_of_eq (grantPass_inFlight p t)
  | inrushEnd j => exact noNewFailure_of_eq (by simp [runTask, endInrush, dropGrant])

end

/-! ### A slot given back, and the exclusion -/

section
variable {k : Strand}

/-- A strand that neither holds a slot of a pool nor waits for one comes to none by what others do. -/
theorem away_free (p : PoolId) (s : State) : AwayKeep k fun t =>
    t.strand k = s.strand k ∧ t.unit k = s.unit k ∧ (t.pool p).grant? k = none ∧ (t.pool p).waiting k = false where
  elsewhere := fun t u ⟨strand, unit, _, pools⟩ _ ⟨h1, h2, h3, h4⟩ =>
    ⟨strand.trans h1, unit.trans h2, (pools p).1.trans h3, (pools p).2 h4⟩
  grant := fun q e rest t he hw ⟨h1, h2, h3, h4⟩ => by
    have pq : p ≠ q := fun c => by
      subst c
      rw [Pool.waiting, hw, List.any_cons, he, beq_self_eq_true, Bool.true_or] at h4
      exact absurd h4 nofun
    rw [(makeGrant_pool q k rest t).2 p pq]
    exact ⟨(makeGrant_strand q k rest t k).trans h1, (makeGrant_unit q k rest t k).trans h2, h3, h4⟩

theorem dropGrant_grant (p : PoolId) (s : State) : ((dropGrant p k s).pool p).grant? k = none := by
  rw [dropGrant, modPool_pool_same]
  exact look_put_same _ _ _

theorem dropGrant_waiting (p : PoolId) (s : State) : ((dropGrant p k s).pool p).waiting k = (s.pool p).waiting k := by
  rw [dropGrant, modPool_pool_same]
  rfl

/-- A slot given back by a strand in no SLOT_WAIT (R85). -/
theorem releaseSlot_own (p : PoolId) {s : State} (hp : s.phase k ≠ .slotWait) (hw : (s.pool p).waiting k = false) :
    (releaseSlot p k s).strand k = s.strand k ∧ (releaseSlot p k s).unit k = s.unit k ∧
      ((releaseSlot p k s).pool p).grant? k = none := by
  have dropped : (dropGrant p k s).strand k = s.strand k := by simp [State.strand, dropGrant]
  obtain ⟨strand, unit, grant, -⟩ := (away_free p (dropGrant p k s)).drain (fun t ⟨strand, _⟩ => by
      rwa [State.phase, State.record?, strand, dropped]) [.grantChoice p] (dropGrant p k s)
    (by simp [Task.avoids]) ⟨rfl, rfl, dropGrant_grant p s, (dropGrant_waiting p s).trans hw⟩
  exact ⟨strand.trans dropped, unit.trans (by simp [State.unit, dropGrant]), grant⟩

/-- The slot given back and the strand excluded (R68, R96). -/
def expel (p : PoolId) (k : Strand) (s : State) : State := exclude p k (releaseSlot p k s)

theorem exclude_pool (p : PoolId) (k : Strand) (s : State) : ((exclude p k s).pool p).excluded = (s.pool p).excluded.put k true ∧
    ((exclude p k s).pool p).grant? k = (s.pool p).grant? k ∧ ∀ q, q ≠ p → (exclude p k s).pool q = s.pool q := by
  have same : ∀ q, (exclude p k s).pool q =
      (modPool p (fun x => { x with excluded := x.excluded.insert k }) s).pool q := fun q => by
    cases q <;> simp [exclude, State.pool]
  refine ⟨?_, ?_, fun q hq => ?_⟩
  · rw [same, modPool_pool_same]; rfl
  · rw [same, modPool_pool_same]; rfl
  · rw [same, modPool_pool_ne _ _ _ _ hq]

theorem exclude_strand (p : PoolId) (k j : Strand) (s : State) : (exclude p k s).strand j = s.strand j := by
  simp [exclude, State.strand]

theorem exclude_outside (p : PoolId) (k : Strand) (s : State) : Outside s (exclude p k s) :=
  (modPool_outside p _ s).trans (pend_carried .arbiter _).1

/-- What the loss of a slot leaves alone. -/
theorem expel_frame (p : PoolId) (k : Strand) (s : State) : Outside s (expel p k s) ∧ (∀ j, SameStrand s (expel p k s) j) ∧
    (expel p k s).faults = s.faults ∧ ((expel p k s).pool p).excluded = (s.pool p).excluded.put k true ∧
    (∀ q, q ≠ p → ((expel p k s).pool q).excluded = (s.pool q).excluded) ∧
    (expel p k s).noticePending.look Source.arbiter.number = true := by
  obtain ⟨outside, same, faults, -, -, -, pour, drive, -⟩ := releaseSlot_carried p k s
  have kept : ∀ q, ((releaseSlot p k s).pool q).excluded = (s.pool q).excluded := fun q => by
    cases q
    · exact pour
    · exact drive
  obtain ⟨excluded, -, others⟩ := exclude_pool p k (releaseSlot p k s)
  refine ⟨outside.trans (exclude_outside _ _ _), fun j => ?_, ?_, ?_, fun q hq => ?_, pend_look .arbiter _ rfl⟩
  · have := same j
    rwa [SameStrand, expel, exclude_strand]
  · exact (by simp [expel, exclude] : (expel p k s).faults = (releaseSlot p k s).faults).trans faults
  · rw [expel, excluded, kept]
  · rw [expel, others q hq, kept]

theorem holds_of_grant {p : Pool} {k : Strand} (h : p.grant? k = none) : p.holds k = false := by rw [Pool.holds, h]; rfl

/-- A step that has lost its slot fails (R68, R96). -/
theorem expelled_fails (p : PoolId) (f : StepFailure) {s u : State} {r : RestartRecord} (hr : s.record? k = some r)
    (hw : (s.pool p).waiting k = false) (hu : u = failStep k f (expel p k (stopStep k s))) :
    Failed s u k f ∧ u.noticePending.look Source.arbiter.number = true ∧ Outside s u ∧ u.faults = s.faults ∧
      (∀ j, SameStrand s u j) ∧ (u.pool p).holds k = false ∧ (u.pool p).excluded = (s.pool p).excluded.put k true ∧
      ∀ q, q ≠ p → (u.pool q).excluded = (s.pool q).excluded := by
  have stopped : (stopStep k s).record? k = some r.stopped := by rw [stopStep_of_record hr, record?_withRecord]
  have pools : ∀ q, (stopStep k s).pool q = s.pool q := fun q => by cases q <;> simp [State.pool, stopStep]
  have phase : (stopStep k s).phase k ≠ .slotWait := by rw [State.phase, stopped]; nofun
  obtain ⟨strand, -, grant⟩ := releaseSlot_own p phase (by rw [pools]; exact hw)
  obtain ⟨-, excludedGrant, -⟩ := exclude_pool p k (releaseSlot p k (stopStep k s))
  obtain ⟨outside, same, faults, excluded, others, owed⟩ := expel_frame p k (stopStep k s)
  have record : (expel p k (stopStep k s)).record? k = some r.stopped := by
    rw [State.record?, expel, exclude_strand, strand]
    exact stopped
  obtain ⟨outsideStop, sameStop, faultsStop, -⟩ := stopStep_carried k s
  obtain ⟨outsideFail, sameFail, faultsFail, -⟩ := failStep_carried k f (expel p k (stopStep k s))
  have failed := failStep_of_record f record
  subst hu
  refine ⟨⟨r, hr, ?_, ?_⟩, failStep_owed k f _ _ owed, (outsideStop.trans outside).trans outsideFail,
    faultsFail.trans (faults.trans faultsStop), fun j => ((sameStop j).trans (same j)).trans (sameFail j), ?_, ?_, fun q hq => ?_⟩
  · rw [failed]
    exact record?_withRecord k _ _
  · rw [failed]
    exact List.mem_append_right _ (List.mem_singleton.mpr rfl)
  · rw [failed]
    exact holds_of_grant (excludedGrant.trans grant)
  · rw [failed]
    exact excluded.trans (by rw [pools])
  · rw [failed]
    exact (others q hq).trans (by rw [pools])

/-- A slot lost where no step stands for it, by a strand that waits nowhere (log 26). -/
theorem expel_own (p : PoolId) {s : State} (hw : ∀ q, (s.pool q).waiting k = false) :
    ((expel p k s).pool p).holds k = false ∧ (expel p k s).strand k = s.strand k ∧ (expel p k s).unit k = s.unit k ∧
      NoNewFailure k s (expel p k s) := by
  have waits : ∀ q, ((dropGrant p k s).pool q).waiting k = false := fun q => by
    by_cases h : q = p
    · rw [h, dropGrant_waiting]; exact hw p
    · rw [dropGrant, modPool_pool_ne _ _ _ _ h]; exact hw q
  have avoids : ∀ u ∈ [Task.grantChoice p], Task.avoids k u := by simp [Task.avoids]
  obtain ⟨strand, unit, -, pools⟩ := drain_elsewhere [.grantChoice p] (dropGrant p k s) avoids waits
  obtain ⟨-, grant, -⟩ := exclude_pool p k (releaseSlot p k s)
  refine ⟨holds_of_grant ?_, ?_, ?_, ?_⟩
  · exact grant.trans ((pools p).1.trans (dropGrant_grant p s))
  · exact (exclude_strand p k k _).trans (strand.trans (by simp [State.strand, dropGrant]))
  · refine Eq.trans ?_ (unit.trans (by simp [State.unit, dropGrant]))
    simp [expel, exclude, State.unit, releaseSlot]
  · have drained := drain_noNewFailure avoids waits
    intro c hc
    have := drained c (by simpa [expel, exclude, releaseSlot] using hc)
    simpa [dropGrant] using this

end

end Sys2Proof.Machine
end
section
/-! PROOFS. The stopper's attempts and the response timers' ends (R65, R66, R68, R94, R96). -/

namespace Sys2Proof.Machine

/-! ### The stopper opens -/

section
variable {s : State} {k : Strand} {r : RestartRecord} {fill start attempts dwell : Nat}

theorem modGrant_pour_only (k : Strand) (f : Grant → Grant) (s : State) :
    modGrant .pour k f s = { s with pour := (modGrant .pour k f s).pour } := by
  unfold modGrant
  split <;> rfl

theorem modGrant_grant_ne {p : PoolId} {k j : Strand} (hj : j ≠ k) (f : Grant → Grant) (s : State) :
    ((modGrant p k f s).pool p).grant? j = (s.pool p).grant? j := by
  unfold modGrant
  split
  · rw [modPool_pool_same]
    exact look_put_ne _ _ _ _ hj
  · rfl

/-- The response window opens on an idle grant (R93). -/
theorem openWindow_response (h : (s.pour.grant? k).map (·.response) = some .idle) :
    ((openWindow k s).pour.grant? k).map (·.response) = some (.running (s.working.pour.responseTime * 1000)) := by
  obtain ⟨g, hg, idle⟩ := Option.map_eq_some_iff.mp h
  have opened := modGrant_grant (p := .pour) (k := k) (s := s) hg
    fun g => { g with response := match g.response with
        | .idle => .running (responseTime s .pour)
        | .off => .off
        | .running n => .running n
        | .answered => .answered }
  rw [show (openWindow k s).pour.grant? k = _ from opened, Option.map_some]
  simp only [idle]
  rfl

theorem openForAttempt_other (h : ¬ ∃ a b c d, s.action? k = some (.opening a b c d)) : openForAttempt k s = s := by
  unfold openForAttempt fillOpening
  split
  · next n hn =>
    split at hn
    · next a b c d ha => exact absurd ⟨a, b, c, d, ha⟩ h
    · cases hn
  · rfl

/-- The state in which the attempt has begun (R66). -/
theorem openForAttempt_opens (hr : s.record? k = some r) (ha : s.action? k = some (.opening fill start attempts dwell)) :
    let t := openForAttempt k s
    t.outputs k = { s.outputs k with stopper := .opening fill } ∧
      t.strands = s.strands.put k { s.strand k with condition := .restarting (r.inPhase .pouring none) } ∧
      ((s.pour.grant? k).map (·.response) = some .idle →
        (t.pour.grant? k).map (·.response) = some (.running (s.working.pour.responseTime * 1000))) ∧
      t = { s with strands := t.strands, units := t.units, pour := t.pour } ∧
      ∀ j, j ≠ k → t.unit j = s.unit j ∧ t.pour.grant? j = s.pour.grant? j := by
  dsimp only
  rw [openForAttempt_of_action hr ha]
  have window : openWindow k (modUnit k (UnitState.openStopper fill) s) =
      { modUnit k (UnitState.openStopper fill) s with
        pour := (openWindow k (modUnit k (UnitState.openStopper fill) s)).pour } := modGrant_pour_only k _ _
  have units : (openWindow k (modUnit k (UnitState.openStopper fill) s)).units =
      s.units.put k ((s.unit k).openStopper fill) := modGrant_units _ _ _ _
  have strands : (openWindow k (modUnit k (UnitState.openStopper fill) s)).strands = s.strands := modGrant_strands _ _ _ _
  have unit : ∀ j, (openWindow k (modUnit k (UnitState.openStopper fill) s)).unit j =
      (s.units.put k ((s.unit k).openStopper fill)).look j := fun j => congrArg (Tab.look · j) units
  refine ⟨?_, ?_, fun idle => ?_, ?_, fun j hj => ⟨?_, ?_⟩⟩
  · simp only [State.outputs, unit_withRecord, unit, look_put_same]
    rfl
  · rw [withRecord, openWindow_strand, strands]
    rfl
  · exact openWindow_response (s := modUnit k (UnitState.openStopper fill) s) idle
  · rw [window]
    rfl
  · rw [unit_withRecord, unit]
    exact look_put_ne _ _ _ _ hj
  · exact modGrant_grant_ne (p := .pour) hj _ (modUnit k (UnitState.openStopper fill) s)

/-- What a command's end makes of the attempt begun (R66, R93). -/
theorem event_opens {i : Instr} (hi : isEvent i) (he : effect i s = openForAttempt k s) (hr : s.record? k = some r)
    (ha : s.action? k = some (.opening fill start attempts dwell)) :
    ∃ t, exec i s = .next t ∧ t.outputs k = { s.outputs k with stopper := .opening fill } ∧
      t.strands = s.strands.put k { s.strand k with condition := .restarting (r.inPhase .pouring none) } ∧
      ((s.pour.grant? k).map (·.response) = some .idle →
        (t.pour.grant? k).map (·.response) = some (.running (s.working.pour.responseTime * 1000))) ∧
      SameButNotices { s with strands := t.strands, units := t.units, pour := t.pour } t ∧
      ∀ j, j ≠ k → t.unit j = s.unit j ∧ t.pour.grant? j = s.pour.grant? j := by
  obtain ⟨outputs, strands, response, only, others⟩ := openForAttempt_opens hr ha
  obtain ⟨t, reached, same, -⟩ := event_acts hi s
  rw [he] at same
  refine ⟨t, reached, (same.outputs k).trans outputs, same.strands.trans strands, fun idle => ?_, ?_, fun j hj => ?_⟩
  · rw [same.pour]; exact response idle
  · rw [same.strands, same.units, same.pour]
    rwa [only] at same
  · rw [same.unit, same.pour]; exact others j hj

/-! ### The response timers -/

/-- The response set back to IDLE (R94). -/
def idled (k : Strand) (s : State) : State := modGrant .pour k (fun g => { g with response := .idle }) s

theorem grant_of_running {p : PoolId} (h : responseRunning p k s = true) : ∃ g, (s.pool p).grant? k = some g := by
  unfold responseRunning at h
  split at h
  · next g hg => exact ⟨g, hg⟩
  · cases h

theorem idled_eq (h : responseRunning .pour k s = true) : idled k s = { s with pour := { s.pour with
    holders := s.pour.holders.put k ((s.pour.grant? k).map fun g => { g with response := .idle }) } } := by
  obtain ⟨g, hg⟩ := grant_of_running h
  have own : s.pour.grant? k = some g := hg
  rw [idled, modGrant, hg, own]
  rfl

theorem idled_strand (j : Strand) : (idled k s).strand j = s.strand j := congrArg (Tab.look · j) (modGrant_strands _ _ _ _)

theorem idled_record : (idled k s).record? k = s.record? k := congrArg (fun c => c.condition.record?) (idled_strand k)

theorem idled_action : (idled k s).action? k = s.action? k := by rw [State.action?, State.action?, idled_record]

theorem idled_waiting : (idled k s).pour.waiting k = s.pour.waiting k := by
  unfold idled modGrant
  split <;> rfl

/-- The timer's end at the OPEN step in POURING (R68). -/
theorem pourExpiry_atStep {i : Nat} (hr : s.record? k = some r) (ha : s.action? k = some (.opening fill start attempts dwell))
    (hp : r.phase = .pouring) (hi : r.attempt = some i) : pourExpiry k s = attemptFailed k i attempts dwell (idled k s) := by
  have record : (idled k s).record? k = some r := idled_record.trans hr
  have action : (idled k s).action? k = some (.opening fill start attempts dwell) := idled_action.trans ha
  unfold pourExpiry pourExpiryAtStep
  rw [← idled, record, action]
  simp only [hp, hi, if_true, Option.getD_some]

/-- The timer's end where no OPEN step stands in POURING (log 26). -/
theorem pourExpiry_elsewhere (h : s.phase k ≠ .pouring ∨ ¬ ∃ a b c d, s.action? k = some (.opening a b c d)) :
    pourExpiry k s = idled k s := by
  unfold pourExpiry pourExpiryAtStep
  rw [← idled]
  split
  · next r x y attempts dwell hr ha =>
    rw [idled_record] at hr
    rw [idled_action] at ha
    rcases h with h | h
    · rw [State.phase, hr] at h
      exact if_neg h
    · exact absurd ⟨_, _, _, _, ha⟩ h
  · rfl

/-- The record after a failed attempt with attempts left (R68). -/
def RestartRecord.retried (r : RestartRecord) (i dwell : Nat) : RestartRecord :=
  { r with attempt := some (i + 1), phase := .retryDwell, phaseTimer := some (dwell * 100), riseReference := none }

theorem endFill_lockView (u : UnitState) : u.endFill.lockView = u.lockView := by
  unfold UnitState.endFill
  split <;> rfl

theorem attemptFailed_retries {i : Nat} (hr : s.record? k = some r) (hi : i < attempts) :
    attemptFailed k i attempts dwell s = withRecord k (r.retried i dwell) (modUnit k UnitState.endFill s) := by
  have record : (modUnit k UnitState.endFill s).record? k = some r := hr
  unfold attemptFailed
  dsimp only
  rw [if_pos hi, updUnit_quiet k UnitState.endFill s (endFill_lockView _), toPhase_of_record record, modRecord_withRecord]
  rfl

theorem attemptFailed_last {i : Nat} (hi : attempts ≤ i) : attemptFailed k i attempts dwell s =
    failStep k (.noFlow attempts) (expel .pour k (stopStep k (modUnit k UnitState.endFill s))) := by
  unfold attemptFailed
  dsimp only
  rw [if_neg (Nat.not_lt.mpr hi), updUnit_quiet k UnitState.endFill s (endFill_lockView _)]
  rfl

theorem driveExpiry_atStep (ha : s.action? k = some .drive) (hp : s.phase k = .starting) :
    driveExpiry k s = failStep k .driveTimeout (expel .drive k (stopStep k s)) := if_pos ⟨beq_iff_eq.mpr ha, hp⟩

theorem driveExpiry_elsewhere (h : s.phase k ≠ .starting ∨ s.action? k ≠ some .drive) : driveExpiry k s = expel .drive k s := by
  refine if_neg fun ⟨ha, hp⟩ => ?_
  rcases h with h | h
  · exact h hp
  · exact h (beq_iff_eq.mp ha)

end

/-- Settles O50: the ends of the dwells open the stopper; the response timers' ends by the step that stands. -/
theorem attemptsOpenAndExpire : Obligations.AttemptsOpenAndExpire := by
  intro k fill start attempts dwell r n i s
  refine ⟨fun hr ha => ⟨fun hp => ?_, fun hp => ?_⟩, ⟨fun h => ?_, fun h => ?_, fun hrun h => ?_, fun hrun h => ?_⟩,
    fun _ hrun => ?_, fun hrun => ?_, fun hrun hr ha hp hi hlt => ?_, fun hrun hw hr ha hp hi hle => ?_,
    fun hrun hw hr ha hp => ?_⟩
  · exact event_opens (i := .preChargeEnd k) ⟨rfl, nofun⟩ (if_pos (by rw [State.phase, hr]; exact hp)) hr ha
  · exact event_opens (i := .retryDwellEnd k) ⟨rfl, nofun⟩ (if_pos (by rw [State.phase, hr]; exact hp)) hr ha
  · refine event_discarded (i := .preChargeEnd k) ⟨rfl, nofun⟩ s ?_
    rcases h with h | h
    · exact if_neg h
    · exact (congrArg (ite _ · s) (openForAttempt_other h)).trans (ite_self s)
  · refine event_discarded (i := .retryDwellEnd k) ⟨rfl, nofun⟩ s ?_
    rcases h with h | h
    · exact if_neg h
    · exact (congrArg (ite _ · s) (openForAttempt_other h)).trans (ite_self s)
  · obtain ⟨t, reached, same, -⟩ := event_acts (i := .pourResponseExpiry k) ⟨rfl, nofun⟩ s
    rw [show effect (.pourResponseExpiry k) s = pourExpiry k s from if_pos hrun, pourExpiry_elsewhere h, idled_eq hrun] at same
    exact ⟨t, reached, same⟩
  · obtain ⟨t, reached, sent⟩ := event_acts (i := .driveResponseExpiry k) ⟨rfl, nofun⟩ s
    rw [show effect (.driveResponseExpiry k) s = driveExpiry k s from if_pos hrun, driveExpiry_elsewhere h] at sent
    obtain ⟨⟨outside, settings, -⟩, same, faults, excluded, others, owed⟩ := expel_frame .drive k s
    refine ⟨t, reached, sent.1.sameOutside outside, sent.1.sameSettings settings, sent.1.faults.trans faults,
      fun j => sent.1.sameStrand (same j), sent.2 .arbiter (.inl owed), ?_, ?_, fun hd hp => ?_⟩
    · rw [sent.1.drive]; exact excluded
    · rw [sent.1.pour]; exact others .pour nofun
    · obtain ⟨holds, strand, unit, claims⟩ := expel_own (k := k) .drive (s := s) fun q => by
        cases q
        · exact hp
        · exact hd
      rw [sent.1.drive, sent.1.strand, sent.1.unit, sent.1.inFlight]
      exact ⟨holds, strand, unit, claims⟩
  · exact event_discarded (i := .pourResponseExpiry k) ⟨rfl, nofun⟩ s (if_neg (by rw [hrun]; nofun))
  · exact event_discarded (i := .driveResponseExpiry k) ⟨rfl, nofun⟩ s (if_neg (by rw [hrun]; nofun))
  · obtain ⟨t, reached, same, -⟩ := event_acts (i := .pourResponseExpiry k) ⟨rfl, nofun⟩ s
    rw [show effect (.pourResponseExpiry k) s = pourExpiry k s from if_pos hrun, pourExpiry_atStep hr ha hp hi,
      attemptFailed_retries (idled_record.trans hr) hlt, idled_eq hrun] at same
    refine ⟨t, reached, ?_, same.strands, ?_, by rw [same.pour]; rfl, same.inFlight,
      same.sameOutside ⟨rfl, rfl, rfl, rfl, rfl, rfl, rfl, rfl, rfl, rfl, rfl⟩, same.working, same.faults⟩
    · rw [same.pour]; exact look_put_same _ _ _
    · rw [same.unit]; exact look_put_same _ _ _
  · obtain ⟨t, reached, sent⟩ := event_acts (i := .pourResponseExpiry k) ⟨rfl, nofun⟩ s
    have taken : effect (.pourResponseExpiry k) s =
        failStep k (.noFlow attempts) (expel .pour k (stopStep k (modUnit k UnitState.endFill (idled k s)))) :=
      (if_pos hrun).trans ((pourExpiry_atStep hr ha hp hi).trans (attemptFailed_last hle))
    have record : (modUnit k UnitState.endFill (idled k s)).record? k = some r := idled_record.trans hr
    obtain ⟨failed, owed, ⟨outside, settings, -⟩, faults, same, holds, excluded, others⟩ :=
      expelled_fails (s := modUnit k UnitState.endFill (idled k s)) .pour (.noFlow attempts) record
        (idled_waiting.trans hw) taken
    rw [idled_eq hrun] at failed outside settings faults same excluded others
    refine ⟨t, reached, ⟨?_, sent.2 .arbiter (.inl owed), sent.1.sameOutside outside, sent.1.sameSettings settings,
      sent.1.faults.trans faults, fun j _ => sent.1.sameStrand (same j)⟩, ?_, ?_, ?_⟩
    · exact sent.1.failed failed
    · rw [sent.1.pour]; exact holds
    · rw [sent.1.pour]; exact excluded
    · rw [sent.1.drive]; exact others .drive nofun
  · obtain ⟨t, reached, sent⟩ := event_acts (i := .driveResponseExpiry k) ⟨rfl, nofun⟩ s
    have taken : effect (.driveResponseExpiry k) s = failStep k .driveTimeout (expel .drive k (stopStep k s)) :=
      (if_pos hrun).trans (driveExpiry_atStep ha (by rw [State.phase, hr]; exact hp))
    obtain ⟨failed, owed, ⟨outside, settings, -⟩, faults, same, holds, excluded, others⟩ :=
      expelled_fails .drive .driveTimeout hr hw taken
    refine ⟨t, reached, ⟨sent.1.failed failed, sent.2 .arbiter (.inl owed), sent.1.sameOutside outside,
      sent.1.sameSettings settings, sent.1.faults.trans faults, fun j _ => sent.1.sameStrand (same j)⟩, ?_, ?_, ?_⟩
    · rw [sent.1.drive]; exact holds
    · rw [sent.1.drive]; exact excluded
    · rw [sent.1.pour]; exact others .pour nofun

end Sys2Proof.Machine
end
section
/-! PROOFS. What an action keeps of a strand whose restart it takes on: its unit and its place at the pools, by the actions of
the steps that follow (R53, R54, R62, R70, R73). -/

namespace Sys2Proof.Machine

/-! ### The steps that follow -/

/-- The actions of the steps after the one that `r` stands at. -/
def RestartRecord.later (r : RestartRecord) : List Action := (r.snapshot.plan.steps.drop r.stepIndex).map (·.action)

theorem Beyond.action_later {s : State} {k : Strand} {r : RestartRecord} {a : Action} (h : Beyond k r s)
    (ha : s.action? k = some a) : a ∈ r.later := by
  obtain ⟨r', record, ⟨-, -, -, snapshot, -⟩, later⟩ := h
  rw [State.action?, record, Option.bind_some, Option.map_eq_some_iff] at ha
  obtain ⟨q, hq, rfl⟩ := ha
  rw [RestartRecord.step?, snapshot] at hq
  refine List.mem_map.mpr ⟨q, ?_, rfl⟩
  have place : r'.stepIndex - 1 = r.stepIndex + (r'.stepIndex - 1 - r.stepIndex) := by omega
  rw [place, ← List.getElem?_drop] at hq
  exact List.mem_of_getElem? hq

/-- The pool that an action asks for a slot of (R60, R64). -/
def slotFor? : Action → Option PoolId
  | .drive => some .drive
  | .opening _ _ _ _ => some .pour
  | .check _ | .cool _ | .level _ | .wait | .draw _ _ _ | .handover => none

theorem action_of_step {s : State} {q : Step} (h : (s.record? k).bind RestartRecord.step? = some q) :
    s.action? k = some q.action := by
  obtain ⟨r', record, step⟩ := Option.bind_eq_some_iff.mp h
  rw [State.action?, record, Option.bind_some, step]
  rfl

/-! ### The walk -/

/-- `P` speaks of strand `k`'s unit and its place at the pools, and the steps after `r`'s keep it. -/
structure OwnTasks (k : Strand) (r : RestartRecord) (P : State → Prop) : Prop extends AwayKeep k P where
  context : ∀ l s, P s → P { s with strands := l }
  cool : ∀ z s, P s → P (updUnit k (fun u => { u with cooling := z }) s)
  runDrive : ∀ s, P s → P (updUnit k UnitState.runDrive s)
  openStopper : ∀ n a b c s, .opening n a b c ∈ r.later → P s → P (updUnit k (UnitState.openStopper n) s)
  level : ∀ src s, .level src ∈ r.later → P s → P (updUnit k (fun u => (u.setMode .auto).turnLevelOn) (writeSource k src s))
  giveRamp : ∀ a b c s, .draw a b c ∈ r.later → (s.unit k).draw = true → P s → P (updUnit k (UnitState.giveRamp b c) s)
  engageDraw : ∀ a b c s, .draw a b c ∈ r.later → (s.unit k).draw = false → P s → P (updUnit k (UnitState.engageDraw a b c) s)
  join : ∀ p a s, a ∈ r.later → slotFor? a = some p → P s → P (joinWaits p k s)
  modGrant : ∀ p f s, (∀ g : Grant, (f g).time = g.time) → P s → P (modGrant p k f s)
  dropGrant : ∀ s, P s → P (dropGrant .drive k s)

section
variable {k : Strand} {r : RestartRecord} {P : State → Prop} (O : OwnTasks k r P)
include O

theorem OwnTasks.pend (src : Source) (s : State) (h : P s) : P (pend src s) :=
  O.elsewhere _ _ (pend_elsewhere src s) (pend_now s src) h

theorem OwnTasks.emit (i : Instr) (s : State) (h : P s) : P (emit i s) := O.elsewhere _ _ (emit_elsewhere i s) rfl h

theorem OwnTasks.record (f : RestartRecord → RestartRecord) (s : State) (h : P s) : P (modRecord k f s) := by
  unfold modRecord
  split
  · exact O.context _ s h
  · exact h

theorem OwnTasks.failStep (f : StepFailure) (s : State) (h : P s) : P (failStep k f s) := by
  unfold Machine.failStep
  split
  · exact O.emit _ _ (O.record _ s h)
  · exact h

theorem OwnTasks.finishStep (s : State) (h : P s) : P (finishStep k s).1 := by
  unfold Machine.finishStep
  split
  · exact h
  · split
    · exact O.pend _ _ (O.record _ _ (O.record _ s h))
    · exact O.emit _ _ (O.record _ s h)

theorem OwnTasks.endInrush (s : State) (h : P s) : P (endInrush k s).1 := O.context _ _ (O.dropGrant s h)

theorem OwnTasks.openForAttempt (s : State) (hb : Beyond k r s) (h : P s) : P (openForAttempt k s) := by
  unfold Machine.openForAttempt fillOpening
  split
  · next n hn =>
    split at hn
    · next a b c d ha =>
      cases hn
      exact O.record _ _ (O.modGrant _ _ _ (fun _ => rfl) (O.openStopper _ _ _ _ s (hb.action_later ha) h))
    · cases hn
  · exact h

theorem OwnTasks.takePourGrant (s : State) (hb : Beyond k r s) (h : P s) : P (takePourGrant k s) := by
  unfold Machine.takePourGrant
  dsimp only
  repeat' split
  · exact O.openForAttempt s hb h
  · exact O.openForAttempt _ (hb.onward (onwardFrom_modRecord k s fun r => ⟨rfl, rfl, rfl, rfl, Nat.le_refl _⟩)) (O.record _ s h)
  · exact O.record _ s h

theorem OwnTasks.takeDriveGrant (s : State) (h : P s) : P (takeDriveGrant k s).1 := by
  unfold Machine.takeDriveGrant
  dsimp only
  split
  · exact O.record _ _ (O.modGrant _ _ _ (fun _ => rfl) (O.runDrive s h))
  · exact O.record _ _ (O.runDrive s h)

theorem OwnTasks.deliverGrant (p : PoolId) (s : State) (hb : Beyond k r s) (h : P s) : P (deliverGrant p k s).1 := by
  unfold Machine.deliverGrant
  split
  · cases p
    · exact O.takePourGrant s hb h
    · exact O.takeDriveGrant s h
  · exact h

theorem OwnTasks.grantPass (p : PoolId) (s : State) (hb : Beyond k r s) (h : P s) : P (grantPass p s).1 := by
  unfold Machine.grantPass
  split
  · split
    · exact h
    · next e rest hw =>
      by_cases he : e.strand = k
      · rw [he]
        exact O.deliverGrant p _ (hb.onward (onwardFrom_of_strands (by simp))) (O.grant p e rest s he hw h)
      · exact (O.grantOther he hw h).1
  · exact h

theorem OwnTasks.requestSlot (p : PoolId) (a : Action) (s : State) (ha : a ∈ r.later) (hs : slotFor? a = some p) (h : P s) :
    P (requestSlot p k s).1 := by
  unfold Machine.requestSlot
  split
  · exact O.failStep _ _ h
  · exact O.join p a _ ha hs (O.record _ s h)

theorem OwnTasks.beginAction (a : Action) (s : State) (ha : a ∈ r.later) (h : P s) : P (beginAction k a s).1 := by
  cases a with
  | check m => exact O.record _ s h
  | cool z => exact O.cool z s h
  | drive => exact O.requestSlot .drive _ s ha rfl h
  | opening a b c d => exact O.requestSlot .pour _ s ha rfl h
  | level src =>
    unfold Machine.beginAction beginLevel
    dsimp only
    split
    · exact O.failStep _ _ h
    · exact O.record _ _ (O.level src s ha h)
  | wait => exact O.record _ s h
  | draw a b c =>
    unfold Machine.beginAction beginDraw
    dsimp only
    split
    · next hd => exact O.record _ _ (O.giveRamp a b c s ha hd h)
    · next hd =>
      split
      · exact O.record _ _ (O.engageDraw a b c s ha (Bool.eq_false_iff.mpr hd) h)
      · exact O.failStep _ _ h
  | handover => exact O.record _ s h

theorem OwnTasks.beginStep (s : State) (hb : Beyond k r s) (h : P s) : P (beginStep k s).1 := by
  unfold Machine.beginStep
  split
  · next q hq => exact O.beginAction q.action _ (hb.action_later (action_of_step hq)) (O.record _ s h)
  · exact h

theorem OwnTasks.runTask (t : Task) (s : State) (hb : Beyond k r s) (h : P s) : P (runTask t s).1 := by
  cases t with
  | enterStep j =>
    by_cases hj : k = j
    · subst hj; exact O.beginStep s hb h
    · exact (O.other hj s h).1.1
  | completeStep j =>
    by_cases hj : k = j
    · subst hj; exact O.finishStep s h
    · exact (O.other hj s h).2.1.1
  | inrushEnd j =>
    by_cases hj : k = j
    · subst hj; exact O.endInrush s h
    · exact (O.other hj s h).2.2.1
  | grantChoice p => exact O.grantPass p s hb h

theorem OwnTasks.drain_beyond (l : List Task) (s : State) (hb : Beyond k r s) (h : P s) : P (drain l s) :=
  (drain_keeps (P := fun t => Beyond k r t ∧ P t)
    (fun t s ⟨hb, h⟩ => ⟨hb.onward (runTask_onward t s), O.runTask t s hb h⟩) l s ⟨hb, h⟩).2

/-- What the steps that follow keep, the completion of the step that stands keeps. -/
theorem OwnTasks.drain_complete {s : State} (hr : s.record? k = some r) (hi : r.stepIndex < r.snapshot.plan.steps.length)
    (h : P s) : P (drain [.completeStep k] s) := by
  rw [drain_completeStep hr hi]
  exact O.drain_beyond _ _ (beyond_next s k r) (O.pend _ _ (O.context _ s h))

end

/-! ### Kept conjunctions -/

theorem AwayKeep.and {k : Strand} {P Q : State → Prop} (A : AwayKeep k P) (B : AwayKeep k Q) : AwayKeep k fun s => P s ∧ Q s where
  elsewhere := fun s t he hn ⟨hp, hq⟩ => ⟨A.elsewhere s t he hn hp, B.elsewhere s t he hn hq⟩
  grant := fun p e rest s he hw ⟨hp, hq⟩ => ⟨A.grant p e rest s he hw hp, B.grant p e rest s he hw hq⟩

/-- What an action at other strands keeps of strand `k` in no SLOT_WAIT, its step standing (R53). -/
theorem AwayKeep.stands {k : Strand} {P : State → Prop} (A : AwayKeep k P) {s : State} (hp : s.phase k ≠ .slotWait)
    {l : List Task} (hl : ∀ u ∈ l, Task.avoids k u) (h : P s) : P (Machine.drain l s) := by
  refine ((A.and (away_own k s)).drain (fun t ⟨_, strand, _⟩ => ?_) l s hl ⟨h, rfl, rfl, rfl⟩).1
  rwa [State.phase, State.record?, strand]

end Sys2Proof.Machine
end
section
/-! PROOFS. The ends of a step's own times, the ramp's end and the permissive lines (R55, R58, R62, R72, R74). -/

namespace Sys2Proof.Machine

/-! ### What the steps that follow keep of the unit and of a pool -/

section
variable {k : Strand} {r : RestartRecord}

theorem updUnit_pool (j : Strand) (f : UnitState → UnitState) (s : State) (p : PoolId) :
    (updUnit j f s).pool p = s.pool p := by cases p <;> simp [State.pool]

theorem writeSource_pool (j : Strand) (src : LevelSource) (s : State) (p : PoolId) :
    (writeSource j src s).pool p = s.pool p := by
  cases src with
  | plan q =>
    rw [writeSource, writeLevelSet]
    dsimp only
    split
    · exact updUnit_pool _ _ _ _
    · cases p <;> rfl
  | strand => rfl

theorem writeSource_now (j : Strand) (src : LevelSource) (s : State) : (writeSource j src s).now = s.now := by
  cases src with
  | plan q =>
    rw [writeSource, writeLevelSet]
    dsimp only
    split
    · exact updUnit_now _ _ _
    · rfl
  | strand => rfl

theorem writeSource_unit (src : LevelSource) (s : State) :
    (writeSource k src s).unit k = s.unit k ∨ (writeSource k src s).unit k = (s.unit k).clearLock := by
  cases src with
  | plan q =>
    rw [writeSource, writeLevelSet]
    dsimp only
    split
    · exact .inr (updUnit_unit_same _ _ _)
    · exact .inl rfl
  | strand => exact .inl rfl

/-- A property of the unit alone. -/
theorem own_of_unit {Q : UnitState → Prop} (cool : ∀ z u, Q u → Q { u with cooling := z })
    (runDrive : ∀ u, Q u → Q u.runDrive)
    (openStopper : ∀ n a b c u, .opening n a b c ∈ r.later → Q u → Q (u.openStopper n))
    (clearLock : ∀ u, Q u → Q u.clearLock) (level : ∀ u, Q u → Q (u.setMode .auto).turnLevelOn)
    (giveRamp : ∀ a b c u, .draw a b c ∈ r.later → u.draw = true → Q u → Q (UnitState.giveRamp b c u))
    (engageDraw : ∀ a b c u, .draw a b c ∈ r.later → u.draw = false → Q u → Q (UnitState.engageDraw a b c u)) :
    OwnTasks k r fun s => Q (s.unit k) where
  elsewhere := fun s t ⟨_, unit, _⟩ _ h => by rwa [unit]
  grant := fun p e rest s _ _ h => by rwa [makeGrant_unit]
  context := fun _ _ h => h
  cool := fun z s h => by rw [updUnit_unit_same]; exact cool z _ h
  runDrive := fun s h => by rw [updUnit_unit_same]; exact runDrive _ h
  openStopper := fun n a b c s hl h => by rw [updUnit_unit_same]; exact openStopper n a b c _ hl h
  level := fun src s _ h => by
    rw [updUnit_unit_same]
    rcases writeSource_unit src s with e | e <;> rw [e]
    · exact level _ h
    · exact level _ (clearLock _ h)
  giveRamp := fun a b c s hl hd h => by rw [updUnit_unit_same]; exact giveRamp a b c _ hl hd h
  engageDraw := fun a b c s hl hd h => by rw [updUnit_unit_same]; exact engageDraw a b c _ hl hd h
  join := fun _ _ _ _ _ h => by simpa [State.unit, joinWaits] using h
  modGrant := fun _ _ _ _ h => by simpa [State.unit] using h
  dropGrant := fun _ h => by simpa [State.unit, Machine.dropGrant] using h

/-- A property of the time and of the strand's place at one pool. -/
theorem own_of_pool (p : PoolId) {Q : Stamp → Option Grant → Bool → Prop}
    (unasked : ∀ n g, Q n g true → Q n g false)
    (granted : ∀ s b, Q s.now ((s.pool p).grant? k) true → Q s.now (some (newGrant p k s)) b)
    (joined : (∃ a ∈ r.later, slotFor? a = some p) → ∀ n g b, Q n g b → Q n g true)
    (changed : ∀ n (f : Grant → Grant) g b, (∀ g : Grant, (f g).time = g.time) → Q n (some g) b → Q n (some (f g)) b)
    (dropped : ∀ n g b, Q n g b → Q n none b) :
    OwnTasks k r fun s => Q s.now ((s.pool p).grant? k) ((s.pool p).waiting k) where
  elsewhere := fun s t ⟨_, _, _, pools⟩ now h => by
    rw [now, (pools p).1]
    cases hw : (s.pool p).waiting k with
    | false => rw [(pools p).2 hw]; rwa [hw] at h
    | true =>
      rw [hw] at h
      cases (t.pool p).waiting k with
      | false => exact unasked _ _ h
      | true => exact h
  grant := fun q e rest s he hw h => by
    have now : (makeGrant q k rest s).now = s.now := by cases q <;> rfl
    by_cases hq : p = q
    · subst hq
      have waits : (s.pool p).waiting k = true := by rw [Pool.waiting, hw, List.any_cons, he, beq_self_eq_true, Bool.true_or]
      rw [waits] at h
      rw [now, makeGrant_grant]
      exact granted s _ h
    · rw [now, (makeGrant_pool q k rest s).2 p hq]
      exact h
  context := fun _ _ h => by cases p <;> exact h
  cool := fun _ _ h => by rwa [updUnit_now, updUnit_pool]
  runDrive := fun _ h => by rwa [updUnit_now, updUnit_pool]
  openStopper := fun _ _ _ _ _ _ h => by rwa [updUnit_now, updUnit_pool]
  level := fun src s _ h => by
    rwa [updUnit_now, updUnit_pool, writeSource_pool, writeSource_now]
  giveRamp := fun _ _ _ _ _ _ h => by rwa [updUnit_now, updUnit_pool]
  engageDraw := fun _ _ _ _ _ _ h => by rwa [updUnit_now, updUnit_pool]
  join := fun q a s ha hs h => by
    rw [joinWaits, modPool_now]
    by_cases hq : p = q
    · subst hq
      rw [modPool_pool_same]
      have asked := joined ⟨a, ha, hs⟩ _ _ _ h
      dsimp only [Pool.waiting]
      cases (insertEntry ⟨k, classFor s k p, (s.pool p).arrivals⟩ (s.pool p).waits).any (·.strand == k) with
      | true => exact asked
      | false => exact unasked _ _ asked
    · rw [modPool_pool_ne _ _ _ _ hq]
      exact h
  modGrant := fun q f s hf h => by
    rw [Machine.modGrant]
    split
    · next g hg =>
      rw [modPool_now]
      by_cases hq : p = q
      · subst hq
        rw [modPool_pool_same]
        rw [hg] at h
        rw [show Pool.grant? { s.pool p with holders := (s.pool p).holders.put k (some (f g)) } k = some (f g)
          from look_put_same _ _ _]
        exact changed _ _ _ _ hf h
      · rw [modPool_pool_ne _ _ _ _ hq]
        exact h
    · exact h
  dropGrant := fun s h => by
    rw [Machine.dropGrant, modPool_now]
    by_cases hq : p = .drive
    · subst hq
      rw [modPool_pool_same]
      rw [show Pool.grant? { s.pool .drive with holders := (s.pool .drive).holders.put k none } k = none
        from look_put_same _ _ _]
      exact dropped _ _ _ h
    · rw [modPool_pool_ne _ _ _ _ hq]
      exact h

/-- A strand that stands nowhere at a pool which no step that follows asks comes to no slot of it. -/
theorem own_free (p : PoolId) (hl : ∀ a ∈ r.later, slotFor? a ≠ some p) :
    OwnTasks k r fun s => (s.pool p).grant? k = none ∧ (s.pool p).waiting k = false :=
  own_of_pool p (Q := fun _ g b => g = none ∧ b = false) (fun _ _ h => absurd h.2 nofun) (fun _ _ h => absurd h.2 nofun)
    (fun ⟨a, ha, hs⟩ => absurd hs (hl a ha)) (fun _ _ _ _ _ h => absurd h.1 nofun) (fun _ _ _ h => ⟨rfl, h.2⟩)

/-- A slot that the strand comes to is granted at the time of the action. -/
theorem own_grantedNow (p : PoolId) (n : Stamp) :
    OwnTasks k r fun s => s.now = n ∧ ∀ g, (s.pool p).grant? k = some g → g.time = n :=
  own_of_pool p (Q := fun m x _ => m = n ∧ ∀ g, x = some g → g.time = n) (fun _ _ h => h)
    (fun s _ h => ⟨h.1, fun g hg => by cases hg; exact h.1⟩) (fun _ _ _ _ h => h)
    (fun m f g _ hf h => ⟨h.1, fun g' hg => by cases hg; rw [hf]; exact h.2 g rfl⟩)
    (fun _ _ _ h => ⟨h.1, fun g hg => absurd hg nofun⟩)

end

/-! ### The step timer -/

section
variable {s : State} {k : Strand} {r : RestartRecord}

/-- What an action's expiry makes of its step (R55, R72). -/
def expiryFailure (s : State) (k : Strand) : Action → StepFailure
  | .check m => .permissive (missingLines s k m)
  | a => .stepTimeout a

theorem stepTimed_eq (h : s.record? k = some r) : stepTimed k s = r.stepTimer.isSome := by rw [stepTimed, h]; rfl

theorem stepTimerEffect_untimed (h : stepTimed k s = false) : stepTimerEffect k s = s := by
  unfold stepTimerEffect
  split
  · exact if_neg (by rw [h]; nofun)
  · rfl

theorem stepTimerEffect_timed {a : Action} (ht : stepTimed k s = true) (ha : s.action? k = some a) :
    stepTimerEffect k s = stepExpiry k a s := by
  simp only [stepTimerEffect, ha, ht, if_true]

theorem stepExpiry_fails {a : Action} (h : a ≠ .wait) : stepExpiry k a s = failStep k (expiryFailure s k a) s := by
  cases a with
  | wait => exact absurd rfl h
  | _ => rfl

/-! ### The inrush hold and the ramp -/

theorem record?_of_phase_eq (h : s.record? k = some r) {ph : Phase} (hp : r.phase = ph) : s.phase k = ph := by
  rw [State.phase, h]
  exact hp

/-- The state in which the DRIVE step completes (R62, R85). -/
def inrushEnded (k : Strand) (s : State) : State :=
  drain [.grantChoice .drive] (modStrand k (fun c => { c with driveLost := false }) (dropGrant .drive k s))

theorem drain_inrushEnd (k : Strand) (s : State) :
    drain [.inrushEnd k] s = drain [.completeStep k] (inrushEnded k s) := by
  rw [drain_cons, inrushEnded, ← drain_append]
  rfl

theorem inrushEnded_record (hr : s.record? k = some r) (hp : r.phase ≠ .slotWait) :
    (inrushEnded k s).record? k = some r := by
  have calm : (modStrand k (fun c => { c with driveLost := false }) (dropGrant .drive k s)).strand k =
      { s.strand k with driveLost := false } := modStrand_strand_same _ _ _
  have record : (modStrand k (fun c => { c with driveLost := false }) (dropGrant .drive k s)).record? k = some r := by
    rw [State.record?, calm]
    exact hr
  obtain ⟨strand, -⟩ := drain_away (k := k) (l := [.grantChoice .drive])
    (s := modStrand k (fun c => { c with driveLost := false }) (dropGrant .drive k s))
    (by rw [State.phase, record]; exact hp) (by simp [Task.avoids])
  rw [State.record?, inrushEnded, strand]
  exact record

theorem slotFor_drive {a : Action} (h : slotFor? a = some .drive) : a = .drive := by
  cases a with
  | drive => rfl
  | _ => cases h

/-- The DRIVE slot is given back before the step completes (R62, R85). -/
theorem inrushEnd_drive (hr : s.record? k = some r) (hp : r.phase = .inrush)
    (hi : r.stepIndex < r.snapshot.plan.steps.length) :
    (∀ g, (drain [.inrushEnd k] s).drive.grant? k = some g → g.time = s.now) ∧
      (s.drive.waiting k = false → r.later.all (· != .drive) = true → (drain [.inrushEnd k] s).drive.holds k = false) := by
  have record := inrushEnded_record hr (by rw [hp]; nofun)
  have phase : (modStrand k (fun c => { c with driveLost := false }) (dropGrant .drive k s)).phase k ≠ .slotWait := by
    have calm : (modStrand k (fun c => { c with driveLost := false }) (dropGrant .drive k s)).strand k =
        { s.strand k with driveLost := false } := modStrand_strand_same _ _ _
    rw [State.phase, State.record?, calm]
    exact fun h => absurd ((record?_of_phase_eq hr hp).symm.trans h) nofun
  have avoids : ∀ u ∈ [Task.grantChoice .drive], Task.avoids k u := by simp [Task.avoids]
  have dropped : (modStrand k (fun c => { c with driveLost := false }) (dropGrant .drive k s)).drive.grant? k = none :=
    dropGrant_grant .drive s
  rw [drain_inrushEnd]
  refine ⟨fun g hg => ?_, fun hw hl => ?_⟩
  · have own := own_grantedNow (k := k) (r := r) .drive s.now
    have kept := own.drain_complete record hi
      (own.toAwayKeep.stands phase avoids ⟨rfl, fun g hg => absurd (hg.symm.trans dropped) nofun⟩)
    exact kept.2 g hg
  · have unasked : ∀ a ∈ r.later, slotFor? a ≠ some .drive := fun a ha e =>
      bne_iff_ne.mp (List.all_eq_true.mp hl a ha) (slotFor_drive e)
    have own := own_free (k := k) .drive unasked
    have kept := own.drain_complete record hi
      (own.toAwayKeep.stands phase avoids ⟨dropped, (dropGrant_waiting .drive s).trans hw⟩)
    exact holds_of_grant kept.1

/-- The setpoint stands where a ramp has ended, but for a further DRAW step (R74, R118). -/
theorem own_undrawn (hl : r.later.all (!isDrawAction ·) = true) (n : Nat) :
    OwnTasks k r fun s => (s.unit k).setpoint = n ∧ (s.unit k).ramp = none := by
  have undrawn : ∀ {a b c}, Action.draw a b c ∉ r.later := fun h => absurd (List.all_eq_true.mp hl _ h) nofun
  refine own_of_unit (Q := fun u => u.setpoint = n ∧ u.ramp = none) (fun _ _ h => h) (fun _ h => h) (fun _ _ _ _ _ _ h => h)
    (fun _ h => h) (fun u h => ?_) (fun _ _ _ _ h => absurd h undrawn) (fun _ _ _ _ h => absurd h undrawn)
  rw [setMode_eq]
  unfold UnitState.turnLevelOn
  dsimp only
  split <;> exact h

/-- A ramp given later starts where the last one ended (R118, R119). -/
theorem own_drawn (n : Nat) : OwnTasks k r fun s =>
    (s.unit k).draw = true ∧ (s.unit k).setpoint = n ∧ ∀ y, (s.unit k).ramp = some y → y.start = n := by
  refine own_of_unit (Q := fun u => u.draw = true ∧ u.setpoint = n ∧ ∀ y, u.ramp = some y → y.start = n) (fun _ _ h => h)
    (fun _ h => h) (fun _ _ _ _ _ _ h => h) (fun _ h => h) (fun u h => ?_) (fun a b c u _ _ ⟨draw, setpoint, _⟩ => ?_)
    (fun _ _ _ _ _ hd h => absurd (hd.symm.trans h.1) nofun)
  · rw [setMode_eq]
    unfold UnitState.turnLevelOn
    dsimp only
    split <;> exact h
  · refine ⟨draw, setpoint, fun y hy => ?_⟩
    unfold UnitState.giveRamp at hy
    dsimp only at hy
    split at hy
    · cases hy
    · cases hy; exact setpoint

theorem reachTarget_of_ramp {u : UnitState} {x : Ramp} (h : u.ramp = some x) :
    u.reachTarget = { u with setpoint := x.target, ramp := none } := by simp [UnitState.reachTarget, h]

theorem rampReached_eq {x : Ramp} (h : (s.unit k).ramp = some x) : updUnit k UnitState.reachTarget s =
    { s with units := s.units.put k { s.unit k with setpoint := x.target, ramp := none } } := by
  rw [updUnit_quiet k _ s (by rw [reachTarget_of_ramp h]; rfl), modUnit, reachTarget_of_ramp h]

end

/-! ### The permissive lines -/

section
variable {s : State} {k : Strand} {r : RestartRecord}

theorem missingLines_of_lines {t : State} (hl : t.strandLines = s.strandLines) (hc : t.casterLines = s.casterLines)
    (m : PermissiveMask) : missingLines t k m = missingLines s k m := by
  simp only [missingLines, State.driveReady, hl, hc]

theorem examineCheck_stays {j : Strand}
    (h : ∀ m, s.action? j = some (.check m) → maskEmpty (missingLines s j m) = false) : examineCheck j s = s := by
  unfold examineCheck
  split
  · next m ha => exact if_neg fun ⟨_, e⟩ => absurd ((h m ha).symm.trans e) nofun
  · rfl

theorem examineCheck_completes {m : PermissiveMask} (ha : s.action? k = some (.check m)) (hp : s.phase k = .waiting)
    (hm : maskEmpty (missingLines s k m) = true) : examineCheck k s = drain [.completeStep k] s := by
  simp only [examineCheck, ha, hp, hm, and_self, if_true]

theorem examineCheck_onward (j : Strand) (s : State) : OnwardFrom s (examineCheck j s) ∧ Owed s (examineCheck j s) := by
  unfold examineCheck
  repeat' split
  · exact ⟨drain_onward _ _, drain_owed _ _⟩
  · exact ⟨.refl s, .refl s⟩
  · exact ⟨.refl s, .refl s⟩

/-- An examination at another strand leaves a strand that waits in a CHECK step (R58). -/
theorem examineCheck_away {j : Strand} (hj : k ≠ j) (hp : s.phase k = .waiting) :
    (examineCheck j s).strand k = s.strand k := by
  unfold examineCheck
  repeat' split
  · exact (drain_away (by rw [hp]; nofun) (by simpa [Task.avoids] using hj)).1
  · rfl
  · rfl

theorem freeIndex_eq (n : Nat) (s : State) : ∃ i, (0 < n → i < n) ∧
    freeIndex n s = (i, { s with choices := s.choices + (if n ≤ 1 then 0 else 1) }) := by
  unfold freeIndex
  by_cases h : n ≤ 1
  · exact ⟨0, id, by rw [if_pos h, if_pos h]; rfl⟩
  · exact ⟨Config.freeChoice s.choices % n, fun hn => Nat.mod_lt _ hn, by rw [if_neg h, if_neg h]⟩

/-- A turn in the open order takes one strand and leaves the others to the turns that follow (R164, log 4). -/
theorem inOpenOrder_turn (f : Strand → State → State) {n : Nat} {l : List Strand} (s : State) (hn : l.length = n + 1) :
    ∃ k ∈ l, ∃ l', l'.length = n ∧ (∀ j ∈ l', j ∈ l) ∧ (∀ j ∈ l, j ≠ k → j ∈ l') ∧
      inOpenOrder f (n + 1) l s = inOpenOrder f n l' (f k { s with choices := s.choices + (if n = 0 then 0 else 1) }) := by
  obtain ⟨i, hi, free⟩ := freeIndex_eq l.length s
  have place : i < l.length := hi (by omega)
  have single : (if l.length ≤ 1 then 0 else 1) = if n = 0 then 0 else 1 := by split <;> split <;> omega
  rw [single] at free
  refine ⟨l[i], List.getElem_mem place, l.eraseIdx i, ?_, fun j => List.mem_of_mem_eraseIdx, fun j hj hne => ?_, ?_⟩
  · rw [List.length_eraseIdx_of_lt place, hn]
    rfl
  · obtain ⟨m, hm, rfl⟩ := List.getElem_of_mem hj
    refine List.mem_eraseIdx_iff_getElem.mpr ⟨m, hm, fun e => hne ?_, rfl⟩
    subst e
    rfl
  · cases l with
    | nil => cases hn
    | cons a rest =>
      rw [inOpenOrder]
      · simp only [free, List.getElem?_eq_getElem place]
      · exact nofun

/-- A change of a line that completes no step draws its choices and nothing else (R164, log 4). -/
theorem inOpenOrder_stays (n : Nat) (l : List Strand) (s : State) (hn : l.length = n)
    (h : ∀ j ∈ l, ∀ m, s.action? j = some (.check m) → maskEmpty (missingLines s j m) = false) :
    inOpenOrder examineCheck n l s = { s with choices := s.choices + (n - 1) } := by
  induction n generalizing l s with
  | zero => rfl
  | succ n ih =>
    obtain ⟨k, hk, l', hl', sub, -, turn⟩ := inOpenOrder_turn examineCheck s hn
    have stays := examineCheck_stays (s := { s with choices := s.choices + (if n = 0 then 0 else 1) }) (h k hk)
    have turns := ih l' { s with choices := s.choices + (if n = 0 then 0 else 1) } hl' fun j hj => h j (sub j hj)
    rw [turn, stays, turns]
    have count : s.choices + (if n = 0 then 0 else 1) + (n - 1) = s.choices + (n + 1 - 1) := by split <;> omega
    rw [← count]

/-- What a strand has come to, the turns of the others keep. -/
theorem inOpenOrder_beyond (n : Nat) (l : List Strand) (s : State)
    (h : Beyond k r s ∧ s.noticePending.look (Source.state k).number = true) :
    Beyond k r (inOpenOrder examineCheck n l s) ∧
      (inOpenOrder examineCheck n l s).noticePending.look (Source.state k).number = true := by
  refine inOpenOrder_keeps (P := fun s => Beyond k r s ∧ s.noticePending.look (Source.state k).number = true) _
    (fun j s ⟨beyond, owed⟩ => ?_) (fun m s ⟨beyond, owed⟩ => ?_) n l s h
  · obtain ⟨onward, kept⟩ := examineCheck_onward j s
    exact ⟨beyond.onward onward, kept _ owed⟩
  · obtain ⟨i, -, free⟩ := freeIndex_eq m s
    rw [free]
    exact ⟨beyond.onward (onwardFrom_of_strands rfl), owed⟩

/-- A strand whose CHECK step misses no line completes it in its turn, whatever the order (R58, R164). -/
theorem inOpenOrder_completes {m : PermissiveMask} (n : Nat) (l : List Strand) (s : State) (hn : l.length = n) (hk : k ∈ l)
    (hr : s.record? k = some r) (hp : r.phase = .waiting) (ha : s.action? k = some (.check m))
    (hm : maskEmpty (missingLines s k m) = true) (hi : r.stepIndex < r.snapshot.plan.steps.length)
    (hc : s.isConfigured k = true) : Beyond k r (inOpenOrder examineCheck n l s) ∧
      (inOpenOrder examineCheck n l s).noticePending.look (Source.state k).number = true := by
  induction n generalizing l s with
  | zero => rw [List.eq_nil_of_length_eq_zero hn] at hk; exact absurd hk List.not_mem_nil
  | succ n ih =>
    obtain ⟨j, hj, l', hl', -, rest, turn⟩ := inOpenOrder_turn examineCheck s hn
    have record : ({ s with choices := s.choices + (if n = 0 then 0 else 1) } : State).record? k = some r := hr
    have action : ({ s with choices := s.choices + (if n = 0 then 0 else 1) } : State).action? k = some (.check m) := ha
    have empty : maskEmpty (missingLines { s with choices := s.choices + (if n = 0 then 0 else 1) } k m) = true := hm
    have configured : ({ s with choices := s.choices + (if n = 0 then 0 else 1) } : State).isConfigured k = true := hc
    rw [turn]
    generalize ({ s with choices := s.choices + (if n = 0 then 0 else 1) } : State) = u at *
    have phase : u.phase k = .waiting := record?_of_phase_eq record hp
    by_cases e : j = k
    · subst e
      refine inOpenOrder_beyond n l' _ ?_
      rw [examineCheck_completes action phase empty]
      exact drain_completeStep_beyond record hi configured
    · have away := examineCheck_away (Ne.symm e) phase
      obtain ⟨⟨⟨-, -, count, lines, caster, -⟩, -⟩, -⟩ := examineCheck_carried j u
      refine ih l' _ hl' (rest k hk (Ne.symm e)) ?_ ?_ ?_ ?_
      · rw [State.record?, away]; exact record
      · rw [State.action?, State.record?, away]; exact action
      · rw [missingLines_of_lines lines caster]; exact empty
      · rw [State.isConfigured, count]; exact configured

theorem checksLine_iff {line : PermissiveLine} :
    checksLine line s k = true ↔ s.phase k = .waiting ∧ ∃ m, s.action? k = some (.check m) ∧ maskNames m line = true := by
  unfold checksLine
  split
  · next m ha =>
    rw [Bool.and_eq_true, beq_iff_eq, ha]
    refine and_congr_right fun _ => ⟨fun h => ⟨m, rfl, h⟩, fun ⟨m', e, h⟩ => ?_⟩
    cases e
    exact h
  · next h =>
    refine ⟨nofun, fun ⟨_, m, ha, _⟩ => absurd ha (h m)⟩

/-- The strands that a line's change reaches (R58). -/
theorem mem_lineStrands {line : PermissiveLine} : k ∈ lineStrands line s ↔ s.phase k = .waiting ∧
    ∃ m, s.action? k = some (.check m) ∧
      match line with
      | .hydOk => m.hydOk = true
      | .driveReady j => j = k ∧ m.driveReady = true
      | .dummyAtMold j => j = k ∧ m.dummyAtMold = true
      | .moldWaterOk j => j = k ∧ m.moldWater = true := by
  have all : k ∈ allStrands := mem_allStrands k
  cases line with
  | hydOk => simp only [lineStrands, List.mem_filter, all, true_and, checksLine_iff, maskNames]
  | driveReady j | dummyAtMold j | moldWaterOk j =>
    simp only [lineStrands, List.mem_filter, List.mem_singleton, checksLine_iff, maskNames, eq_comm (a := k)]
    exact ⟨fun ⟨own, phase, m, action, named⟩ => ⟨phase, m, action, own, named⟩,
      fun ⟨phase, m, action, own, named⟩ => ⟨own, phase, m, action, named⟩⟩

end

end Sys2Proof.Machine
end
section
/-! PROOFS. The step timer, the inrush hold, the ramp's end and the permissive lines (R55, R58, R62, R72, R74). -/

namespace Sys2Proof.Machine

theorem expiryFailure_eq (s : State) (k : Strand) (a : Action) : expiryFailure s k a =
    match a with
    | .check m => .permissive (missingLines s k m)
    | _ => .stepTimeout a := by
  cases a <;> rfl

/-- What a failed step's claim leaves alone (R56). -/
theorem failStep_sent {s t : State} {k : Strand} {r : RestartRecord} (hr : s.record? k = some r) (f : StepFailure)
    (h : SameButNotices (failStep k f s) t) : Failed s t k f ∧
      SameButNotices { s with strands := t.strands, inFlight := s.inFlight ++ [.stepFailureClaim k ⟨r.serial, f⟩] } t ∧
      ∀ j, j ≠ k → t.strand j = s.strand j := by
  rw [failStep_of_record f hr] at h
  have strands := h.strands
  refine ⟨⟨r, hr, (h.record k).trans (record?_withRecord k _ s), ?_⟩, ?_, fun j hj => ?_⟩
  · rw [h.inFlight]
    exact List.mem_append_right _ (List.mem_singleton.mpr rfl)
  · rw [strands]
    exact h
  · exact (h.strand j).trans (strand_withRecord_ne k j r.stopped s hj)

/-- Settles O49: each event by its effect's equation; the steps that follow keep what they do not ask for. -/
theorem stepTimersAndPermissivesAct : Obligations.StepTimersAndPermissivesAct := by
  intro k r a x line m s
  refine ⟨⟨fun hr => ?_, fun hr ht => ?_, fun hr ht ha hw => ?_, fun hr ht ha hi hk => ?_⟩, fun hk =>
    ⟨fun hp => ?_, fun hr hp hi => ?_, fun hx => ?_, fun hx hp => ?_, fun hx hr hp hi => ?_⟩,
    fun hl => ?_, mem_lineStrands, fun hm => ?_, fun hl hk hr ha hm hi => ?_⟩
  · exact event_discarded (i := .stepTimerExpiry k) ⟨rfl, nofun⟩ s
      (stepTimerEffect_untimed (by rw [stepTimed, hr]; rfl))
  · exact event_discarded (i := .stepTimerExpiry k) ⟨rfl, nofun⟩ s
      (stepTimerEffect_untimed (by rw [stepTimed_eq hr, ht]; rfl))
  · have timed : stepTimed k s = true := by rw [stepTimed_eq hr]; exact Option.isSome_iff_ne_none.mpr ht
    obtain ⟨t, reached, same, -⟩ := event_acts (i := .stepTimerExpiry k) ⟨rfl, nofun⟩ s
    rw [show effect (.stepTimerExpiry k) s = failStep k (expiryFailure s k a) s from
      (stepTimerEffect_timed timed ha).trans (stepExpiry_fails hw), expiryFailure_eq] at same
    exact ⟨t, reached, failStep_sent hr _ same⟩
  · have timed : stepTimed k s = true := by rw [stepTimed_eq hr]; exact Option.isSome_iff_ne_none.mpr ht
    obtain ⟨t, reached, same, noticed⟩ := event_acts (i := .stepTimerExpiry k) ⟨rfl, nofun⟩ s
    rw [show effect (.stepTimerExpiry k) s = drain [.completeStep k] s from stepTimerEffect_timed timed ha] at same noticed
    obtain ⟨beyond, owed⟩ := drain_completeStep_beyond hr hi hk
    exact ⟨t, reached, same.localTo ((drain_carried _ s).at k).local, same.advanced (beyond.advanced hr),
      noticed _ (.inl owed)⟩
  · exact event_discarded (i := .inrushHoldEnd k) ⟨rfl, nofun⟩ s (if_neg hp)
  · obtain ⟨t, reached, same, noticed⟩ := event_acts (i := .inrushHoldEnd k) ⟨rfl, nofun⟩ s
    rw [show effect (.inrushHoldEnd k) s = drain [.inrushEnd k] s from if_pos (record?_of_phase_eq hr hp)] at same noticed
    obtain ⟨grantedNow, free⟩ := inrushEnd_drive hr hp hi
    have calm := inrushEnd_calms (k := k) s
    have carried := drain_carried [.inrushEnd k] s
    obtain ⟨-, -, faults, -⟩ := drain_carried [.inrushEnd k] s
    have configured : (inrushEnded k s).isConfigured k = true := by
      obtain ⟨⟨⟨-, -, count, -⟩, -⟩, -⟩ := (endInrush_carried k s).trans (drain_carried [.grantChoice .drive] _)
      exact (congrArg (fun n => decide (k.val < n)) count).trans hk
    obtain ⟨beyond, owed⟩ := drain_completeStep_beyond (inrushEnded_record hr (by rw [hp]; nofun)) hi configured
    rw [← drain_inrushEnd] at beyond owed
    refine ⟨t, reached, same.localTo (carried.at k).local, same.advanced (beyond.advanced hr), ?_, noticed _ (.inl owed),
      same.faults.trans faults, ?_, ?_⟩
    · rw [same.strand]; exact calm
    · rw [same.drive]; exact grantedNow
    · rw [same.drive]; exact free
  · refine event_discarded (i := .rampTargetReached k) ⟨rfl, nofun⟩ s (if_neg ?_)
    rw [hx]
    nofun
  · have ramps : (s.unit k).ramp.isSome = true := by rw [hx]; rfl
    have elsewhere : ¬ (updUnit k UnitState.reachTarget s).phase k = .ramping := by
      rwa [State.phase, State.record?, updUnit_strand]
    rw [exec_event (i := .rampTargetReached k) ⟨rfl, nofun⟩ s, show effect (.rampTargetReached k) s =
      updUnit k UnitState.reachTarget s from (if_pos ramps).trans (if_neg elsewhere), rampReached_eq hx]
  · have ramps : (s.unit k).ramp.isSome = true := by rw [hx]; rfl
    have phase : (updUnit k UnitState.reachTarget s).phase k = .ramping := by
      rw [State.phase, State.record?, updUnit_strand, ← State.record?, hr]
      exact hp
    have record : (updUnit k UnitState.reachTarget s).record? k = some r := by
      rw [State.record?, updUnit_strand]
      exact hr
    have unit : (updUnit k UnitState.reachTarget s).unit k = { s.unit k with setpoint := x.target, ramp := none } := by
      rw [updUnit_unit_same, reachTarget_of_ramp hx]
    obtain ⟨t, reached, same, noticed⟩ := event_acts (i := .rampTargetReached k) ⟨rfl, nofun⟩ s
    rw [show effect (.rampTargetReached k) s = drain [.completeStep k] (updUnit k UnitState.reachTarget s) from
      (if_pos ramps).trans (if_pos phase)] at same noticed
    have carried := (updUnit_carried k UnitState.reachTarget s).trans (drain_carried [.completeStep k] _)
    obtain ⟨-, -, faults, -⟩ := (updUnit_carried k UnitState.reachTarget s).trans (drain_carried [.completeStep k] _)
    obtain ⟨beyond, owed⟩ := drain_completeStep_beyond record hi (by simpa [State.isConfigured] using hk)
    refine ⟨t, reached, same.localTo (carried.at k).local, same.advanced (beyond.advanced hr), noticed _ (.inl owed),
      same.faults.trans faults, fun hl => ?_, fun hd => ?_⟩
    · rw [same.unit]
      exact (own_undrawn hl x.target).drain_complete record hi ⟨by rw [unit], by rw [unit]⟩
    · rw [same.unit]
      exact ((own_drawn x.target).drain_complete record hi
        ⟨by rw [unit]; exact hd, by rw [unit], fun y hy => by rw [unit] at hy; cases hy⟩).2
  · refine event_discarded (i := .permissiveLevelChange line) ⟨rfl, nofun⟩ s ?_
    rw [show effect (.permissiveLevelChange line) s =
      inOpenOrder examineCheck (lineStrands line s).length (lineStrands line s) s from rfl, hl]
    rfl
  · rw [exec_event (i := .permissiveLevelChange line) ⟨rfl, nofun⟩ s]
    exact congrArg (fun u => Host.Outcome.next (noticeChoice u)) (inOpenOrder_stays _ _ s rfl hm)
  · obtain ⟨t, reached, same, noticed⟩ := event_acts (i := .permissiveLevelChange line) ⟨rfl, nofun⟩ s
    have phase : r.phase = .waiting := by
      have := (mem_lineStrands.mp hl).1
      rwa [State.phase, hr] at this
    obtain ⟨beyond, owed⟩ := inOpenOrder_completes _ _ s rfl hl hr phase ha hm hi hk
    obtain ⟨⟨outside, settings, -⟩, strands, faults, -⟩ :=
      inOpenOrder_carried (lineStrands line s).length (lineStrands line s) s
    exact ⟨t, reached, same.advanced (beyond.advanced hr), noticed _ (.inl owed), same.sameOutside outside,
      same.sameSettings settings, same.faults.trans faults, fun j => same.sameStrand (strands j)⟩

end Sys2Proof.Machine
end
section
/-! PROOFS. The depth samples of an OPEN step: the rise confirmed and the fill (R66, R67, R85). -/

namespace Sys2Proof.Machine

section
variable {s : State} {k : Strand} {r : RestartRecord}

/-! ### The rise confirmed -/

theorem answer_pour_only (k : Strand) (s : State) : answer .pour k s = { s with pour := (answer .pour k s).pour } :=
  modGrant_pour_only k _ s

theorem answer_pour_response {n : Nat} (h : (s.pour.grant? k).map (·.response) = some (.running n)) :
    ((answer .pour k s).pour.grant? k).map (·.response) = some .answered := by
  obtain ⟨g, hg, running⟩ := Option.map_eq_some_iff.mp h
  have answered := modGrant_grant (p := .pour) (k := k) (s := s) hg
    fun g => { g with response := match g.response with
        | .running _ => .answered
        | .off => .off
        | .idle => .idle
        | .answered => .answered }
  rw [show (answer .pour k s).pour.grant? k = _ from answered, Option.map_some]
  simp only [running]

theorem modReported_strand_ne {f : StrandContext → StrandContext} {j : Strand} (hj : j ≠ k) :
    (modReported k f s).strand j = s.strand j := by
  unfold modReported
  split
  · rfl
  · rw [pend_strand, modStrand_strand, if_neg hj]

/-- The state in which the rise is confirmed, before its report (R67). -/
def fillingFrom (k : Strand) (r : RestartRecord) (s : State) : State := withRecord k (r.inPhase .filling none) (answer .pour k s)

theorem confirmRise_eq (hr : s.record? k = some r) : confirmRise k s =
    modStrand k (fun c => { c with holdTimer := { c.holdTimer with running := false } })
      (modReported k (fun c => { c with steel := true }) (fillingFrom k r s)) := by
  have record : (answer .pour k s).record? k = some r := by rw [State.record?, answer_strand]; exact hr
  unfold confirmRise
  dsimp only
  rw [toPhase_of_record record]
  rfl

theorem confirmRise_strand (hr : s.record? k = some r) : (confirmRise k s).strand k =
    { s.strand k with
      condition := .restarting (r.inPhase .filling none)
      steel := true
      holdTimer := ⟨(s.strand k).holdTimer.elapsed, false⟩ } := by
  rw [confirmRise_eq hr, modStrand_strand_same, modReported_strand_same, fillingFrom, strand_withRecord, answer_strand]

theorem confirmRise_strand_ne (hr : s.record? k = some r) {j : Strand} (hj : j ≠ k) :
    (confirmRise k s).strand j = s.strand j := by
  rw [confirmRise_eq hr, modStrand_strand, if_neg hj, modReported_strand_ne hj, fillingFrom, strand_withRecord_ne _ _ _ _ hj,
    answer_strand]

/-- What the confirmation leaves alone, and the response it ends (R93). -/
theorem confirmRise_rest (hr : s.record? k = some r) : (confirmRise k s).units = s.units ∧ (confirmRise k s).drive = s.drive ∧
    (confirmRise k s).working = s.working ∧ (confirmRise k s).faults = s.faults ∧
    (confirmRise k s).pour = (answer .pour k s).pour := by
  have only := answer_pour_only k s
  rw [confirmRise_eq hr]
  simp only [modStrand_units, modReported_units, modStrand_drive, modReported_drive, modStrand_working, modReported_working,
    modStrand_faults, modReported_faults, modStrand_pour, modReported_pour, fillingFrom]
  have drive : (answer .pour k s).drive = s.drive := by rw [only]
  exact ⟨modGrant_units _ _ _ _, drive, modGrant_working _ _ _ _, modGrant_faults _ _ _ _, rfl⟩

theorem confirmRise_pends (hr : s.record? k = some r) (hk : s.isConfigured k = true) (hs : (s.strand k).steel = false) :
    (confirmRise k s).noticePending.look (Source.state k).number = true := by
  have strand : (fillingFrom k r s).strand k = { s.strand k with condition := .restarting (r.inPhase .filling none) } := by
    rw [fillingFrom, strand_withRecord, answer_strand]
  rw [confirmRise_eq hr, modStrand_noticePending]
  refine modReported_noticed (fun e => ?_) ?_
  · rw [strand] at e
    exact absurd (hs.symm.trans (congrArg StrandContext.steel e).symm) nofun
  · rw [fillingFrom, answer_pour_only]
    exact hk

/-! ### The fill's end -/

/-- The state in which the OPEN step completes (R67, R85). -/
def fillEnded (k : Strand) (s : State) : State :=
  drain [.grantChoice .pour] (dropGrant .pour k (updUnit k UnitState.endFill (stopStep k s)))

theorem fillTo_completes {start d : Nat} (h : d ≤ start) : fillTo k start d s = drain [.completeStep k] (fillEnded k s) := by
  rw [fillTo, if_pos h, fillEnded, ← drain_append]
  rfl

/-- The fill ended, before the slot is passed on. -/
theorem fillEnded_base (hr : s.record? k = some r) :
    (dropGrant .pour k (updUnit k UnitState.endFill (stopStep k s))).record? k = some r.stopped ∧
      (dropGrant .pour k (updUnit k UnitState.endFill (stopStep k s))).unit k = (s.unit k).endFill ∧
      (dropGrant .pour k (updUnit k UnitState.endFill (stopStep k s))).levelSet k = s.levelSet k ∧
      (dropGrant .pour k (updUnit k UnitState.endFill (stopStep k s))).pour.grant? k = none ∧
      (dropGrant .pour k (updUnit k UnitState.endFill (stopStep k s))).pour.waiting k = s.pour.waiting k := by
  refine ⟨?_, ?_, ?_, dropGrant_grant .pour _, ?_⟩
  · have strand : (dropGrant .pour k (updUnit k UnitState.endFill (stopStep k s))).strand k = (stopStep k s).strand k := by
      simp [State.strand, dropGrant]
    rw [State.record?, strand, ← State.record?, stopStep_of_record hr, record?_withRecord]
  · have unit : (stopStep k s).unit k = s.unit k := congrArg (Tab.look · k) (modRecord_units _ _ _)
    rw [← unit]
    exact (congrArg (Tab.look · k) (modPool_units _ _ _)).trans (updUnit_unit_same _ _ _)
  · simp [State.levelSet, dropGrant, stopStep]
  · refine (dropGrant_waiting .pour _).trans ?_
    simp [State.pool, stopStep]

theorem fillEnded_own (hr : s.record? k = some r) : (fillEnded k s).record? k = some r.stopped ∧
    (fillEnded k s).unit k = (s.unit k).endFill ∧ (fillEnded k s).levelSet k = s.levelSet k := by
  obtain ⟨record, unit, level, -⟩ := fillEnded_base hr
  obtain ⟨strand, unit', level'⟩ := drain_away (k := k) (l := [.grantChoice .pour])
    (s := dropGrant .pour k (updUnit k UnitState.endFill (stopStep k s)))
    (by rw [State.phase, record]; nofun) (by simp [Task.avoids])
  refine ⟨?_, unit'.trans unit, level'.trans level⟩
  rw [State.record?, fillEnded, strand]
  exact record

theorem fillEnded_carried (k : Strand) (s : State) : Carried s (fillEnded k s) :=
  ((stopStep_carried k s).trans ((updUnit_carried _ _ _).trans (dropGrant_carried _ _ _))).trans (drain_carried _ _)

theorem endFill_stopper (u : UnitState) (n : Nat) : u.endFill.stopper ≠ .fill n := by
  unfold UnitState.endFill
  split
  · dsimp only
    split <;> nofun
  · next h => rw [h]; nofun
  · next h => rw [h]; nofun

theorem slotFor_pour {a : Action} (h : slotFor? a = some .pour) : isOpenAction a = true := by
  cases a with
  | opening => rfl
  | _ => cases h

theorem turnLevelOn_stopper {u : UnitState} (h : ∀ n, u.stopper ≠ .fill n) : u.turnLevelOn.stopper = .regulator := by
  unfold UnitState.turnLevelOn
  dsimp only
  split
  · next n e => exact absurd e (h n)
  all_goals rfl

/-- A fill opening that has ended stays so where no OPEN step follows (R67, R116). -/
theorem own_unfilled (hl : ∀ a ∈ r.later, isOpenAction a = false) :
    OwnTasks k r fun s => ∀ n, (s.unit k).stopper ≠ .fill n := by
  refine own_of_unit (Q := fun u => ∀ n, u.stopper ≠ .fill n) (fun _ _ h => h) (fun _ h => h)
    (fun n a b c u hm _ => absurd (hl _ hm) nofun) (fun _ h => h) (fun u h n => ?_) (fun _ _ _ _ _ _ h => h)
    (fun _ _ _ _ _ _ h => h)
  rw [turnLevelOn_stopper (by rw [setMode_eq]; exact h)]
  nofun

/-- In a plan without a further OPEN step the strand keeps away from the POUR pool (R67, R85, R116). -/
theorem fillEnd_free (hr : s.record? k = some r) (hi : r.stepIndex < r.snapshot.plan.steps.length)
    (hw : s.pour.waiting k = false) (hl : ∀ a ∈ r.later, isOpenAction a = false) :
    (drain [.completeStep k] (fillEnded k s)).pour.grant? k = none ∧
      (drain [.completeStep k] (fillEnded k s)).pour.waiting k = false ∧
      ∀ n, ((drain [.completeStep k] (fillEnded k s)).unit k).stopper ≠ .fill n := by
  obtain ⟨record, -, -, grant, waiting⟩ := fillEnded_base hr
  obtain ⟨record', unit, -⟩ := fillEnded_own hr
  have free := own_free (k := k) (r := r.stopped) .pour fun a ha e => absurd ((hl a ha).symm.trans (slotFor_pour e)) nofun
  have kept := free.drain_complete record' hi (free.toAwayKeep.stands (by rw [State.phase, record]; nofun)
    (l := [.grantChoice .pour]) (by simp [Task.avoids]) ⟨grant, waiting.trans hw⟩)
  have unfilled := (own_unfilled (k := k) (r := r.stopped) hl).drain_complete record' hi
    (fun n => by rw [unit]; exact endFill_stopper _ n)
  exact ⟨kept.1, kept.2, unfilled⟩

/-! ### A LEVEL step that follows -/

theorem turnLevelOn_unlocks {u : UnitState} (h : u.levelOn = false) : u.turnLevelOn.lock = false := by
  unfold UnitState.turnLevelOn
  rw [h]
  rfl

theorem writeSource_levelOn (src : LevelSource) (s : State) :
    ((writeSource k src s).unit k).levelOn = (s.unit k).levelOn ∧ ((writeSource k src s).unit k).stopper = (s.unit k).stopper := by
  rcases writeSource_unit (k := k) src s with e | e <;> rw [e] <;> exact ⟨rfl, rfl⟩

/-- LEVEL begun with LEVEL-ON off waits for LOCK (R70). -/
theorem beginLevel_waits {src : LevelSource} (hr : s.record? k = some r) (hb : bandInForce s k src ≠ 0)
    (hl : (s.unit k).levelOn = false) (hf : ∀ n, (s.unit k).stopper ≠ .fill n) :
    (beginLevel k src s).2 = [] ∧ (beginLevel k src s).1.phase k = .locking ∧
      ((beginLevel k src s).1.unit k).stopper = .regulator ∧ ((beginLevel k src s).1.unit k).levelOn = true := by
  obtain ⟨on, stopper⟩ := writeSource_levelOn (k := k) src s
  obtain ⟨-, -, modeOn, modeStopper⟩ := setMode_fields .auto ((writeSource k src s).unit k)
  have record : (updUnit k (fun u => (u.setMode .auto).turnLevelOn) (writeSource k src s)).record? k = some r := by
    rw [State.record?, updUnit_strand, ← hr, State.record?]
    refine congrArg (fun c : StrandContext => c.condition.record?) ?_
    cases src with
    | plan p =>
      rw [writeSource, writeLevelSet]
      dsimp only
      split
      · rw [updUnit_strand]; rfl
      · rfl
    | strand => rfl
  have unit : (toPhase k .locking none (updUnit k (fun u => (u.setMode .auto).turnLevelOn) (writeSource k src s))).unit k =
      (((writeSource k src s).unit k).setMode .auto).turnLevelOn :=
    (congrArg (Tab.look · k) (modRecord_units _ _ _)).trans (updUnit_unit_same _ _ _)
  unfold beginLevel
  rw [if_neg hb]
  dsimp only
  rw [unit, turnLevelOn_unlocks (by rw [modeOn, on, hl])]
  refine ⟨if_neg Bool.false_ne_true, ?_, ?_, rfl⟩
  · rw [toPhase_of_record record, phase_withRecord]
    rfl
  · exact turnLevelOn_stopper fun n => by rw [modeStopper, stopper]; exact hf n

end

end Sys2Proof.Machine
end
section
/-! PROOFS. The depth samples of an OPEN step (R66, R67, R70). -/

namespace Sys2Proof.Machine

section
variable {s : State} {k : Strand} {r : RestartRecord} {fill start attempts dwell d ref : Nat}

/-! ### The sample, by the step's phase -/

theorem openStepDepth_pouring (ha : s.action? k = some (.opening fill start attempts dwell)) (hp : s.phase k = .pouring) :
    openStepDepth k d s = pourTo k start d s := by
  simp only [openStepDepth, ha, hp, if_true]

theorem openStepDepth_filling (ha : s.action? k = some (.opening fill start attempts dwell)) (hp : s.phase k = .filling) :
    openStepDepth k d s = fillTo k start d s := by
  simp only [openStepDepth, ha, hp, if_true]
  exact if_neg nofun

theorem openStepDepth_other (h1 : s.phase k ≠ .pouring) (h2 : s.phase k ≠ .filling) : openStepDepth k d s = s := by
  unfold openStepDepth
  split
  · rw [if_neg h1, if_neg h2]
  · rfl

theorem riseReference_eq (hr : s.record? k = some r) : (s.record? k).bind (·.riseReference) = r.riseReference := by
  rw [hr]
  rfl

theorem pourTo_refers (hr : s.record? k = some r) (h : r.riseReference = none ∨ (r.riseReference = some ref ∧ ref < d)) :
    pourTo k start d s = withRecord k { r with riseReference := some d } s := by
  unfold pourTo
  rw [riseReference_eq hr]
  rcases h with h | ⟨h, hd⟩
  · rw [h]
    exact modRecord_of_record k _ r s hr
  · rw [h]
    exact (if_pos hd).trans (modRecord_of_record k _ r s hr)

theorem pourTo_waits (hr : s.record? k = some r) (h : r.riseReference = some ref) (hd : d ≤ ref)
    (ht : ref - d < s.working.pour.riseThreshold) : pourTo k start d s = s := by
  unfold pourTo
  rw [riseReference_eq hr, h]
  exact (if_neg (Nat.not_lt.mpr hd)).trans (if_neg (Nat.not_le.mpr ht))

theorem pourTo_confirms (hr : s.record? k = some r) (h : r.riseReference = some ref) (hd : d ≤ ref)
    (ht : s.working.pour.riseThreshold ≤ ref - d) : pourTo k start d s = fillTo k start d (confirmRise k s) := by
  unfold pourTo
  rw [riseReference_eq hr, h]
  exact (if_neg (Nat.not_lt.mpr hd)).trans (if_pos ht)

theorem fillTo_waits (h : start < d) : fillTo k start d s = s := if_neg (Nat.not_le.mpr h)

/-! ### The step's completion -/

/-- What the completion of the OPEN step comes to from the state `u` it is found in, whose record is that of `r`'s step. -/
theorem fillEnd_completes {u : State} {r' : RestartRecord} (hr : u.record? k = some r') (hn : r'.stopped = r.stopped)
    (hi : r.stepIndex < r.snapshot.plan.steps.length) (hk : u.isConfigured k = true) :
    Beyond k r (drain [.completeStep k] (fillEnded k u)) ∧
      (drain [.completeStep k] (fillEnded k u)).noticePending.look (Source.state k).number = true ∧
      Carried u (drain [.completeStep k] (fillEnded k u)) := by
  obtain ⟨record, -, -⟩ := fillEnded_own hr
  rw [hn] at record
  have carried := fillEnded_carried k u
  obtain ⟨⟨⟨-, -, count, -⟩, -⟩, -⟩ := fillEnded_carried k u
  obtain ⟨beyond, owed⟩ := drain_completeStep_beyond record hi ((congrArg (fun n => decide (k.val < n)) count).trans hk)
  exact ⟨beyond, owed, carried.trans (drain_carried _ _)⟩

/-- A LEVEL step entered with LEVEL-ON off waits for LOCK, the regulator at the stopper (R70). -/
theorem enterLevel_waits {src : LevelSource} {time : Nat} (hr : s.record? k = some r)
    (hq : r.step? = some ⟨.level src, time⟩) (hb : bandInForce s k src ≠ 0) (hl : (s.unit k).levelOn = false)
    (hf : ∀ n, (s.unit k).stopper ≠ .fill n) :
    (drain [.enterStep k] s).phase k = .locking ∧ ((drain [.enterStep k] s).unit k).stopper = .regulator ∧
      ((drain [.enterStep k] s).unit k).levelOn = true := by
  have loaded := loadStep_of_record k ⟨.level src, time⟩ r s hr
  have band : bandInForce (withRecord k (r.begun ⟨.level src, time⟩) s) k src ≠ 0 := by
    cases src <;> exact hb
  obtain ⟨tasks, waits⟩ := beginLevel_waits (record?_withRecord k (r.begun ⟨.level src, time⟩) s) band hl hf
  have run : runTask (.enterStep k) s = ((beginLevel k src (withRecord k (r.begun ⟨.level src, time⟩) s)).1, []) := by
    simp only [runTask, beginStep, hr, Option.bind_some, hq, beginAction, loaded]
    rw [← tasks]
  rw [drain_last run]
  exact waits

/-- A LEVEL step that follows the OPEN step has the regulator take the stopper (R70). -/
theorem fillEnd_levels {u : State} {r' : RestartRecord} {src : LevelSource} {time : Nat} (hr : u.record? k = some r')
    (hn : r'.stopped = r.stopped) (hi : r.stepIndex < r.snapshot.plan.steps.length)
    (hq : r.snapshot.plan.steps[r.stepIndex]? = some ⟨.level src, time⟩) (hl : (u.unit k).levelOn = false)
    (hb : bandInForce u k src ≠ 0) :
    (drain [.completeStep k] (fillEnded k u)).phase k = .locking ∧
      ((drain [.completeStep k] (fillEnded k u)).unit k).stopper = .regulator ∧
      ((drain [.completeStep k] (fillEnded k u)).unit k).levelOn = true := by
  obtain ⟨record, unit, level⟩ := fillEnded_own hr
  rw [hn] at record
  have unit' : (pend (.state k) (withRecord k r.next (fillEnded k u))).unit k = (u.unit k).endFill := by
    rw [pend_unit, unit_withRecord, unit]
  have levelOff : (u.unit k).endFill.levelOn = false := by
    unfold UnitState.endFill
    split <;> exact hl
  rw [drain_completeStep record hi, show r.stopped.next = r.next from rfl]
  refine enterLevel_waits (r := r.next) ?_ hq ?_ (by rw [unit']; exact levelOff) fun n => by rw [unit']; exact endFill_stopper _ n
  · rw [State.record?, pend_strand, strand_withRecord]
    rfl
  · cases src with
    | plan p => exact hb
    | strand =>
      rw [bandInForce, State.levelSet, pend_working]
      exact fun none => hb ((congrArg LevelParams.lockBand level).symm.trans none)

/-- The state in which a depth at or below the start depth finds the OPEN step: that of the sample, or of the rise it has
confirmed (R66, R67). -/
theorem openStepDepth_completes (hr : s.record? k = some r) (ha : s.action? k = some (.opening fill start attempts dwell))
    (hc : r.phase = .filling ∨ (r.phase = .pouring ∧ r.riseReference = some ref ∧ d ≤ ref ∧
      s.working.pour.riseThreshold ≤ ref - d)) (hs : d ≤ start) :
    ∃ u r', u.record? k = some r' ∧ r'.stopped = r.stopped ∧
      openStepDepth k d s = drain [.completeStep k] (fillEnded k u) ∧ AtStrand k s u ∧ u.faults = s.faults ∧
      u.unit k = s.unit k ∧ u.levelSet k = s.levelSet k ∧ u.pour.waiting k = s.pour.waiting k ∧
      (r.phase = .pouring → (u.strand k).steel = true ∧ (u.strand k).holdTimer.running = false) := by
  rcases hc with hp | ⟨hp, href, hd, ht⟩
  · refine ⟨s, r, hr, rfl, ?_, .refl k s, rfl, rfl, rfl, rfl, fun h => absurd (hp.symm.trans h) nofun⟩
    exact (openStepDepth_filling ha (record?_of_phase_eq hr hp)).trans (fillTo_completes hs)
  · obtain ⟨units, drive, working, faults, pour⟩ := confirmRise_rest hr
    have strand := confirmRise_strand hr
    refine ⟨confirmRise k s, r.inPhase .filling none, ?_, rfl, ?_, confirmRise_at k s, faults, congrArg (Tab.look · k) units,
      congrArg (fun w => w.levels.look k) working, ?_, fun _ => ⟨?_, ?_⟩⟩
    · rw [State.record?, strand]
      rfl
    · exact (openStepDepth_pouring ha (record?_of_phase_eq hr hp)).trans
        ((pourTo_confirms hr href hd ht).trans (fillTo_completes hs))
    · rw [pour]
      unfold answer modGrant
      split <;> rfl
    · rw [strand]
    · rw [strand]

end

/-- Settles O47: the sample by the step's phase; a completion is that of the state in which the fill ends. -/
theorem openStepTakesDepth : Obligations.OpenStepTakesDepth := by
  intro k d ref fill start attempts dwell r s hk hr ha
  have configured := isConfigured_of_inService k s hk
  have taken : effect (.depthSampleOpenStep k (.valid d)) s = openStepDepth k d s := if_pos hk
  have pouring : r.phase = .pouring → openStepDepth k d s = pourTo k start d s := fun hp =>
    openStepDepth_pouring ha (record?_of_phase_eq hr hp)
  refine ⟨rfl, fun h1 h2 => ?_, fun hp href => ?_, fun hp href hd ht => ?_, fun hp href hd ht hs => ?_, fun hp hs => ?_,
    fun hc hs hi => ?_⟩
  · refine event_discarded (i := .depthSampleOpenStep k (.valid d)) ⟨rfl, nofun⟩ s (taken.trans (openStepDepth_other ?_ ?_))
    · rw [State.phase, hr]; exact h1
    · rw [State.phase, hr]; exact h2
  · obtain ⟨t, reached, same, -⟩ := event_acts (i := .depthSampleOpenStep k (.valid d)) ⟨rfl, nofun⟩ s
    rw [taken, pouring hp, pourTo_refers hr href] at same
    exact ⟨t, reached, same⟩
  · exact event_discarded (i := .depthSampleOpenStep k (.valid d)) ⟨rfl, nofun⟩ s
      (taken.trans ((pouring hp).trans (pourTo_waits hr href hd ht)))
  · obtain ⟨t, reached, same, noticed⟩ := event_acts (i := .depthSampleOpenStep k (.valid d)) ⟨rfl, nofun⟩ s
    rw [taken, pouring hp, pourTo_confirms hr href hd ht, fillTo_waits hs] at same noticed
    obtain ⟨units, drive, working, faults, pour⟩ := confirmRise_rest hr
    obtain ⟨outside, -⟩ := (confirmRise_at k s).local
    refine ⟨t, reached, same.units.trans units, same.drive.trans drive, ?_, fun steel => ?_, fun n running => ?_,
      fun j hj => ?_, same.sameOutside outside, same.working.trans working, same.faults.trans faults⟩
    · rw [same.strand, confirmRise_strand hr]
      rfl
    · exact noticed _ (.inl (confirmRise_pends hr configured steel))
    · rw [same.pour, pour]
      exact answer_pour_response running
    · rw [same.strand, confirmRise_strand_ne hr hj]
  · exact event_discarded (i := .depthSampleOpenStep k (.valid d)) ⟨rfl, nofun⟩ s
      (taken.trans ((openStepDepth_filling ha (record?_of_phase_eq hr hp)).trans (fillTo_waits hs)))
  · obtain ⟨u, r', found, stopped, ended, around, uFaults, unit, level, waiting, rise⟩ :=
      openStepDepth_completes hr ha hc hs
    obtain ⟨t, reached, same, noticed⟩ := event_acts (i := .depthSampleOpenStep k (.valid d)) ⟨rfl, nofun⟩ s
    rw [taken, ended] at same noticed
    obtain ⟨beyond, owed, carried⟩ :=
      fillEnd_completes found stopped hi ((isConfigured_of_outside around.1 k).trans configured)
    have index : r'.stepIndex = r.stepIndex := (congrArg RestartRecord.stepIndex stopped :)
    have snapshot : r'.snapshot = r.snapshot := (congrArg RestartRecord.snapshot stopped :)
    have later : r'.later = r.later := by rw [RestartRecord.later, index, snapshot]; rfl
    obtain ⟨outside', settings, others, -⟩ := (around.trans (carried.at k)).local
    obtain ⟨-, strands, faults, -⟩ := carried
    refine ⟨t, reached, same.advanced (beyond.advanced hr), noticed _ (.inl owed), same.sameOutside outside',
      same.sameSettings settings, same.faults.trans (faults.trans uFaults), fun hp => ?_, fun j hj => ?_, fun hw hl => ?_,
      fun src time hq hoff hb => ?_⟩
    · obtain ⟨-, steel, -, -, -, timer, -⟩ := strands k
      rw [same.strand, steel, timer]
      exact rise hp
    · exact same.sameStrand (others j hj).1
    · obtain ⟨grant, waits, stopper⟩ := fillEnd_free found (by rw [index, snapshot]; exact hi) (waiting.trans hw)
        (fun a ha => by
          rw [later] at ha
          obtain ⟨q, hq, rfl⟩ := List.mem_map.mp ha
          have := List.all_eq_true.mp hl q hq
          rwa [Bool.not_eq_true'] at this)
      rw [same.pour, same.unit]
      exact ⟨holds_of_grant grant, waits, stopper⟩
    · rw [same.phase, same.unit]
      refine fillEnd_levels found stopped hi hq (by rw [unit]; exact hoff) ?_
      cases src with
      | plan p => exact hb
      | strand => rw [bandInForce, level]; exact hb

end Sys2Proof.Machine
end
section
/-! PROOFS. LOCK and the phase of a LEVEL step: an action that takes a restart on leaves LOCK false just where a LEVEL step
waits for it (R70, R71, R113). -/

namespace Sys2Proof.Machine

/-- What every task of an action carries on, with those behind it, the whole action comes to. -/
theorem drain_induct {P : List Task → State → Prop}
    (h : ∀ t l s, P (t :: l) s → P ((runTask t s).2 ++ l) (runTask t s).1) (l : List Task) (s : State) (h0 : P l s) :
    P [] (drain l s) := by
  match l with
  | [] => rwa [drain_nil]
  | t :: l =>
    rw [drain_cons]
    exact drain_induct h _ _ (h t l s h0)
termination_by cascadeBound l s
decreasing_by exact runTask_lowers t l s

/-! ### The pace of a strand's step within an action -/

/-- The task names strand `k`. -/
def Task.names (k : Strand) (t : Task) : Prop := ¬ t.avoids k

/-- No task names the strand; LOCK is false just where its LEVEL step waits. -/
def AtPause (k : Strand) (l : List Task) (s : State) : Prop :=
  (∀ u ∈ l, Task.avoids k u) ∧ ((s.unit k).lock = true ↔ s.phase k ≠ .locking)

/-- One task names the strand, whose LOCK is set and whose step waits for no slot. -/
def InStride (k : Strand) (l : List Task) (s : State) : Prop :=
  (s.unit k).lock = true ∧ s.phase k ≠ .slotWait ∧ ∃ a t b, l = a ++ t :: b ∧ (∀ u ∈ a, Task.avoids k u) ∧
    (∀ u ∈ b, Task.avoids k u) ∧ (t = .completeStep k ∨ t = .inrushEnd k ∨ (t = .enterStep k ∧ s.phase k ≠ .locking))

/-- An action goes on with the strand's step, or has come to a pause in it. -/
def Paced (k : Strand) (l : List Task) (s : State) : Prop := AtPause k l s ∨ InStride k l s

section
variable {k : Strand} {s : State}

theorem Paced.behind {l m : List Task} (h : Paced k l s) (hm : ∀ u ∈ m, Task.avoids k u) : Paced k (l ++ m) s := by
  rcases h with ⟨free, iff⟩ | ⟨lock, phase, a, t, b, rfl, ha, hb, ht⟩
  · exact .inl ⟨fun u hu => (List.mem_append.mp hu).elim (free u) (hm u), iff⟩
  · refine .inr ⟨lock, phase, a, t, b ++ m, by simp, ha, fun u hu => (List.mem_append.mp hu).elim (hb u) (hm u), ht⟩

/-- The step waits, with LOCK set, in a phase of its own. -/
theorem paced_pause {l : List Task} (hl : ∀ u ∈ l, Task.avoids k u) (lock : (s.unit k).lock = true)
    (phase : s.phase k ≠ .locking) : Paced k l s := .inl ⟨hl, fun _ => phase, fun _ => lock⟩

theorem paced_completes (lock : (s.unit k).lock = true) (phase : s.phase k ≠ .slotWait) : Paced k [.completeStep k] s :=
  .inr ⟨lock, phase, [], .completeStep k, [], rfl, nofun, nofun, .inl rfl⟩

theorem paced_choice {c : Prop} [Decidable c] (lock : (s.unit k).lock = true) (slot : s.phase k ≠ .slotWait)
    (level : s.phase k ≠ .locking) : Paced k (if c then [.completeStep k] else []) s := by
  split
  · exact paced_completes lock slot
  · exact paced_pause nofun lock level

theorem toPhase_own {r : RestartRecord} (h : s.record? k = some r) (ph : Phase) (t : Option Nat) :
    (toPhase k ph t s).phase k = ph ∧ (toPhase k ph t s).unit k = s.unit k := by
  rw [toPhase_of_record h]
  exact ⟨phase_withRecord _ _ _, unit_withRecord _ _ _ _⟩

theorem failStep_own {r : RestartRecord} (h : s.record? k = some r) (f : StepFailure) :
    (failStep k f s).phase k = .noPhase ∧ (failStep k f s).unit k = s.unit k := by
  rw [failStep_of_record f h]
  exact ⟨phase_withRecord k r.stopped s, rfl⟩

theorem updUnit_record (f : UnitState → UnitState) : (updUnit k f s).record? k = s.record? k := by
  rw [State.record?, updUnit_strand]
  rfl

theorem writeSource_record (src : LevelSource) : (writeSource k src s).record? k = s.record? k := by
  cases src with
  | plan p =>
    rw [writeSource, writeLevelSet]
    dsimp only
    split
    · exact updUnit_record _
    · rfl
  | strand => rfl

/-- A step begun while LOCK is set (R53). -/
theorem beginAction_paced {r : RestartRecord} (a : Action) (hr : s.record? k = some r) (lock : (s.unit k).lock = true)
    (slot : s.phase k ≠ .slotWait) : Paced k (beginAction k a s).2 (beginAction k a s).1 := by
  have request : ∀ p, Paced k (requestSlot p k s).2 (requestSlot p k s).1 := fun p => by
    unfold requestSlot
    split
    · obtain ⟨phase, unit⟩ := failStep_own hr (.excluded p)
      exact paced_pause nofun (by rw [unit]; exact lock) (by rw [phase]; nofun)
    · obtain ⟨phase, unit⟩ := toPhase_own hr .slotWait none
      refine paced_pause (by simp [Task.avoids]) ?_ ?_
      · have same : (joinWaits p k (toPhase k .slotWait none s)).unit k = (toPhase k .slotWait none s).unit k := by
          simp [State.unit, joinWaits]
        rw [same, unit]
        exact lock
      · have same : (joinWaits p k (toPhase k .slotWait none s)).phase k = (toPhase k .slotWait none s).phase k := by
          simp [State.phase, State.record?, State.strand, joinWaits]
        rw [same, phase]
        nofun
  have waits : ∀ ph, ph ≠ .slotWait → ph ≠ .locking → ∀ (c : Prop) [Decidable c],
      Paced k (if c then [.completeStep k] else []) (toPhase k ph none s) := fun ph h1 h2 c _ => by
    obtain ⟨phase, unit⟩ := toPhase_own hr ph none
    exact paced_choice (by rw [unit]; exact lock) (by rw [phase]; exact h1) (by rw [phase]; exact h2)
  cases a with
  | check m => exact waits .waiting nofun nofun _
  | cool z =>
    refine paced_completes ?_ ?_
    · exact (congrArg UnitState.lock (updUnit_unit_same _ _ _)).trans lock
    · rwa [beginAction, beginCool, State.phase, updUnit_record]
  | drive => exact request .drive
  | opening => exact request .pour
  | level src =>
    rw [beginAction, beginLevel]
    split
    · obtain ⟨phase, unit⟩ := failStep_own hr .lockDisabled
      exact paced_pause nofun (by rw [unit]; exact lock) (by rw [phase]; nofun)
    · obtain ⟨phase, -⟩ := toPhase_own (k := k)
        (s := updUnit k (fun u => (u.setMode .auto).turnLevelOn) (writeSource k src s)) (r := r)
        (by rw [updUnit_record, writeSource_record, hr]) .locking none
      dsimp only
      split
      · next locked => exact paced_completes locked (by rw [phase]; nofun)
      · next unlocked => exact .inl ⟨nofun, fun h => absurd h unlocked, fun h => absurd phase h⟩
  | wait => exact waits .dwell nofun nofun False
  | draw a b c =>
    have ramps : ∀ f : UnitState → UnitState, (f (s.unit k)).lock = (s.unit k).lock →
        Paced k (rampTasks k b (toPhase k .ramping none (updUnit k f s))) (toPhase k .ramping none (updUnit k f s)) := fun f hf => by
      obtain ⟨phase, unit⟩ := toPhase_own (k := k) (s := updUnit k f s) (r := r) (by rw [updUnit_record, hr]) .ramping none
      exact paced_choice (by rw [unit, updUnit_unit_same, hf]; exact lock) (by rw [phase]; nofun) (by rw [phase]; nofun)
    unfold beginAction beginDraw
    dsimp only
    split
    · exact ramps _ rfl
    · split
      · exact ramps _ rfl
      · obtain ⟨phase, unit⟩ := failStep_own hr .interlock
        exact paced_pause nofun (by rw [unit]; exact lock) (by rw [phase]; nofun)
  | handover => exact waits .referenceWait nofun nofun False

/-! ### The tasks that name the strand -/

theorem beginStep_paced (lock : (s.unit k).lock = true) (slot : s.phase k ≠ .slotWait) (level : s.phase k ≠ .locking) :
    Paced k (beginStep k s).2 (beginStep k s).1 := by
  unfold beginStep
  split
  · next q hq =>
    obtain ⟨r, hr, -⟩ := Option.bind_eq_some_iff.mp hq
    have phase : r.phase = s.phase k := by rw [State.phase, hr]
    rw [loadStep_of_record k q r s hr]
    exact beginAction_paced q.action (record?_withRecord k (r.begun q) s) lock
      (by rw [phase_withRecord]; exact fun h => slot (phase.symm.trans h))
  · exact paced_pause nofun lock level

theorem finishStep_paced (lock : (s.unit k).lock = true) : Paced k (finishStep k s).2 (finishStep k s).1 := by
  unfold finishStep
  split
  · next h => exact paced_pause nofun lock (by rw [State.phase, h]; nofun)
  · next r hr =>
    rw [stopStep_of_record hr]
    split
    · rw [advanceStep, stopStep_of_record hr, modRecord_withRecord]
      have phase : (pend (.state k) (withRecord k { r.stopped with stepIndex := r.stepIndex + 1, attempt := none } s)).phase k =
          .noPhase := by
        rw [State.phase, State.record?, pend_strand, strand_withRecord]
        rfl
      refine .inr ⟨by rw [pend_unit]; exact lock, ?_, [], .enterStep k, [], rfl, nofun, nofun, .inr (.inr ⟨rfl, ?_⟩)⟩
      · exact fun h => absurd (phase.symm.trans h) nofun
      · exact fun h => absurd (phase.symm.trans h) nofun
    · have phase : (withRecord k r.stopped s).phase k = .noPhase := phase_withRecord _ _ _
      exact paced_pause nofun lock fun h => absurd (phase.symm.trans h) nofun

theorem endInrush_own (s : State) : (endInrush k s).1.phase k = s.phase k ∧ (endInrush k s).1.unit k = s.unit k := by
  have strand : (endInrush k s).1.strand k = { s.strand k with driveLost := false } := modStrand_strand_same _ _ _
  refine ⟨?_, congrArg (Tab.look · k) (modPool_units _ _ _)⟩
  rw [State.phase, State.record?, strand]
  rfl

theorem endInrush_paced (lock : (s.unit k).lock = true) (slot : s.phase k ≠ .slotWait) :
    Paced k (endInrush k s).2 (endInrush k s).1 := by
  obtain ⟨phase, unit⟩ := endInrush_own (k := k) s
  refine .inr ⟨by rw [unit]; exact lock, by rwa [phase], [.grantChoice .drive], .completeStep k, [], rfl, ?_, nofun, .inl rfl⟩
  simp [Task.avoids]

/-! ### A grant -/

/-- The stopper opened for an attempt waits in POURING; without an OPEN step nothing happens. -/
theorem openForAttempt_own {r : RestartRecord} (hr : s.record? k = some r) : ((openForAttempt k s).phase k = .pouring ∨
    (openForAttempt k s).phase k = s.phase k) ∧ ((openForAttempt k s).unit k).lock = (s.unit k).lock := by
  by_cases h : ∃ a b c d, s.action? k = some (.opening a b c d)
  · obtain ⟨a, b, c, d, ha⟩ := h
    rw [openForAttempt_of_action hr ha]
    refine ⟨.inl (phase_withRecord _ _ _), ?_⟩
    rw [unit_withRecord]
    refine congrArg UnitState.lock (a₂ := (s.unit k).openStopper a) ?_
    exact (congrArg (Tab.look · k) (modGrant_units _ _ _ _)).trans (look_put_same _ _ _)
  · rw [openForAttempt_other h]
    exact ⟨.inr rfl, rfl⟩

/-- A POUR grant taken leaves SLOT_WAIT for no LEVEL step. -/
theorem takePourGrant_paced {r : RestartRecord} (hr : s.record? k = some r) (hp : s.phase k = .slotWait)
    (lock : (s.unit k).lock = true) : Paced k [] (takePourGrant k s) := by
  have opens : ∀ u : State, (∃ r, u.record? k = some r) → (u.unit k).lock = true → u.phase k ≠ .locking →
      Paced k [] (openForAttempt k u) := fun u ⟨r, hr⟩ lock level => by
    obtain ⟨phase, unit⟩ := openForAttempt_own hr
    refine paced_pause nofun (unit.trans lock) ?_
    rcases phase with e | e <;> rw [e]
    · nofun
    · exact level
  obtain ⟨phase, unit⟩ := toPhase_own hr .preCharge none
  obtain ⟨phase', unit'⟩ := toPhase_own hr .preCharge (some s.working.pour.preCharge)
  unfold takePourGrant
  dsimp only
  repeat' split
  · exact opens s ⟨r, hr⟩ lock (by rw [hp]; nofun)
  · refine opens _ ⟨r.inPhase .preCharge none, ?_⟩ (by rw [unit]; exact lock) (by rw [phase]; nofun)
    rw [toPhase_of_record hr, record?_withRecord]
  · exact paced_pause nofun (by rw [unit']; exact lock) (by rw [phase']; nofun)

/-- A DRIVE grant taken leaves SLOT_WAIT for STARTING or INRUSH. -/
theorem takeDriveGrant_paced {r : RestartRecord} (hr : s.record? k = some r) (lock : (s.unit k).lock = true) :
    Paced k (takeDriveGrant k s).2 (takeDriveGrant k s).1 := by
  by_cases ready : s.driveReady k = true
  · rw [takeDriveGrant_ready hr ready]
    have phase : (withRecord k (r.inPhase .inrush (phaseTime s.working.drive.inrushHold))
        (answer .drive k (modUnit k UnitState.runDrive s))).phase k = .inrush := phase_withRecord _ _ _
    have locked : ((withRecord k (r.inPhase .inrush (phaseTime s.working.drive.inrushHold))
        (answer .drive k (modUnit k UnitState.runDrive s))).unit k).lock = true := by
      rw [unit_withRecord]
      refine (congrArg UnitState.lock (a₂ := (s.unit k).runDrive) ?_).trans lock
      exact (congrArg (Tab.look · k) (modGrant_units _ _ _ _)).trans (look_put_same _ _ _)
    dsimp only
    split
    · exact .inr ⟨locked, fun h => absurd (phase.symm.trans h) nofun, [], .inrushEnd k, [], rfl, nofun, nofun, .inr (.inl rfl)⟩
    · exact paced_pause nofun locked fun h => absurd (phase.symm.trans h) nofun
  · rw [takeDriveGrant_starting hr (Bool.eq_false_iff.mpr ready)]
    have phase : (withRecord k (r.inPhase .starting none) (modUnit k UnitState.runDrive s)).phase k = .starting :=
      phase_withRecord _ _ _
    refine paced_pause nofun ?_ fun h => absurd (phase.symm.trans h) nofun
    rw [unit_withRecord]
    exact (congrArg UnitState.lock (look_put_same s.units k (s.unit k).runDrive)).trans lock

/-- A choice at a pool, at a pause of the strand's step. -/
theorem grantPass_paced (p : PoolId) (h : (s.unit k).lock = true ↔ s.phase k ≠ .locking) :
    Paced k (grantPass p s).2 (grantPass p s).1 := by
  by_cases slot : s.phase k = .slotWait
  · have lock : (s.unit k).lock = true := h.mpr (by rw [slot]; nofun)
    obtain ⟨r, hr⟩ := Option.isSome_iff_exists.mp (record?_of_phase slot nofun)
    unfold grantPass
    split
    · split
      · exact .inl ⟨nofun, h⟩
      · next e rest hw =>
        refine Paced.behind ?_ (m := [.grantChoice p]) (by simp [Task.avoids])
        by_cases he : e.strand = k
        · rw [he]
          have phase : (makeGrant p k rest s).phase k = .slotWait := by rw [makeGrant_phase]; exact slot
          have record : (makeGrant p k rest s).record? k = some r := by rw [makeGrant_record]; exact hr
          have locked : ((makeGrant p k rest s).unit k).lock = true := by rw [makeGrant_unit]; exact lock
          unfold deliverGrant
          rw [if_pos phase]
          cases p with
          | pour => exact takePourGrant_paced record phase locked
          | drive => exact takeDriveGrant_paced record locked
        · obtain ⟨⟨strand, unit, -⟩, avoids⟩ := (away_own k s).grantOther he hw ⟨rfl, rfl, rfl⟩
          refine .inl ⟨avoids, ?_⟩
          rw [unit, State.phase, State.record?, strand]
          exact h
    · exact .inl ⟨nofun, h⟩
  · obtain ⟨⟨strand, unit, -⟩, avoids⟩ :=
      (away_own k s).runTask (t := .grantChoice p) (by simp [Task.avoids]) slot ⟨rfl, rfl, rfl⟩
    rw [← runTask]
    refine .inl ⟨avoids, ?_⟩
    rw [unit, State.phase, State.record?, strand]
    exact h

/-! ### The whole action -/

theorem runTask_paced (t : Task) (l : List Task) (s : State) (h : Paced k (t :: l) s) :
    Paced k ((runTask t s).2 ++ l) (runTask t s).1 := by
  rcases h with ⟨free, iff⟩ | ⟨lock, slot, a, t', b, shape, ha, hb, ht'⟩
  · have avoids := free t List.mem_cons_self
    refine Paced.behind ?_ fun u hu => free u (List.mem_cons_of_mem _ hu)
    have paused : ((runTask t s).1.strand k = s.strand k ∧ (runTask t s).1.unit k = s.unit k ∧
        (runTask t s).1.levelSet k = s.levelSet k) ∧ (∀ u ∈ (runTask t s).2, Task.avoids k u) →
          Paced k (runTask t s).2 (runTask t s).1 := fun ⟨⟨strand, unit, _⟩, tasks⟩ => by
      refine .inl ⟨tasks, ?_⟩
      rw [unit, State.phase, State.record?, strand]
      exact iff
    cases t with
    | grantChoice p => exact grantPass_paced p iff
    | enterStep j => exact paused ((away_own k s).other avoids s ⟨rfl, rfl, rfl⟩).1
    | completeStep j => exact paused ((away_own k s).other avoids s ⟨rfl, rfl, rfl⟩).2.1
    | inrushEnd j => exact paused ((away_own k s).other avoids s ⟨rfl, rfl, rfl⟩).2.2
  · cases a with
    | nil =>
      cases shape
      refine Paced.behind ?_ hb
      rcases ht' with rfl | rfl | ⟨rfl, level⟩
      · exact finishStep_paced lock
      · exact endInrush_paced lock slot
      · exact beginStep_paced lock slot level
    | cons u a =>
      cases shape
      obtain ⟨⟨strand, unit, -⟩, tasks⟩ := (away_own k s).runTask (ha t List.mem_cons_self) slot ⟨rfl, rfl, rfl⟩
      have phase : (runTask t s).1.phase k = s.phase k := by rw [State.phase, State.record?, strand]; rfl
      refine .inr ⟨by rw [unit]; exact lock, by rwa [phase], (runTask t s).2 ++ a, t', b, by simp, fun u hu => ?_, hb, ?_⟩
      · exact (List.mem_append.mp hu).elim (tasks u) fun hu => ha u (List.mem_cons_of_mem _ hu)
      · rwa [phase]

end

end Sys2Proof.Machine
end
section
/-! PROOFS. The depth sample at the unit (R110, R113), and what an action that takes one restart on leaves of the other units. -/

namespace Sys2Proof.Machine

/-! ### An action of one strand's tasks -/

/-- The task names strand `k` or a pool. -/
def Task.only (k : Strand) : Task → Prop
  | .enterStep j | .completeStep j | .inrushEnd j => j = k
  | .grantChoice _ => True

/-- Every waiting strand at the pool is `k`. -/
def Waits (k : Strand) (x : Pool) : Prop := ∀ e ∈ x.waits, e.strand = k

/-- Only strand `k` is acted on: the tasks name it alone, the other units stand as in `s0`, and whoever a pool would give a
free slot to is `k`. -/
def Lone (k : Strand) (s0 : State) (l : List Task) (s : State) : Prop :=
  (∀ u ∈ l, Task.only k u) ∧ (∀ j, j ≠ k → s.unit j = s0.unit j) ∧
  (∀ p, (s.pool p).isOpen = true → (s.pool p).holderCount < capacity s p → Waits k (s.pool p)) ∧
  (.inrushEnd k ∈ l → Waits k s.drive)

/-- Strand `k` may have joined a pool's list; the rest of the queues is the same. -/
def Joined (k : Strand) (s t : State) : Prop :=
  ∀ p, (t.pool p).isOpen = (s.pool p).isOpen ∧ (∀ e ∈ (t.pool p).waits, e ∈ (s.pool p).waits ∨ e.strand = k) ∧
    (∀ j, (t.pool p).holds j = (s.pool p).holds j) ∧ capacity t p = capacity s p

section
variable {k : Strand} {s t u : State}

theorem SameQueues.joined (h : SameQueues s t) : Joined k s t := fun p => by
  obtain ⟨h1, h2, h3, h4⟩ := h p
  exact ⟨h1, fun e he => .inl (by rwa [h2] at he), h3, h4⟩

theorem Joined.trans (h : Joined k s t) (g : Joined k t u) : Joined k s u := fun p => by
  obtain ⟨h1, h2, h3, h4⟩ := h p
  obtain ⟨g1, g2, g3, g4⟩ := g p
  exact ⟨g1.trans h1, fun e he => (g2 e he).elim (h2 e) .inr, fun j => (g3 j).trans (h3 j), g4.trans h4⟩

theorem Joined.waits (h : Joined k s t) {p : PoolId} (hw : Waits k (s.pool p)) : Waits k (t.pool p) := fun e he =>
  ((h p).2.1 e he).elim (hw e) id

theorem joinWaits_joined (p : PoolId) (s : State) : Joined k s (joinWaits p k s) := fun q => by
  have capacity : capacity (joinWaits p k s) q = Machine.capacity s q :=
    capacity_of_eq (by simp [joinWaits]) (by simp [joinWaits]) q
  by_cases h : q = p
  · subst h
    rw [capacity, joinWaits, modPool_pool_same]
    exact ⟨rfl, fun e he => ((mem_insertEntry _ _ _).mp he).symm.imp_right fun x => by rw [x], fun _ => rfl, rfl⟩
  · rw [capacity, joinWaits, modPool_pool_ne _ _ _ _ h]
    exact ⟨rfl, fun e he => .inl he, fun _ => rfl, rfl⟩

theorem requestSlot_joined (p : PoolId) (s : State) : Joined k s (requestSlot p k s).1 := by
  unfold requestSlot
  split
  · exact ((queues_updates s).failStep _ _ _ (.refl s)).joined
  · exact ((queues_updates s).toPhase _ _ _ _ (.refl s)).joined.trans (joinWaits_joined p _)

theorem beginAction_joined (a : Action) (s : State) : Joined k s (beginAction k a s).1 := by
  cases a with
  | check m => exact ((queues_updates s).toPhase _ _ _ _ (.refl s)).joined
  | cool z => exact (sameQueues_of_eq (by simp [beginAction, beginCool]) (by simp [beginAction, beginCool])
      (by simp [beginAction, beginCool]) (by simp [beginAction, beginCool])).joined
  | drive => exact requestSlot_joined _ _
  | opening => exact requestSlot_joined _ _
  | level src => exact (beginLevel_queues _ _ _).joined
  | wait => exact ((queues_updates s).toPhase _ _ _ _ (.refl s)).joined
  | draw => exact (beginDraw_queues _ _ _ _ _).joined
  | handover => exact ((queues_updates s).toPhase _ _ _ _ (.refl s)).joined

/-- A step begun brings its own completion or a choice, and no end of an inrush hold. -/
theorem beginAction_tasks (a : Action) (s : State) :
    ∀ u ∈ (beginAction k a s).2, u = .completeStep k ∨ ∃ p, u = .grantChoice p := by
  have request : ∀ p, ∀ u ∈ (requestSlot p k s).2, u = .completeStep k ∨ ∃ p, u = .grantChoice p := fun p u hu => by
    unfold requestSlot at hu
    split at hu
    · cases hu
    · exact .inr ⟨p, List.mem_singleton.mp hu⟩
  have choice : ∀ (c : Prop) [Decidable c], ∀ u ∈ (if c then [Task.completeStep k] else []),
      u = .completeStep k ∨ ∃ p, u = .grantChoice p := fun c _ u hu => by
    split at hu
    · exact .inl (List.mem_singleton.mp hu)
    · cases hu
  cases a with
  | check m => exact choice _
  | cool z => exact fun u hu => .inl (List.mem_singleton.mp hu)
  | drive => exact request .drive
  | opening => exact request .pour
  | level src =>
    unfold beginAction beginLevel
    dsimp only
    split
    · exact nofun
    · exact choice _
  | wait => exact nofun
  | draw a b c =>
    unfold beginAction beginDraw
    dsimp only
    repeat' split
    · exact choice _
    · exact choice _
    · exact nofun
  | handover => exact nofun

theorem beginStep_joined (s : State) : Joined k s (beginStep k s).1 := by
  unfold beginStep
  split
  · next q _ =>
    have loaded : SameQueues s (loadStep k q s) :=
      (queues_updates s).record k _ _ (fun _ => ⟨rfl, rfl, rfl, rfl, Nat.le_refl _⟩) (.refl s)
    exact loaded.joined.trans (beginAction_joined q.action (loadStep k q s))
  · exact (SameQueues.refl s).joined

theorem beginStep_tasks (s : State) : ∀ u ∈ (beginStep k s).2, u = .completeStep k ∨ ∃ p, u = .grantChoice p := by
  unfold beginStep
  split
  · next q _ => exact beginAction_tasks q.action (loadStep k q s)
  · exact nofun

/-- The unit of another strand stands as in `s0`. -/
theorem away_unit (j : Strand) (s0 : State) : AwayKeep j fun t => t.unit j = s0.unit j where
  elsewhere := fun _ _ ⟨_, unit, _⟩ _ h => unit.trans h
  grant := fun p _ rest t _ _ h => (makeGrant_unit p j rest t j).trans h

/-- A task that joins no list but its own strand's. -/
theorem Lone.joins {s0 : State} {x : Task} {l m : List Task} (h : Lone k s0 (x :: l) s) (hj : Joined k s t)
    (hu : ∀ j, j ≠ k → t.unit j = s0.unit j) (hm : ∀ u ∈ m, Task.only k u) (hi : .inrushEnd k ∉ m) :
    Lone k s0 (m ++ l) t := by
  obtain ⟨only, -, free, inrush⟩ := h
  refine ⟨fun u hu => ?_, hu, fun p ho hc => ?_, fun hx => ?_⟩
  · exact (List.mem_append.mp hu).elim (hm u) fun hu => only u (List.mem_cons_of_mem _ hu)
  · obtain ⟨isOpen, -, holds, capacity⟩ := hj p
    rw [isOpen] at ho
    rw [holderCount_of_holds holds, capacity] at hc
    exact hj.waits (free p ho hc)
  · refine hj.waits (p := .drive) (inrush ?_)
    exact (List.mem_append.mp hx).elim (fun h => absurd h hi) (List.mem_cons_of_mem _)

/-- A choice gives a free slot to strand `k` alone. -/
theorem Lone.chooses {s0 : State} {p : PoolId} {l : List Task} (h : Lone k s0 (.grantChoice p :: l) s) :
    Lone k s0 ((grantPass p s).2 ++ l) (grantPass p s).1 := by
  obtain ⟨only, units, free, inrush⟩ := h
  have rest : ∀ u ∈ l, Task.only k u := fun u hu => only u (List.mem_cons_of_mem _ hu)
  unfold grantPass
  split
  · next hg =>
    rw [Bool.and_eq_true, decide_eq_true_eq] at hg
    have waits := free p hg.1 hg.2
    split
    · exact ⟨rest, units, free, fun h => inrush (List.mem_cons_of_mem _ h)⟩
    · next e entries hw =>
      have chosen : e.strand = k := waits e (by rw [hw]; exact List.mem_cons_self)
      have entriesOwn : ∀ x ∈ entries, x.strand = k := fun x hx => waits x (by rw [hw]; exact List.mem_cons_of_mem _ hx)
      have queues : SameQueues (makeGrant p e.strand entries s) (deliverGrant p e.strand (makeGrant p e.strand entries s)).1 :=
        (queues_updates _).deliverGrant _ _ _ (.refl _)
      have own : Waits k ((deliverGrant p e.strand (makeGrant p e.strand entries s)).1.pool p) := fun x hx => by
        rw [(queues p).2.1, (makeGrant_pool p e.strand entries s).1] at hx
        exact entriesOwn x hx
      have tasks : ∀ u ∈ (deliverGrant p e.strand (makeGrant p e.strand entries s)).2, u = .inrushEnd k ∧ p = .drive := by
        rw [chosen]
        unfold deliverGrant takeDriveGrant enterInrush
        dsimp only
        intro u hu
        split at hu
        · cases p with
          | pour => cases hu
          | drive =>
            dsimp only at hu
            split at hu
            · dsimp only at hu
              split at hu
              · exact ⟨List.mem_singleton.mp hu, rfl⟩
              · cases hu
            · cases hu
        · cases hu
      dsimp only
      refine ⟨fun u hu => ?_, fun j hj => ?_, fun q ho hc => ?_, fun hx => ?_⟩
      · rcases List.mem_append.mp hu with hu | hu
        · rcases List.mem_append.mp hu with hu | hu
          · rw [(tasks u hu).1]; rfl
          · rw [List.mem_singleton.mp hu]; trivial
        · exact rest u hu
      · exact ((away_unit j s0).grantOther (by rw [chosen]; exact Ne.symm hj) hw (units j hj)).1
      · by_cases hq : q = p
        · rw [hq]; exact own
        · intro x hx
          rw [(queues q).1, (makeGrant_pool p e.strand entries s).2 q hq] at ho
          rw [holderCount_of_holds (queues q).2.2.1, (queues q).2.2.2, (makeGrant_pool p e.strand entries s).2 q hq,
            capacity_of_eq (s := s) (by simp) (by simp) q] at hc
          rw [(queues q).2.1, (makeGrant_pool p e.strand entries s).2 q hq] at hx
          exact free q ho hc x hx
      · by_cases hp : p = .drive
        · subst hp; exact own
        · have behind : Task.inrushEnd k ∈ l := by
            rcases List.mem_append.mp hx with hx | hx
            · rcases List.mem_append.mp hx with hx | hx
              · exact absurd (tasks _ hx).2 hp
              · exact absurd (List.mem_singleton.mp hx) nofun
            · exact hx
          intro x hx
          have hq : PoolId.drive ≠ p := Ne.symm hp
          have same := (queues .drive).2.1.trans (congrArg Pool.waits ((makeGrant_pool p e.strand entries s).2 .drive hq))
          exact inrush (List.mem_cons_of_mem _ behind) x (by rwa [← show _ = s.drive.waits from same])
  · exact ⟨rest, units, free, fun h => inrush (List.mem_cons_of_mem _ h)⟩

theorem runTask_lone (s0 : State) (x : Task) (l : List Task) (s : State) (h : Lone k s0 (x :: l) s) :
    Lone k s0 ((runTask x s).2 ++ l) (runTask x s).1 := by
  have named := h.1 x List.mem_cons_self
  have others := fun j (hj : j ≠ k) => (away_unit j s0).other hj s (h.2.1 j hj)
  cases x with
  | grantChoice p => exact h.chooses
  | enterStep i =>
    cases named
    have tasks := beginStep_tasks (k := k) s
    refine h.joins (beginStep_joined s) (fun j hj => (others j hj).1.1) (fun u hu => ?_) fun hu => ?_
    · rcases tasks u hu with rfl | ⟨p, rfl⟩
      · rfl
      · trivial
    · rcases tasks _ hu with e | ⟨p, e⟩ <;> cases e
  | completeStep i =>
    cases named
    refine h.joins ((queues_updates s).finishStep k s (.refl s)).joined (fun j hj => (others j hj).2.1.1) ?_ ?_
    · unfold runTask finishStep
      dsimp only
      repeat' split
      · nofun
      · intro u hu; rw [List.mem_singleton.mp hu]; rfl
      · nofun
    · unfold runTask finishStep
      dsimp only
      repeat' split
      · nofun
      · simp
      · nofun
  | inrushEnd i =>
    cases named
    obtain ⟨only, -, free, inrush⟩ := h
    have drive := inrush List.mem_cons_self
    have pour : (endInrush k s).1.pool .pour = s.pool .pour := by
      show (dropGrant .drive k s).pool .pour = s.pool .pour
      exact modPool_pool_ne _ _ _ _ (by decide)
    have capacity : ∀ q, capacity (endInrush k s).1 q = Machine.capacity s q := fun q => by cases q <;> rfl
    refine ⟨fun u hu => ?_, fun j hj => (others j hj).2.2.1, fun q ho hc => ?_, fun _ => drive⟩
    · rcases List.mem_append.mp hu with hu | hu
      · simp only [runTask, endInrush, List.mem_cons, List.not_mem_nil, or_false] at hu
        rcases hu with rfl | rfl
        · trivial
        · rfl
      · exact only u (List.mem_cons_of_mem _ hu)
    · cases q with
      | drive => exact drive
      | pour =>
        rw [runTask, pour] at ho hc ⊢
        rw [capacity] at hc
        exact free .pour ho hc

/-- A restart taken on from served pools changes no other unit (R83). -/
theorem drain_units_of_served (hs : Served s) {j : Strand} (hj : j ≠ k) : (drain [.completeStep k] s).unit j = s.unit j := by
  have lone : Lone k s [.completeStep k] s := by
    refine ⟨fun u hu => by rw [List.mem_singleton.mp hu]; rfl, fun _ _ => rfl, fun p ho hc e he => ?_, fun h => ?_⟩
    · have served := hs p
      rw [poolServed, ho, Bool.not_true, Bool.false_or, Bool.or_eq_true, List.isEmpty_iff, decide_eq_true_eq] at served
      rcases served with h | h
      · rw [h] at he; cases he
      · omega
    · exact absurd (List.mem_singleton.mp h) nofun
  exact (drain_induct (P := Lone k s) (runTask_lone s) _ _ lone).2.1 j hj

end

end Sys2Proof.Machine
end
section
/-! PROOFS. The depth sample at the unit (R110, R113). -/

namespace Sys2Proof.Machine

/-- The unit is under automatic level control, its counts 0, and has of `v` what no step of a plan writes. -/
def KeepsLevel (v u : UnitState) : Prop :=
  u.levelOn = true ∧ u.controlMode = .auto ∧ u.inCount = 0 ∧ u.outCount = 0 ∧ u.lastDepth = v.lastDepth ∧
    u.manualChoice = v.manualChoice ∧ u.lastReference = v.lastReference

section
variable {k : Strand} {s : State} {r : RestartRecord} {u v : UnitState} {p : LevelParams} {x : Sample}

/-! ### The sample at the detector -/

theorem takeDepth_inactive (h : detectorActive p u = false) : u.takeDepth p x = u.noteDepth x := by
  simp [UnitState.takeDepth, detectorActive_noteDepth, h]

theorem noteDepth_keeps (x : Sample) (u : UnitState) :
    (u.noteDepth x).manualChoice = u.manualChoice ∧ (u.noteDepth x).lastReference = u.lastReference := by
  cases x <;> exact ⟨rfl, rfl⟩

/-- LOCK is set only under automatic level control, and with both counts 0 (R111). -/
theorem takeDepth_locks (h : u.lock = false) (hv : (u.takeDepth p x).lock = true) :
    KeepsLevel (u.takeDepth p x) (u.takeDepth p x) ∧ (u.takeDepth p x).manualChoice = u.manualChoice ∧
      (u.takeDepth p x).lastReference = u.lastReference := by
  have unlocked : (u.noteDepth x).lock = false := (lock_noteDepth x u).trans h
  cases active : detectorActive p u with
  | false => rw [takeDepth_inactive active, unlocked] at hv; cases hv
  | true =>
    obtain ⟨on, auto, -⟩ := (detectorActive_iff p u).mp active
    have on' : (u.noteDepth x).levelOn = true := by cases x <;> exact on
    have auto' : (u.noteDepth x).controlMode = .auto := by cases x <;> exact auto
    rw [takeDepth_of_unlocked active h] at hv ⊢
    by_cases near : withinBand p p.lockBand x = true
    · by_cases reached : effectiveLockCount p ≤ (u.noteDepth x).inCount + 1
      · rw [seekLock_locks near reached]
        exact ⟨⟨on', auto', rfl, rfl, rfl, rfl, rfl⟩, noteDepth_keeps x u⟩
      · rw [seekLock_counts near (Nat.not_le.mp reached)] at hv
        exact absurd (hv.symm.trans unlocked) nofun
    · rw [seekLock_breaks near] at hv
      exact absurd (hv.symm.trans unlocked) nofun

/-! ### What the steps that follow keep -/

theorem KeepsLevel.level (h : KeepsLevel v u) : KeepsLevel v (u.setMode .auto).turnLevelOn := by
  obtain ⟨on, auto, rest⟩ := h
  rw [UnitState.setMode, if_pos auto, UnitState.turnLevelOn, if_pos on]
  exact ⟨rfl, auto, rest⟩

theorem own_keepsLevel (v : UnitState) : OwnTasks k r fun s => KeepsLevel v (s.unit k) :=
  own_of_unit (fun _ _ h => h) (fun _ h => h) (fun _ _ _ _ _ _ h => h)
    (fun _ ⟨on, auto, _, _, rest⟩ => ⟨on, auto, rfl, rfl, rest⟩) (fun _ h => h.level) (fun _ _ _ _ _ _ h => h)
    (fun _ _ _ _ _ _ h => h)

/-! ### The update of a unit -/

theorem updUnit_sameButNotices (f : UnitState → UnitState) :
    SameButNotices { s with units := s.units.put k (f (s.unit k)) } (updUnit k f s) := by
  unfold updUnit
  split
  · rfl
  · exact pend_sameButNotices _ _

theorem updUnit_pends {f : UnitState → UnitState} (hk : s.isConfigured k = true) (h : (f (s.unit k)).lock ≠ (s.unit k).lock) :
    (updUnit k f s).noticePending.look (Source.lock k).number = true := by
  rw [updUnit, if_neg fun e => h (congrArg Prod.fst e)]
  exact pend_look (.lock k) _ hk

/-! ### The unit's report -/

theorem unitDepth_quiet (h : (s.unit k).lock = true ∨ ((s.unit k).takeDepth (s.levelSet k) x).lock = false ∨ s.phase k ≠ .locking) :
    unitDepth k x s = updUnit k (UnitState.takeDepth (s.levelSet k) x) s := by
  unfold unitDepth
  dsimp only
  split
  · next set =>
    rw [updUnit_unit_same] at set
    obtain ⟨clear, locked⟩ := set
    rcases h with h | h | h
    · exact absurd (clear.symm.trans h) nofun
    · exact absurd (h.symm.trans locked) nofun
    · exact if_neg (by rwa [State.phase, updUnit_record])
  · rfl

theorem unitDepth_locks (clear : (s.unit k).lock = false) (locked : ((s.unit k).takeDepth (s.levelSet k) x).lock = true)
    (hp : s.phase k = .locking) :
    unitDepth k x s = drain [.completeStep k] (updUnit k (UnitState.takeDepth (s.levelSet k) x) s) := by
  have set : (s.unit k).lock = false ∧ ((updUnit k (UnitState.takeDepth (s.levelSet k) x) s).unit k).lock = true := by
    rw [updUnit_unit_same]
    exact ⟨clear, locked⟩
  exact (if_pos set).trans (if_pos (by rwa [State.phase, updUnit_record]))

end

/-- Settles O46: a sample that reports nothing is the unit's update; a reported LOCK completes the LEVEL step, and what the
steps that follow may write of the unit is LOCK with its counts, the stopper and the draw. -/
theorem depthSampleReachesTheUnit : Obligations.DepthSampleReachesTheUnit := by
  intro k x s u v
  refine ⟨fun hk => ?_, fun hk h => ?_, fun inactive => ?_, fun hk clear locked hp ⟨r, hr, hi⟩ => ?_⟩
  · exact event_discarded (i := .depthSampleUnit k x) ⟨rfl, nofun⟩ s (if_neg (by rw [hk]; nofun))
  · have configured := isConfigured_of_inService k s hk
    obtain ⟨t, reached, same, noticed⟩ := event_acts (i := .depthSampleUnit k x) ⟨rfl, nofun⟩ s
    rw [show effect (.depthSampleUnit k x) s = _ from (if_pos hk).trans (unitDepth_quiet h)] at same noticed
    exact ⟨t, reached, (updUnit_sameButNotices _).trans same, fun changed => noticed _ (.inl (updUnit_pends configured changed))⟩
  · refine (takeDepth_inactive inactive).trans ?_
    cases x <;> rfl
  · have configured := isConfigured_of_inService k s hk
    obtain ⟨level, keptChoice, keptReference⟩ := takeDepth_locks clear locked
    have taken := unitDepth_locks clear locked hp
    have carried := unitDepth_carried k x s
    obtain ⟨t, reached, same, noticed⟩ := event_acts (i := .depthSampleUnit k x) ⟨rfl, nofun⟩ s
    rw [show effect (.depthSampleUnit k x) s = unitDepth k x s from if_pos hk] at same noticed
    have ownUnit : (updUnit k (UnitState.takeDepth (s.levelSet k) x) s).unit k = v := updUnit_unit_same _ _ _
    have record : (updUnit k (UnitState.takeDepth (s.levelSet k) x) s).record? k = some r := (updUnit_record _).trans hr
    have phase : (updUnit k (UnitState.takeDepth (s.levelSet k) x) s).phase k ≠ .slotWait := by
      rw [State.phase, updUnit_record, ← State.phase, hp]
      nofun
    obtain ⟨beyond, state⟩ := drain_completeStep_beyond record hi
      ((congrArg (fun n => decide (k.val < n)) (updUnit_configuredCount (k := k) (s := s) _)).trans configured)
    have paced := drain_induct (P := Paced k) (fun t l s => runTask_paced t l s) _ _
      (paced_completes (by rw [ownUnit]; exact locked) phase)
    have kept := (own_keepsLevel v).drain_complete record hi (by rw [ownUnit]; exact level)
    rw [← taken] at beyond state paced kept
    obtain ⟨on, auto, inCount, outCount, depth, choice, reference⟩ := kept
    have lockIff : ((unitDepth k x s).unit k).lock = true ↔ (unitDepth k x s).phase k ≠ .locking := by
      rcases paced with ⟨-, iff⟩ | ⟨-, -, a, t, b, shape, -⟩
      · exact iff
      · exact absurd shape.symm (by simp)
    have owed : (unitDepth k x s).noticePending.look (Source.lock k).number = true := by
      rw [taken]
      exact drain_owed _ _ _ (updUnit_pends configured (by rw [locked, clear]; nofun))
    have ⟨_, _, faults, _⟩ := carried
    refine ⟨t, reached, same.localTo (carried.at k).local, same.advanced (beyond.advanced hr),
      noticed _ (.inl state), noticed _ (.inl owed), same.faults.trans faults, ?_⟩
    rw [same.unit, same.phase]
    refine ⟨depth, inCount, outCount, lockIff, on, auto, choice.trans keptChoice,
      reference.trans keptReference, fun served j hj => ?_⟩
    rw [same.unit, taken, drain_units_of_served ?_ hj, updUnit_unit_ne _ _ _ _ hj]
    exact ((servedLaw_iff s).mp served).of (sameQueues_of_eq (by simp) (by simp) (by simp) (by simp))

end Sys2Proof.Machine
end
section
/-! PROOFS. START (R22), and a step's beginning and completion (R53, R54). -/

namespace Sys2Proof.Machine

/-- Two choices whose conditions say the same differ in their last branch alone. -/
theorem ite_of_iff {α : Type} {c d : Prop} [Decidable c] [Decidable d] {x y z : α} (h : c ↔ d) (e : y = z) :
    (if c then x else y) = if d then x else z := ite_congr (propext h) (fun _ => rfl) fun _ => e

/-! ### The named updates and the record -/

section
variable {k : Strand} {s : State} {r : RestartRecord} {q : Step}

theorem withRecord_pend (r : RestartRecord) (src : Source) (s : State) :
    withRecord k r (pend src s) = pend src (withRecord k r s) := by
  have may : src.mayPend (withRecord k r s) = src.mayPend s := by cases src <;> rfl
  unfold pend
  rw [may]
  split <;> rfl

theorem pend_pend (src : Source) (s : State) : pend src (pend src s) = pend src s := by
  cases h : src.mayPend s with
  | false => simp [pend, h]
  | true =>
    have again : src.mayPend { s with noticePending := s.noticePending.put src.number true } = true := by
      cases src <;> exact h
    simp [pend, h, again, put_put]

theorem modUnit_pend (f : UnitState → UnitState) (src : Source) (s : State) :
    modUnit k f (pend src s) = pend src (modUnit k f s) := by
  have may : src.mayPend (modUnit k f s) = src.mayPend s := by cases src <;> rfl
  unfold pend
  rw [may]
  split <;> rfl

/-- A unit's update, its notice with the record. -/
theorem updUnit_withRecord (r : RestartRecord) (f : UnitState → UnitState) (s : State) :
    withRecord k r (updUnit k f s) = if (f (s.unit k)).lockView = (s.unit k).lockView then withRecord k r (modUnit k f s)
      else pend (.lock k) (withRecord k r (modUnit k f s)) := by
  rw [updUnit, apply_ite (withRecord k r), withRecord_pend]

/-! ### The actions that only wait, and a slot request -/

theorem toPhase_begun (ph : Phase) : toPhase k ph none (withRecord k (r.begun q) s) = begunIn s k r q ph :=
  toPhase_withRecord _ _ _ _ _

theorem failStep_begun (f : StepFailure) : failStep k f (withRecord k (r.begun q) s) = begunFailed s k r q f :=
  failStep_withRecord _ _ _ _

theorem maskEmpty_missingLines (m : PermissiveMask) : maskEmpty (missingLines s k m) = true ↔
    (m.moldWater = true → (s.strandLines.look k).moldWaterOk.accepted = some true) ∧
      (m.dummyAtMold = true → (s.strandLines.look k).dummyAtMold.accepted = some true) ∧
      (m.hydOk = true → s.casterLines.hydOk.accepted = some true) ∧
      (m.driveReady = true → (s.strandLines.look k).driveReady.accepted = some true) := by
  simp [maskEmpty, missingLines, Line.isTrue, State.driveReady, and_assoc, Decidable.imp_iff_not_or]

theorem beginCheck_begins (m : PermissiveMask) : BeginsCheck s k r q m
    (beginCheck k m (withRecord k (r.begun q) s)).1 (beginCheck k m (withRecord k (r.begun q) s)).2 := by
  refine ⟨toPhase_begun _, ?_⟩
  rw [beginCheck]
  exact ite_of_iff (maskEmpty_missingLines m) rfl

theorem requestSlot_begins (p : PoolId) : BeginsRequest s k r q p
    (requestSlot p k (withRecord k (r.begun q) s)).1 (requestSlot p k (withRecord k (r.begun q) s)).2 := by
  have pool : (withRecord k (r.begun q) s).pool p = s.pool p := by cases p <;> rfl
  unfold BeginsRequest
  dsimp only
  rw [requestSlot, pool, toPhase_begun, failStep_begun]
  split
  · exact ⟨rfl, rfl⟩
  · have begunPool : (begunIn s k r q .slotWait).pool p = s.pool p := by cases p <;> rfl
    have class_ : classFor (begunIn s k r q .slotWait) k p = classFor s k p := by cases p <;> rfl
    refine ⟨?_, rfl⟩
    rw [joinWaits, modPool, begunPool, class_]
    cases h : classFor s k p <;> simp [insertEntry]

/-! ### LEVEL and DRAW -/

/-- The unit a LEVEL step begins with (R70, R108, R113). -/
def levelUnit (keep : Bool) (u : UnitState) : UnitState :=
  { u with
    levelOn := true
    controlMode := .auto
    lock := keep && u.lock
    inCount := if keep then u.inCount else 0
    outCount := if keep then u.outCount else 0
    stopper := match u.stopper with
      | .fill n => .fill n
      | .closed | .regulator => .regulator }

theorem levelUnit_eq (u : UnitState) :
    (u.setMode .auto).turnLevelOn = levelUnit (u.levelOn && u.controlMode == .auto) u := by
  rw [setMode_eq]
  unfold UnitState.turnLevelOn levelUnit
  cases on : u.levelOn <;> cases mode : u.controlMode <;>
    simp only [UnitState.clearLock] <;> rfl

theorem levelUnit_clearLock {keep : Bool} (u : UnitState) : levelUnit keep u.clearLock = levelUnit false u := by
  cases keep <;> rfl

/-- The LOCK notice follows LOCK and the mode (R113, R114). -/
theorem lockView_levelUnit (keep : Bool) (u : UnitState) : (levelUnit keep u).lockView = u.lockView ↔
    (levelUnit keep u).lock = u.lock ∧ u.controlMode = .auto := by
  constructor
  · intro h
    exact ⟨congrArg Prod.fst h, (congrArg (fun v => v.2.1) h).symm⟩
  · rintro ⟨lock, mode⟩
    have kept : (keep && u.lock) = u.lock := lock
    simp only [UnitState.lockView, UnitState.supervisor, mode, levelUnit, kept]

/-- LOCK cleared before a step's LEVEL-ON changes what is reported where the step does (R105, R113). -/
theorem lockView_clears (u : UnitState) : u.clearLock.lockView = u.lockView ∧ (levelUnit false u).lockView = u.clearLock.lockView ↔
    (levelUnit false u).lock = u.lock ∧ u.controlMode = .auto := by
  constructor
  · rintro ⟨lock, mode⟩
    exact ⟨congrArg Prod.fst lock, (congrArg (fun v => v.2.1) mode).symm⟩
  · rintro ⟨lock, mode⟩
    have same : (levelUnit false u).lockView = u.clearLock.lockView := (lockView_levelUnit false u.clearLock).mpr ⟨rfl, mode⟩
    exact ⟨same.symm.trans ((lockView_levelUnit false u).mpr ⟨lock, mode⟩), same⟩

/-- Two updates of one unit owe its notice where either changed what it reports. -/
theorem updUnit_updUnit (f g : UnitState → UnitState) : updUnit k g (updUnit k f s) =
    if (f (s.unit k)).lockView = (s.unit k).lockView ∧ (g (f (s.unit k))).lockView = (f (s.unit k)).lockView
    then modUnit k (fun u => g (f u)) s else pend (.lock k) (modUnit k (fun u => g (f u)) s) := by
  have twice : modUnit k g (updUnit k f s) = if (f (s.unit k)).lockView = (s.unit k).lockView
      then modUnit k (fun u => g (f u)) s else pend (.lock k) (modUnit k (fun u => g (f u)) s) := by
    rw [updUnit, apply_ite (modUnit k g), modUnit_pend, modUnit_modUnit]
  rw [updUnit, updUnit_unit_same, twice]
  by_cases hf : (f (s.unit k)).lockView = (s.unit k).lockView
  · rw [if_pos hf]
    by_cases hg : (g (f (s.unit k))).lockView = (f (s.unit k)).lockView
    · rw [if_pos hg, if_pos ⟨hf, hg⟩]
    · rw [if_neg hg, if_neg (fun h => hg h.2)]
  · rw [if_neg hf, if_neg (c := _ ∧ _) (fun h => hf h.1), pend_pend, ite_self]

/-- The set that a LEVEL step puts in force (R70, R105). -/
def levelIn (s : State) (k : Strand) : LevelSource → LevelParams
  | .plan p => p
  | .strand => s.levelSet k

/-- What a LEVEL step keeps of LOCK and its counts (R70, R113). -/
def keepsLock (src : LevelSource) (u : UnitState) : Bool := src == .strand && u.levelOn && u.controlMode == .auto

/-- The set and the unit that a LEVEL step begins with. -/
def leveled (k : Strand) (src : LevelSource) (s : State) : State :=
  { s with
    units := s.units.put k (levelUnit (keepsLock src (s.unit k)) (s.unit k))
    working := { s.working with levels := s.working.levels.put k (levelIn s k src) } }

theorem updUnit_level (src : LevelSource) : updUnit k (fun u => (u.setMode .auto).turnLevelOn) (writeSource k src s) =
    if (levelUnit (keepsLock src (s.unit k)) (s.unit k)).lock ≠ (s.unit k).lock ∨ (s.unit k).controlMode ≠ .auto
    then pend (.lock k) (leveled k src s) else leveled k src s := by
  rw [← ite_not]
  simp only [not_or, Classical.not_not]
  cases src with
  | strand =>
    have unchanged : leveled k .strand s = modUnit k (levelUnit (keepsLock .strand (s.unit k))) s := by
      simp only [leveled, modUnit, levelIn, State.levelSet, put_look]
    rw [unchanged, writeSource, updUnit]
    simp only [levelUnit_eq]
    exact ite_of_iff (lockView_levelUnit _ _) rfl
  | plan p =>
    have written : leveled k (.plan p) s = modUnit k (levelUnit false)
        { s with working := { s.working with levels := s.working.levels.put k p } } := rfl
    have forgets : keepsLock (.plan p) (s.unit k) = false := rfl
    rw [writeSource, writeLevelSet, forgets, written]
    dsimp only
    split
    · simp only [updUnit_updUnit, levelUnit_eq, levelUnit_clearLock]
      exact ite_of_iff (lockView_clears _) rfl
    · next off =>
      have own : (((s.unit k).setMode .auto).turnLevelOn) = levelUnit false (s.unit k) := by
        rw [levelUnit_eq, Bool.eq_false_iff.mpr off]
        rfl
      have unit : modUnit k (fun u => (u.setMode .auto).turnLevelOn)
          { s with working := { s.working with levels := s.working.levels.put k p } } =
            modUnit k (levelUnit false) { s with working := { s.working with levels := s.working.levels.put k p } } :=
        congrArg (fun u => ({ s with units := s.units.put k u, working := { s.working with levels := s.working.levels.put k p } } : State)) own
      rw [updUnit, unit]
      refine ite_of_iff ?_ rfl
      rw [show State.unit { s with working := { s.working with levels := s.working.levels.put k p } } k = s.unit k from rfl, own]
      exact lockView_levelUnit _ _

theorem updUnit_of_record (f : UnitState → UnitState) : updUnit k f (withRecord k r s) = withRecord k r (updUnit k f s) := by
  rw [updUnit_withRecord]
  rfl

theorem writeSource_of_record (src : LevelSource) : writeSource k src (withRecord k r s) = withRecord k r (writeSource k src s) := by
  cases src with
  | strand => rfl
  | plan p =>
    simp only [writeSource, writeLevelSet]
    rw [apply_ite (withRecord k r), ← updUnit_of_record]
    rfl

/-- Whether a LEVEL step's beginning is reported (R113). -/
abbrev LevelReports (k : Strand) (src : LevelSource) (s : State) : Prop :=
  (levelUnit (keepsLock src (s.unit k)) (s.unit k)).lock ≠ (s.unit k).lock ∨ (s.unit k).controlMode ≠ .auto

theorem beginLevel_of_record (src : LevelSource) : beginLevel k src (withRecord k (r.begun q) s) =
    if (levelIn s k src).lockBand = 0 then (begunFailed s k r q .lockDisabled, [])
    else (if LevelReports k src s then pend (.lock k) (begunIn (leveled k src s) k r q .locking)
        else begunIn (leveled k src s) k r q .locking,
      if (levelUnit (keepsLock src (s.unit k)) (s.unit k)).lock then [.completeStep k] else []) := by
  have band : bandInForce (withRecord k (r.begun q) s) k src = (levelIn s k src).lockBand := by cases src <;> rfl
  have own : (begunIn (leveled k src s) k r q .locking).unit k = levelUnit (keepsLock src (s.unit k)) (s.unit k) :=
    look_put_same _ _ _
  have unit : (if LevelReports k src s then pend (.lock k) (begunIn (leveled k src s) k r q .locking)
      else begunIn (leveled k src s) k r q .locking).unit k = levelUnit (keepsLock src (s.unit k)) (s.unit k) := by
    rw [apply_ite (State.unit · k), pend_unit, ite_self, own]
  rw [beginLevel, band, failStep_begun, writeSource_of_record, updUnit_of_record, toPhase_begun, updUnit_level, begunIn,
    apply_ite (withRecord k _), withRecord_pend, ← begunIn]
  dsimp only
  rw [unit]

theorem beginLevel_begins (src : LevelSource) : BeginsLevel s k r q src
    (beginLevel k src (withRecord k (r.begun q) s)).1 (beginLevel k src (withRecord k (r.begun q) s)).2 := by
  have said : ∀ t l, BeginsLevel s k r q src t l =
      if (levelIn s k src).lockBand = 0 then t = begunFailed s k r q .lockDisabled ∧ l = []
      else t = (if LevelReports k src s then pend (.lock k) (begunIn (leveled k src s) k r q .locking)
          else begunIn (leveled k src s) k r q .locking) ∧
        l = if (levelUnit (keepsLock src (s.unit k)) (s.unit k)).lock then [.completeStep k] else [] := fun t l => by
    cases src <;> rfl
  rw [said, beginLevel_of_record]
  by_cases off : (levelIn s k src).lockBand = 0
  · rw [if_pos off, if_pos off]
    exact ⟨rfl, rfl⟩
  · rw [if_neg off, if_neg off]
    exact ⟨rfl, rfl⟩

theorem beginDraw_begins (start target rate : Nat) : BeginsDraw s k r q start target rate
    (beginDraw k start target rate (withRecord k (r.begun q) s)).1 (beginDraw k start target rate (withRecord k (r.begun q) s)).2 := by
  have ramps : ∀ f : UnitState → UnitState, (f (s.unit k)).lockView = (s.unit k).lockView →
      toPhase k .ramping none (updUnit k f (withRecord k (r.begun q) s)) = begunIn (modUnit k f s) k r q .ramping := fun f hf => by
    rw [updUnit_of_record, toPhase_begun, updUnit_quiet k f s hf]
  have tasks : ∀ f : UnitState → UnitState, rampTasks k target (begunIn (modUnit k f s) k r q .ramping) =
      if (f (s.unit k)).setpoint = target then [.completeStep k] else [] := fun f => by
    rw [rampTasks, show (begunIn (modUnit k f s) k r q .ramping).unit k = f (s.unit k) from look_put_same _ _ _]
  have unit : (withRecord k (r.begun q) s).unit k = s.unit k := rfl
  have level : (withRecord k (r.begun q) s).levelSet k = s.levelSet k := rfl
  unfold BeginsDraw beginDraw
  rw [unit, level, failStep_begun, ramps _ rfl, ramps _ rfl]
  dsimp only
  rw [tasks, tasks]
  by_cases draw : (s.unit k).draw = true
  · simp only [draw, if_true, true_or]
    exact ⟨congrArg (fun u => begunIn { s with units := s.units.put k u } k r q .ramping) (by rw [UnitState.giveRamp, draw]), rfl⟩
  · have allowed : drawAllowed (s.levelSet k) (s.unit k) = true ↔
        (s.unit k).levelOn = true ∧ (s.levelSet k).lockBand ≠ 0 := by simp [drawAllowed]
    simp only [draw, Bool.false_eq_true, if_false, false_or]
    by_cases may : drawAllowed (s.levelSet k) (s.unit k) = true
    · rw [if_pos may, if_pos (allowed.mp may)]
      exact ⟨rfl, rfl⟩
    · rw [if_neg may, if_neg (mt allowed.mpr may)]
      exact ⟨rfl, rfl⟩

theorem beginStep_begins (hr : s.record? k = some r) (hq : r.step? = some q) :
    BeginsAs s k r q (beginStep k s).1 (beginStep k s).2 := by
  have begun : beginStep k s = beginAction k q.action (withRecord k (r.begun q) s) := by
    simp only [beginStep, hr, Option.bind_some, hq]
    rw [loadStep_of_record k q r s hr]
  rw [begun, BeginsAs]
  cases q.action with
  | check m => exact beginCheck_begins m
  | cool z =>
    refine ⟨?_, rfl⟩
    rw [beginAction, beginCool, updUnit_of_record, updUnit_quiet _ _ _ rfl]
    rfl
  | drive => exact requestSlot_begins .drive
  | opening => exact requestSlot_begins .pour
  | level src => exact beginLevel_begins src
  | wait => exact ⟨toPhase_begun _, rfl⟩
  | draw a b c => exact beginDraw_begins a b c
  | handover => exact ⟨toPhase_begun _, rfl⟩

end

end Sys2Proof.Machine
end
section
/-! PROOFS. START (R22). -/

namespace Sys2Proof.Machine

section
variable {s : State} {k : Strand} {r : RestartRecord} {n : Fin 32} {p : Plan}

/-- START's checks (R22), the plan lookup the last of them. -/
def coldChecks (k : Strand) (s : State) : List (Bool × ReplyCode) :=
  startChecks k s ++ [((lookupPlan s.working k .cold).isNone, .noPlan)]

theorem startCold_eq : startCold k s = checked (fun s => [((lookupPlan s.working k .cold).isNone, .noPlan)]) (startCold k) s := by
  cases h : lookupPlan s.working k .cold with
  | none => rw [checked_one_fails (by rw [h]; rfl), startCold, h]
  | some x => rw [checked_one_passes (by rw [h]; rfl)]

theorem handleStart_eq (hk : s.inService k = true) : handleStart (nameByte k) s = checked (coldChecks k) (startCold k) s := by
  rw [handleStart, namingInService_name k _ s hk]
  exact (congrArg (fun h => checked (startChecks k) h s) (funext fun _ => startCold_eq)).trans (checked_checked _ _ _ _)

theorem startCold_some (h : lookupPlan s.working k .cold = some (n, p)) :
    startCold k s = accept (enterRestarting k .cold n p) s := by
  rw [startCold, h]

theorem codeOf_coldChecks : codeOf (coldChecks k s) =
    if (s.strand k).check = .pending then 0x01 else if s.trip.latched = true then 0x0B
    else if (s.strand k).condition ≠ .dry then 0x04 else if s.faults.look k ≠ none then 0x08
    else if (s.pour.excluded.look k || s.drive.excluded.look k) = true then 0x0D
    else if lookupPlan s.working k .cold = none then 0x09 else 0x00 := by
  simp only [codeOf, coldChecks, startChecks, List.cons_append, List.nil_append, beq_iff_eq, bne_iff_ne,
    Option.isSome_iff_ne_none, Option.isNone_iff_eq_none]
  rfl

theorem coldChecks_codes : ∀ x ∈ coldChecks k s, x.2 ≠ .ok := by simp [coldChecks, startChecks]

theorem coldChecks_pass (h : firstFailure (coldChecks k s) = none) : s.faults.look k = none := by
  have valid := (firstFailure_none_iff _).mp h ((s.faults.look k).isSome, .faultPending) (by simp [coldChecks, startChecks])
  exact Option.not_isSome_iff_eq_none.mp (Bool.eq_false_iff.mp valid)

/-- A first CHECK that lacks a line waits (R49, R53, R58). -/
theorem drain_check_waits {m : PermissiveMask} {time : Nat} (hr : s.record? k = some r)
    (hq : r.step? = some ⟨.check m, time⟩) (hm : maskEmpty (missingLines s k m) = false) :
    drain [.enterStep k] s = begunIn s k r ⟨.check m, time⟩ .waiting := by
  refine drain_last ?_
  have begun : beginStep k s = beginCheck k m (withRecord k (r.begun ⟨.check m, time⟩) s) := by
    simp only [beginStep, hr, Option.bind_some, hq]
    rw [loadStep_of_record k _ r s hr]
    rfl
  have lacks : maskEmpty (missingLines (withRecord k (r.begun ⟨.check m, time⟩) s) k m) = false := hm
  rw [runTask, begun, beginCheck, toPhase_begun, if_neg (Bool.eq_false_iff.mp lacks)]

end

/-- Settles O22: START's checks in their order and the restart they let through; then a step's beginning, by its action, and
its completion. -/
theorem startBeginsRestart : Obligations.StartBeginsRestart := by
  intro tag k n p r q s
  refine ⟨fun hq hk => ?_, fun hr => ⟨beginStep_begins hr, ?_⟩⟩
  · dsimp only
    rw [← codeOf_coldChecks]
    have configured := isConfigured_of_inService k s hk
    refine ⟨fun hc => request_fails tag 0x07 hq (handleStart_eq hk) hc, fun hc found => ?_⟩
    have passes := firstFailure_of_codeOf_zero coldChecks_codes hc
    obtain ⟨t, reached, answered, -, sent⟩ := request_acts tag 0x07 (.of_command (.start tag (nameByte k)) rfl) _ s hq
      ((handleStart_eq hk).trans ((checked_passes _ _ _ passes).trans (startCold_some found)))
    obtain ⟨-, carried, -, -, -, coordinator, -⟩ := drain_carried [.enterStep k] (begunRestart k .cold n p s)
    obtain ⟨steel, -, -, -, timer⟩ := enterRestarting_context (s := s) (k := k) .cold n p
    obtain ⟨r, record, serial, kind, number, snapshot, index⟩ := enterRestarting_record (s := s) (k := k) .cold n p
    have owed : (enterRestarting k .cold n p s).noticePending.look (Source.state k).number = true :=
      drain_owed _ _ _ (pend_look (.state k) _ configured)
    refine ⟨t, reached, answered, sent.1.localTo (enterRestarting_at k .cold n p s).local,
      sent.1.coordinator.trans (coordinator.trans (pend_coordinator _ _)), sent.2 _ (.inl owed), ?_, ?_, ?_,
      ⟨r, ?_, serial, kind, number, snapshot, index, fun m time first lacks => ?_, ?_⟩⟩
    · rw [sent.1.strand, timer]
    · rw [sent.1.strand, steel]
    · rw [sent.1.faults, enterRestarting_faults, coldChecks_pass passes]
    · rw [sent.1.record, record]
    · have waits := drain_check_waits (begunRestart_record (s := s) (k := k) .cold n p) first ((congrArg maskEmpty
        (missingLines_of_lines (pend_strandLines _ _) (pend_casterLines _ _) m)).trans lacks)
      rw [enterRestarting_eq, waits] at sent record
      cases (record?_withRecord k _ _).symm.trans record
      exact ⟨rfl, rfl, rfl, sent.1.units.trans (pend_units _ _)⟩
    · exact sent.1
  · split
    · next hi => exact finishStep_next hr hi
    · next hi =>
      simp only [finishStep, hr, if_neg hi, stopStep_of_record hr]
      rfl

end Sys2Proof.Machine
end
section
/-! PROOFS. The validation of a plan record (R28 to R33). -/

namespace Sys2Proof.Machine

/-! ### Increasing lists of step indices -/

/-- The least member of an increasing list stands first. -/
theorem head_of_increasing {l : List Nat} {a : Nat} (hl : l.Pairwise (· < ·)) (ha : a ∈ l) (least : ∀ b ∈ l, a ≤ b) :
    ∃ rest, l = a :: rest ∧ rest.Pairwise (· < ·) ∧ ∀ b, b ∈ rest ↔ b ∈ l ∧ a < b := by
  cases l with
  | nil => cases ha
  | cons x rest =>
    obtain ⟨above, increasing⟩ := List.pairwise_cons.mp hl
    have first : x = a := by
      rcases List.mem_cons.mp ha with h | h
      · exact h.symm
      · exact absurd (least x List.mem_cons_self) (Nat.not_le.mpr (above a h))
    subst first
    refine ⟨rest, rfl, increasing, fun b => ⟨fun h => ⟨List.mem_cons_of_mem _ h, above b h⟩, fun ⟨h, larger⟩ => ?_⟩⟩
    rcases List.mem_cons.mp h with h | h
    · omega
    · exact h

theorem eq_singleton_of_increasing {l : List Nat} {a : Nat} (hl : l.Pairwise (· < ·)) (h : ∀ b, b ∈ l ↔ b = a) : l = [a] := by
  obtain ⟨rest, rfl, -, members⟩ := head_of_increasing hl ((h a).mpr rfl) fun b hb => Nat.le_of_eq ((h b).mp hb).symm
  refine congrArg (a :: ·) (List.eq_nil_iff_forall_not_mem.mpr fun b hb => ?_)
  obtain ⟨hb, larger⟩ := (members b).mp hb
  exact absurd ((h b).mp hb) (Nat.ne_of_gt larger)

/-- The index, from 1, of the step at `i` where its action satisfies `q`. -/
def indexAt (q : Action → Bool) (steps : List Step) (i : Nat) : Option Nat :=
  match steps[i]? with
  | some x => if q x.action then some (i + 1) else none
  | none => none

theorem indicesOf_eq (q : Action → Bool) (steps : List Step) :
    indicesOf q steps = (List.range steps.length).filterMap (indexAt q steps) := rfl

theorem indexAt_eq_some {q : Action → Bool} {p : Plan} {i j : Nat} :
    indexAt q p.steps i = some j ↔ j = i + 1 ∧ actionAt p i q = true := by
  unfold indexAt actionAt
  cases p.steps[i]? with
  | none => simp
  | some x =>
    dsimp only
    rw [Option.ite_none_right_eq_some, Option.some.injEq]
    exact ⟨fun ⟨h, e⟩ => ⟨e.symm, h⟩, fun ⟨e, h⟩ => ⟨h, e.symm⟩⟩

/-- The indices of a plan's steps increase. -/
theorem indicesOf_increasing (q : Action → Bool) (p : Plan) : (indicesOf q p.steps).Pairwise (· < ·) := by
  rw [indicesOf_eq, List.pairwise_filterMap]
  refine List.pairwise_lt_range.imp fun {a b} hab x hx y hy => ?_
  obtain ⟨rfl, -⟩ := indexAt_eq_some.mp hx
  obtain ⟨rfl, -⟩ := indexAt_eq_some.mp hy
  exact Nat.succ_lt_succ hab

theorem mem_indicesOf {q : Action → Bool} {p : Plan} {j : Nat} :
    j ∈ indicesOf q p.steps ↔ ∃ i, j = i + 1 ∧ actionAt p i q = true := by
  rw [indicesOf_eq, List.mem_filterMap]
  constructor
  · rintro ⟨i, -, h⟩
    exact ⟨i, indexAt_eq_some.mp h⟩
  · rintro ⟨i, h⟩
    refine ⟨i, List.mem_range.mpr ?_, indexAt_eq_some.mpr h⟩
    refine Classical.byContradiction fun beyond => ?_
    exact absurd ((actionAt_beyond p i q (Nat.not_lt.mp beyond)).symm.trans h.2) nofun

theorem succ_mem_indicesOf {q : Action → Bool} {p : Plan} {i : Nat} : i + 1 ∈ indicesOf q p.steps ↔ actionAt p i q = true := by
  rw [mem_indicesOf]
  exact ⟨fun ⟨j, e, h⟩ => by cases e; exact h, fun h => ⟨i, rfl, h⟩⟩

theorem forall_indicesOf {q : Action → Bool} {p : Plan} {P : Nat → Prop} :
    (∀ j ∈ indicesOf q p.steps, P j) ↔ ∀ i, actionAt p i q = true → P (i + 1) := by
  refine ⟨fun h i hi => h _ (succ_mem_indicesOf.mpr hi), fun h j hj => ?_⟩
  obtain ⟨i, rfl, hi⟩ := mem_indicesOf.mp hj
  exact h i hi

section
variable {q : Action → Bool} {p : Plan} {o n : Nat}

theorem indicesOf_eq_nil : indicesOf q p.steps = [] ↔ ∀ i, actionAt p i q = false := by
  rw [List.eq_nil_iff_forall_not_mem]
  refine forall_indicesOf (P := fun _ => False).trans ?_
  exact forall_congr' fun i => by rw [← Bool.not_eq_true]

theorem indicesOf_eq_singleton : indicesOf q p.steps = [o + 1] ↔
    actionAt p o q = true ∧ ∀ i, actionAt p i q = true → i = o := by
  constructor
  · intro h
    refine ⟨succ_mem_indicesOf.mp (by rw [h]; exact List.mem_singleton_self _), fun i hi => ?_⟩
    have := succ_mem_indicesOf.mpr hi
    rw [h, List.mem_singleton] at this
    omega
  · rintro ⟨found, only⟩
    refine eq_singleton_of_increasing (indicesOf_increasing q p) fun b => ⟨fun hb => ?_, fun hb => ?_⟩
    · exact (forall_indicesOf (P := fun j => j = o + 1)).mpr (fun i hi => by rw [only i hi]) b hb
    · rw [hb]; exact succ_mem_indicesOf.mpr found

/-- The first step that satisfies `q` gives the first index. -/
theorem indicesOf_first (found : actionAt p o q = true) (first : ∀ i, i < o → actionAt p i q = false) :
    ∃ rest, indicesOf q p.steps = (o + 1) :: rest ∧ rest.Pairwise (· < ·) ∧
      ∀ i, i + 1 ∈ rest ↔ actionAt p i q = true ∧ o < i := by
  have least : ∀ j ∈ indicesOf q p.steps, o + 1 ≤ j := forall_indicesOf.mpr fun i hi => by
    refine Classical.byContradiction fun before => ?_
    exact absurd ((first i (by omega)).symm.trans hi) nofun
  obtain ⟨rest, eq, increasing, members⟩ :=
    head_of_increasing (indicesOf_increasing q p) (succ_mem_indicesOf.mpr found) least
  exact ⟨rest, eq, increasing, fun i => by rw [members, succ_mem_indicesOf, Nat.add_lt_add_iff_right]⟩

/-- The second step that satisfies `q` gives the second index. -/
theorem indicesOf_second (found : actionAt p o q = true) (first : ∀ i, i < o → actionAt p i q = false)
    (later : o < n) (again : actionAt p n q = true) (between : ∀ i, o < i → i < n → actionAt p i q = false) :
    ∃ rest, indicesOf q p.steps = (o + 1) :: (n + 1) :: rest := by
  obtain ⟨rest, eq, increasing, members⟩ := indicesOf_first found first
  have least : ∀ b ∈ rest, n + 1 ≤ b := fun b hb => by
    obtain ⟨i, rfl, -⟩ := mem_indicesOf.mp (show b ∈ indicesOf q p.steps by rw [eq]; exact List.mem_cons_of_mem _ hb)
    obtain ⟨hi, above⟩ := (members i).mp hb
    refine Classical.byContradiction fun before => ?_
    exact absurd ((between i above (by omega)).symm.trans hi) nofun
  obtain ⟨rest', rfl, -⟩ := head_of_increasing increasing ((members n).mpr ⟨again, later⟩) least
  exact ⟨rest', eq⟩

theorem anyBefore_indicesOf : anyBefore (o + 1) (indicesOf q p.steps) = true ↔ ∃ i, i < o ∧ actionAt p i q = true := by
  simp only [anyBefore, List.any_eq_true, decide_eq_true_eq]
  constructor
  · rintro ⟨j, hj, before⟩
    obtain ⟨i, rfl, hi⟩ := mem_indicesOf.mp hj
    exact ⟨i, by omega, hi⟩
  · rintro ⟨i, before, hi⟩
    exact ⟨i + 1, succ_mem_indicesOf.mpr hi, by omega⟩

end

end Sys2Proof.Machine
end
section
/-! PROOFS. What a plan record is refused for, and what an accepted plan holds (R28 to R33). -/

namespace Sys2Proof.Machine

/-! ### The structural checks -/

section
variable {kind : RestartKind} {p : Plan} {n : Nat}

/-- One step of a plan, of index `o`, satisfies `q`. -/
def Only (p : Plan) (q : Action → Bool) (o : Nat) : Prop := actionAt p o q = true ∧ ∀ i, i ≠ o → actionAt p i q = false

/-- A DRAW step stands past the step that follows OPEN (R33). -/
def Drawn (p : Plan) (o : Nat) : Prop := ∃ d, o + 1 < d ∧ actionAt p d isDrawAction = true

theorem Only.index {q : Action → Bool} {o : Nat} (h : Only p q o) : indicesOf q p.steps = [o + 1] := by
  obtain ⟨found, others⟩ := h
  refine indicesOf_eq_singleton.mpr ⟨found, fun i hi => ?_⟩
  refine Classical.byContradiction fun other => ?_
  exact absurd ((others i other).symm.trans hi) nofun

theorem lt_length_of_actionAt {q : Action → Bool} {i : Nat} (h : actionAt p i q = true) : i < p.steps.length := by
  refine Classical.byContradiction fun beyond => ?_
  exact absurd ((actionAt_beyond p i q (Nat.not_lt.mp beyond)).symm.trans h) nofun

theorem drawn_iff : (indicesOf isDrawAction p.steps).all (· ≤ n + 1 + 1) = false ↔ Drawn p n := by
  rw [← Bool.not_eq_true, List.all_eq_true]
  simp only [decide_eq_true_eq]
  rw [forall_indicesOf (P := fun j => j ≤ n + 1 + 1)]
  simp only [Drawn, Classical.not_forall]
  exact exists_congr fun i => by
    constructor
    · rintro ⟨hi, late⟩; exact ⟨by omega, hi⟩
    · rintro ⟨late, hi⟩; exact ⟨hi, by omega⟩

/-- The first of the steps that satisfy `q`. -/
theorem first_actionAt {q : Action → Bool} (h : ∃ i, actionAt p i q = true) :
    ∃ i, actionAt p i q = true ∧ ∀ j, j < i → actionAt p j q = false := by
  obtain ⟨i, found⟩ := h
  induction i using Nat.strongRecOn with
  | _ i ih =>
    by_cases earlier : ∃ j, j < i ∧ actionAt p j q = true
    · obtain ⟨j, before, first⟩ := earlier
      exact ih j before first
    · exact ⟨i, found, fun j before => Bool.eq_false_iff.mpr fun first => earlier ⟨j, before, first⟩⟩

theorem structureFault_unopened (h : ∀ i, actionAt p i isOpenAction = false) :
    structureFault kind p.steps = some (0, .openCount) := by
  simp only [structureFault, indicesOf_eq_nil.mpr h]

theorem structureFault_opens {a b : Nat} {rest : List Nat} (h : indicesOf isOpenAction p.steps = a :: b :: rest) :
    structureFault kind p.steps = some (b, .openCount) := by
  simp only [structureFault, h]

/-- The checks past those of the steps that OPEN asks for, OPEN the step of index `o` (R33). -/
def endFault (kind : RestartKind) (p : Plan) (o : Nat) : Option (Nat × PlanFault) :=
  match indicesOf isHandoverAction p.steps with
  | [] => some (p.steps.length, .handover)
  | h :: hs =>
    match (h :: hs).find? (· ≠ p.steps.length) with
    | some h => some (h, .handover)
    | none =>
      if kind = .dip ∧ anyBefore (o + 1) (indicesOf isDriveAction p.steps) = false then some (o + 1, .dipDrive)
      else if kind = .cold ∧ anyBefore (o + 1) (indicesOf checksDummy p.steps) = false then some (o + 1, .coldCheck)
      else none

theorem structureFault_opened (h : Only p isOpenAction n) : structureFault kind p.steps =
    if n + 1 = p.steps.length then some (n + 1, .levelAfterOpen)
    else if actionAt p (n + 1) isLevelAction = false then some (n + 2, .levelAfterOpen)
    else if (indicesOf isDrawAction p.steps).all (· ≤ n + 1 + 1) then some (n + 2, .noDraw)
    else endFault kind p n := by
  simp only [structureFault, h.index]
  have unlevelled : n + 1 + 1 ∉ indicesOf isLevelAction p.steps ↔ actionAt p (n + 1) isLevelAction = false := by
    rw [succ_mem_indicesOf, Bool.not_eq_true]
  refine ite_of_iff Iff.rfl (ite_of_iff unlevelled (ite_of_iff Iff.rfl ?_))
  unfold endFault
  cases indicesOf isHandoverAction p.steps <;> rfl

theorem endFault_unended {o : Nat} (h : ∀ i, actionAt p i isHandoverAction = false) :
    endFault kind p o = some (p.steps.length, .handover) := by
  simp only [endFault, indicesOf_eq_nil.mpr h]

theorem endFault_early {o i : Nat} (found : actionAt p i isHandoverAction = true)
    (first : ∀ j, j < i → actionAt p j isHandoverAction = false) (early : i + 1 < p.steps.length) :
    endFault kind p o = some (i + 1, .handover) := by
  obtain ⟨rest, eq, -⟩ := indicesOf_first found first
  simp only [endFault, eq, List.find?_cons, decide_eq_true (Nat.ne_of_lt early)]

theorem endFault_ended {o : Nat} (h : Only p isHandoverAction (p.steps.length - 1)) : endFault kind p o =
    if kind = .dip ∧ (∀ i, i < o → actionAt p i isDriveAction = false) then some (o + 1, .dipDrive)
    else if kind = .cold ∧ (∀ i, i < o → actionAt p i checksDummy = false) then some (o + 1, .coldCheck) else none := by
  have last : p.steps.length - 1 + 1 = p.steps.length := by have := lt_length_of_actionAt h.1; omega
  have none_before : ∀ q, anyBefore (o + 1) (indicesOf q p.steps) = false ↔ ∀ i, i < o → actionAt p i q = false := fun q => by
    rw [← Bool.not_eq_true, anyBefore_indicesOf]
    simp only [not_exists, not_and, Bool.not_eq_true]
  have none_other : [p.steps.length].find? (fun i => decide (i ≠ p.steps.length)) = none := by simp
  rw [endFault, h.index, last]
  simp only [none_other]
  exact ite_of_iff (and_congr Iff.rfl (none_before _)) (ite_of_iff (and_congr Iff.rfl (none_before _)) rfl)

/-- HANDOVER alone ends a plan whose structure passes (R33). -/
theorem endFault_none {o : Nat} (h : endFault kind p o = none) : Only p isHandoverAction (p.steps.length - 1) := by
  by_cases unended : ∀ i, actionAt p i isHandoverAction = false
  · rw [endFault_unended unended] at h
    cases h
  · have ended : ∃ i, actionAt p i isHandoverAction = true := by
      obtain ⟨i, found⟩ := Classical.not_forall.mp unended
      exact ⟨i, Bool.not_eq_false _ ▸ found⟩
    obtain ⟨i, found, first⟩ := first_actionAt ended
    have within := lt_length_of_actionAt found
    have last : i = p.steps.length - 1 := by
      refine Classical.byContradiction fun other => ?_
      rw [endFault_early found first (by omega)] at h
      cases h
    subst last
    refine ⟨found, fun j hj => ?_⟩
    rcases Nat.lt_or_ge j (p.steps.length - 1) with before | after
    · exact first j before
    · exact actionAt_beyond p j _ (by omega)

/-- A plan whose structure passes (R33). -/
theorem structureFault_none (h : structureFault kind p.steps = none) : ∃ o, Only p isOpenAction o ∧
    actionAt p (o + 1) isLevelAction = true ∧ Drawn p o ∧ endFault kind p o = none := by
  rcases hi : indicesOf isOpenAction p.steps with _ | ⟨a, _ | ⟨b, rest⟩⟩
  · rw [structureFault_unopened (indicesOf_eq_nil.mp hi)] at h
    cases h
  · obtain ⟨o, rfl, -⟩ := mem_indicesOf.mp (show a ∈ indicesOf isOpenAction p.steps by rw [hi]; exact List.mem_singleton_self _)
    obtain ⟨found, only⟩ := indicesOf_eq_singleton.mp hi
    have opened : Only p isOpenAction o :=
      ⟨found, fun i other => Bool.eq_false_iff.mpr fun hi => other (only i hi)⟩
    rw [structureFault_opened opened] at h
    split at h
    · cases h
    · split at h
      · cases h
      · next level =>
        split at h
        · cases h
        · next drawn =>
          exact ⟨o, opened, Bool.not_eq_false _ ▸ level, drawn_iff.mp (Bool.eq_false_iff.mpr drawn), h⟩
  · rw [structureFault_opens hi] at h
    cases h

/-! ### The record's own checks -/

section
variable {raw : RawPlan} {r : RawStep}

theorem nameInRange_iff (l : List Byte) : nameInRange l = true ↔
    1 ≤ l.length ∧ l.length ≤ 12 ∧ ∀ c ∈ l, 0x20 ≤ c.toNat ∧ c.toNat ≤ 0x7E := by
  simp [nameInRange, and_assoc]

theorem readKind_none {b : Byte} (h : b = 0 ∨ 3 < b.toNat) : readKind b = none := by
  have other : ∀ c : Byte, 0 < c.toNat → c.toNat ≤ 3 → b ≠ c := fun c low high e => by
    subst e
    rcases h with rfl | h
    · exact absurd low (by decide)
    · omega
  rw [readKind, if_neg (other 1 (by decide) (by decide)), if_neg (other 2 (by decide) (by decide)),
    if_neg (other 3 (by decide) (by decide))]

theorem readPlan_unnamed (h : nameInRange raw.name = false) : readPlan raw = .error (0, .name) := if_pos h

theorem readPlan_unkind (hn : nameInRange raw.name = true) (h : readKind raw.kind = none) :
    readPlan raw = .error (0, .kind) := by
  simp [readPlan, hn, h]

section
variable {kind : RestartKind} (hn : nameInRange raw.name = true) (hk : readKind raw.kind = some kind)
include hn hk

theorem readPlan_uncounted (h : ¬ (1 ≤ raw.steps.length ∧ raw.steps.length ≤ 24)) : readPlan raw = .error (0, .stepCount) := by
  have out : raw.steps.length = 0 ∨ 24 < raw.steps.length := by omega
  simp only [readPlan, hn, hk, if_pos out, Bool.true_eq_false, if_false]

variable (hc : 1 ≤ raw.steps.length ∧ raw.steps.length ≤ 24)
include hc

theorem readPlan_unread {e : Nat × PlanFault} (h : readSteps 1 raw.steps = .error e) : readPlan raw = .error e := by
  have within : ¬ (raw.steps.length = 0 ∨ 24 < raw.steps.length) := by omega
  simp only [readPlan, hn, hk, if_neg within, Bool.true_eq_false, if_false, h]

theorem readPlan_unsound {steps : List Step} {e : Nat × PlanFault} (h : readSteps 1 raw.steps = .ok steps)
    (hs : structureFault kind steps = some e) : readPlan raw = .error e := by
  have within : ¬ (raw.steps.length = 0 ∨ 24 < raw.steps.length) := by omega
  simp only [readPlan, hn, hk, if_neg within, Bool.true_eq_false, if_false, h, hs]

end

/-- What an accepted record has passed (R28 to R33). -/
theorem readPlan_ok {p : Plan} (h : readPlan raw = .ok p) :
    p.name = raw.name ∧ readSteps 1 raw.steps = .ok p.steps ∧ structureFault p.kind p.steps = none := by
  unfold readPlan at h
  split at h
  · cases h
  · split at h
    · cases h
    · split at h
      · cases h
      · split at h
        · cases h
        · next steps hs =>
          split at h
          · cases h
          · next passes => cases h; exact ⟨rfl, hs, passes⟩

/-! ### A step record's checks -/

theorem readAction_unknown (h : ¬ (1 ≤ r.action.toNat ∧ r.action.toNat ≤ 8)) : readAction r = .error .action := by
  unfold readAction
  dsimp only
  split
  case h_9 => rfl
  all_goals exact absurd h (by omega)

theorem readAction_known (h : 1 ≤ r.action.toNat ∧ r.action.toNat ≤ 8) {f : PlanFault} (hf : readAction r = .error f) :
    f = .param := by
  have ranged : ∀ {a : Action}, (if actionInRange a then Except.ok a else Except.error PlanFault.param) = .error f → f = .param :=
    fun h => by
      split at h
      · cases h
      · cases h; rfl
  unfold readAction at hf
  dsimp only at hf
  split at hf
  · split at hf
    · exact ranged hf
    · cases hf; rfl
  · exact ranged hf
  · cases hf
  · exact ranged hf
  · split at hf
    · exact ranged hf
    · split at hf
      · split at hf
        · cases hf
        · cases hf; rfl
      · cases hf; rfl
  · cases hf
  · exact ranged hf
  · cases hf
  · grind

theorem timeInRange_iff (t : Nat) : timeInRange t = true ↔ 1 ≤ t ∧ t ≤ 36000 := by simp [timeInRange]

theorem readStep_untimed (h : 1 ≤ r.action.toNat ∧ r.action.toNat ≤ 8) (ht : ¬ (1 ≤ r.time.toNat ∧ r.time.toNat ≤ 36000)) :
    readStep r = .error .time := by
  have untimed : timeInRange r.time.toNat = false := Bool.eq_false_iff.mpr (mt (timeInRange_iff _).mp ht)
  cases ha : readAction r with
  | error f =>
    rw [readStep_error r f ha, readAction_known h ha, untimed]
    rfl
  | ok a => simp [readStep, ha, untimed]

end

end

end Sys2Proof.Machine
end
section
/-! PROOFS. An accepted plan, and the reasons of a refusal (R28 to R33). -/

namespace Sys2Proof.Machine

section
variable {kind : RestartKind} {p : Plan} {o : Nat}

/-- What the last checks ask of a plan of kind DIP and of one of kind COLD (R33). -/
theorem endFault_none_kinds (h : endFault kind p o = none) :
    (kind = .dip → ∃ i, i < o ∧ actionAt p i isDriveAction = true) ∧
      (kind = .cold → ∃ i, i < o ∧ actionAt p i checksDummy = true) := by
  have found : ∀ q, ¬ (∀ i, i < o → actionAt p i q = false) → ∃ i, i < o ∧ actionAt p i q = true := fun q h => by
    simpa only [Classical.not_forall, Bool.not_eq_false, exists_prop] using h
  rw [endFault_ended (endFault_none h)] at h
  split at h
  · cases h
  · next drive =>
    split at h
    · cases h
    · next dummy => exact ⟨fun hk => found _ fun lacks => drive ⟨hk, lacks⟩, fun hk => found _ fun lacks => dummy ⟨hk, lacks⟩⟩

/-- The checks that a plan with one OPEN step and a LEVEL step after it comes to (R33). -/
theorem structureFault_levelled (h : Only p isOpenAction o) (level : actionAt p (o + 1) isLevelAction = true) :
    (¬ Drawn p o → structureFault kind p.steps = some (o + 2, .noDraw)) ∧
      (Drawn p o → structureFault kind p.steps = endFault kind p o) := by
  have notLast : ¬ o + 1 = p.steps.length := Nat.ne_of_lt (lt_length_of_actionAt level)
  have levelled : ¬ actionAt p (o + 1) isLevelAction = false := by rw [level]; nofun
  rw [structureFault_opened h, if_neg notLast, if_neg levelled]
  exact ⟨fun undrawn => if_pos (Bool.not_eq_false _ ▸ mt drawn_iff.mp undrawn), fun drawn =>
    if_neg (Bool.eq_false_iff.mp (drawn_iff.mpr drawn))⟩

end

/-- Settles O14: an accepted plan has passed every check; and each check that fails first gives its reason and its step. -/
theorem acceptedPlanIsSound : Obligations.AcceptedPlanIsSound := by
  intro raw p kind r n
  refine ⟨fun h => ?_, ?_⟩
  · obtain ⟨name, steps, passes⟩ := readPlan_ok h
    obtain ⟨o, ⟨opened, onlyOpen⟩, level, drawn, ends⟩ := structureFault_none passes
    obtain ⟨ended, onlyEnd⟩ := endFault_none ends
    obtain ⟨dip, cold⟩ := endFault_none_kinds ends
    have unique : ∀ {q : Action → Bool} {o : Nat}, (∀ i, i ≠ o → actionAt p i q = false) →
        ∀ i, actionAt p i q = true → i = o := fun only i hi => by
      refine Classical.byContradiction fun other => ?_
      exact absurd ((only i other).symm.trans hi) nofun
    exact ⟨readPlan_inRange h, name, (readSteps_inRange steps).2, o, opened, unique onlyOpen, level, drawn, ended,
      unique onlyEnd, dip, cold⟩
  · dsimp only
    rw [← nameInRange_iff]
    refine ⟨fun hn => readPlan_unnamed (Bool.eq_false_iff.mpr hn), fun hn hk => readPlan_unkind hn (readKind_none hk),
      fun hn hk hc => readPlan_uncounted hn hk hc, fun hn hk hc before hr => ?_, fun hn hk hc steps => ?_⟩
    · have fails : ∀ f, readStep r = .error f → readPlan raw = .error (n + 1, f) := fun f hf => by
        rw [Nat.add_comm]
        exact readPlan_unread hn hk hc (readSteps_first f raw.steps 1 n r before hr hf)
      refine ⟨fun unknown => fails _ ?_, fun known untimed => fails _ (readStep_untimed known untimed),
        fun known timed ⟨f, hf⟩ => fails _ ?_⟩
      · rw [readStep_error r .action (readAction_unknown unknown)]
        rfl
      · rw [readStep_error r f hf, readAction_known known hf, (timeInRange_iff _).mpr timed]
        rfl
    · have fails : ∀ {e}, structureFault kind p.steps = some e → readPlan raw = .error e := fun he =>
        readPlan_unsound hn hk hc steps he
      refine ⟨fun unopened => fails (structureFault_unopened unopened), fun o ⟨found, first⟩ later again between => ?_,
        fun opened => ⟨fun last => ?_, fun early unlevelled => ?_, fun level => ?_⟩⟩
      · obtain ⟨rest, eq⟩ := indicesOf_second found first later again between
        exact fails (structureFault_opens eq)
      · exact fails ((structureFault_opened opened).trans (if_pos last))
      · exact fails ((structureFault_opened opened).trans ((if_neg (Nat.ne_of_lt early)).trans (if_pos unlevelled)))
      · obtain ⟨undrawn, drawn⟩ := structureFault_levelled (kind := kind) opened level
        refine ⟨fun h => fails (undrawn h), fun h unended => fails ((drawn h).trans (endFault_unended unended)),
          fun i h ⟨found, first⟩ early => fails ((drawn h).trans (endFault_early found first early)),
          fun h ended dip lacks => fails ((drawn h).trans ((endFault_ended ended).trans (if_pos ⟨dip, lacks⟩))),
          fun h ended cold lacks => fails ((drawn h).trans ((endFault_ended ended).trans ?_))⟩
        rw [if_neg (fun ⟨dip, _⟩ => by rw [cold] at dip; cases dip), if_pos ⟨cold, lacks⟩]

end Sys2Proof.Machine
end
section
/-! PROOFS. The event that an idle step takes (R57, R69, R124, R164, R169). -/

namespace Sys2Proof.Machine

section
variable {s : State} {x : Instr} {i : Nat}

/-! ### The first events of the streams -/

theorem getElem?_head_of_place (h : i ∈ headPlaces [] 0 s.inFlight) :
    ∃ x, s.inFlight[i]? = some x ∧ ∀ j y, j < i → s.inFlight[j]? = some y → stream y ≠ stream x := by
  obtain ⟨j, x, e, found, -, first⟩ := (mem_headPlaces i s.inFlight [] 0).mp h
  rw [Nat.zero_add] at e
  subst e
  exact ⟨x, found, first⟩

/-- No further stream has an event where each is of a stream seen. -/
theorem headPlaces_eq_nil {l : List Instr} {seen : List Nat} {n : Nat} :
    headPlaces seen n l = [] ↔ ∀ y ∈ l, stream y ∈ seen := by
  induction l generalizing n with
  | nil => simp [headPlaces]
  | cons e rest ih =>
    rw [headPlaces, List.forall_mem_cons]
    split
    · next h => rw [ih]; simp [h]
    · next h => simp [h]

/-- There is a choice exactly among several streams. -/
theorem headPlaces_length {l : List Instr} (hx : x ∈ l) :
    1 < (headPlaces [] 0 l).length ↔ l.any (stream · != stream x) = true := by
  cases l with
  | nil => cases hx
  | cons e rest =>
    have tail : 1 < (headPlaces [] 0 (e :: rest)).length ↔ ∃ y ∈ rest, stream y ≠ stream e := by
      simp only [headPlaces, List.not_mem_nil, if_false, List.length_cons, Nat.lt_add_left_iff_pos, List.length_pos_iff,
        ne_eq, headPlaces_eq_nil, List.mem_singleton, Classical.not_forall, exists_prop]
    rw [tail, List.any_eq_true]
    constructor
    · rintro ⟨y, hy, other⟩
      by_cases h : stream y = stream x
      · exact ⟨e, List.mem_cons_self, bne_iff_ne.mpr fun same => other (h.trans same.symm)⟩
      · exact ⟨y, List.mem_cons_of_mem _ hy, bne_iff_ne.mpr h⟩
    · rintro ⟨y, hy, other⟩
      by_cases h : stream y = stream e
      · rcases List.mem_cons.mp hx with rfl | hx
        · exact absurd h (bne_iff_ne.mp other)
        · exact ⟨x, hx, fun same => bne_iff_ne.mp other (h.trans same.symm)⟩
      · rcases List.mem_cons.mp hy with rfl | hy
        · exact absurd rfl h
        · exact ⟨y, hy, h⟩

theorem freeIndex_choices (n : Nat) (s : State) :
    (freeIndex n s).2 = { s with choices := if 1 < n then s.choices + 1 else s.choices } := by
  unfold freeIndex
  by_cases h : n ≤ 1
  · rw [if_pos h, if_neg (Nat.not_lt.mpr h)]
  · rw [if_neg h, if_pos (Nat.not_le.mp h)]

/-! ### The event taken -/

/-- With events under way one is taken, the first of its stream. -/
theorem nextEvent_takes (h : s.inFlight ≠ []) : ∃ i x, s.inFlight[i]? = some x ∧
    (∀ j y, j < i → s.inFlight[j]? = some y → stream y ≠ stream x) ∧
    nextEvent s = (some x, { s with
      inFlight := s.inFlight.eraseIdx i
      choices := if s.inFlight.any (stream · != stream x) then s.choices + 1 else s.choices }) := by
  have places : 0 < (headPlaces [] 0 s.inFlight).length := by
    rw [List.length_pos_iff, ne_eq, headPlaces_eq_nil]
    exact fun none_ => h (List.eq_nil_iff_forall_not_mem.mpr fun y hy => absurd (none_ y hy) List.not_mem_nil)
  have index : (freeIndex (headPlaces [] 0 s.inFlight).length s).1 < (headPlaces [] 0 s.inFlight).length := by
    unfold freeIndex
    split
    · exact places
    · exact Nat.mod_lt _ places
  have place := List.getElem?_eq_getElem index
  obtain ⟨x, found, first⟩ := getElem?_head_of_place (List.mem_of_getElem? place)
  refine ⟨_, x, found, first, ?_⟩
  rw [nextEvent]
  dsimp only
  rw [place]
  dsimp only
  rw [found, freeIndex_choices]
  simp only [headPlaces_length (List.mem_of_getElem? found)]

theorem nextEvent_none (h : s.inFlight = []) : nextEvent s = (none, s) := by
  simp [nextEvent, h, headPlaces, freeIndex]

/-- What an event's standing is read from is no part of the queue. -/
theorem stillDue_taken (l : List Instr) (n : Nat) (e : Instr) :
    stillDue { s with inFlight := l, choices := n } e = stillDue s e := by
  cases e with
  | filterSample f => cases f <;> rfl
  | _ => rfl

theorem step_of_event {t : State} (hp : s.pending = []) (h : nextEvent s = (some x, t)) (hs : stillDue t x = stillDue s x) :
    step s = if stillDue s x = true then exec x t else .next t := by
  have taken : idle s = if stillDue s x then (some x, t) else (none, t) := by
    rw [idle, h]
    dsimp only
    rw [hs]
  rw [step, hp]
  dsimp only
  rw [idleStep, taken]
  by_cases due : stillDue s x = true
  · rw [if_pos due, if_pos due]
  · rw [if_neg due, if_neg due]

theorem step_of_none (hp : s.pending = []) (h : s.inFlight = []) : step s = .next (tick s) := by
  have taken : idle s = (none, tick s) := by rw [idle, nextEvent_none h]
  rw [step, hp]
  dsimp only
  rw [idleStep, taken]

end

end Sys2Proof.Machine
end
section
/-! PROOFS. A millisecond, and what it brings under way (R10, R55, R62, R65, R68, R92, R94, R96, R119, R141, R146, R149,
R154, R160, R168, R185). -/

namespace Sys2Proof.Machine

section
variable {s : State} {k : Strand} {e : Instr}

/-! ### A millisecond of each part -/

/-- What has fallen due after a millisecond. -/
def dueEvents (t : State) : List Instr := allStrands.flatMap (strandDue t) ++ casterDue t

theorem tick_inFlight (s : State) : (tick s).inFlight = s.inFlight ++ dueEvents (advanceClock s) := rfl

theorem tick_due (s : State) : (tick s).inFlight.drop s.inFlight.length = dueEvents (advanceClock s) := by
  rw [tick_inFlight, List.drop_left]

theorem pool_grant_tick (x : Pool) : x.tick.grant? k = (x.grant? k).map Grant.tick := by
  simp only [Pool.grant?, Pool.tick, look_map]

theorem speedGap_eq (a b : Nat) : speedGap a b = (a - b) + (b - a) := by
  unfold speedGap
  split <;> omega

theorem tick_unit (s : State) : (tick s).unit k = (s.unit k).tickRamp := by
  simp only [tick, State.unit, emitAll, advanceClock, look_map]

/-! ### What has fallen due -/

theorem mem_strandDue {t : State} : e ∈ strandDue t k ↔
    (holdDue t k = true ∧ e = .holdTimerExpiry k) ∨ (stepDue t k = true ∧ e = .stepTimerExpiry k) ∨
      (phaseDue .preCharge t k = true ∧ e = .preChargeEnd k) ∨ (phaseDue .retryDwell t k = true ∧ e = .retryDwellEnd k) ∨
      (phaseDue .inrush t k = true ∧ e = .inrushHoldEnd k) ∨ (responseDue .pour t k = true ∧ e = .pourResponseExpiry k) ∨
      (responseDue .drive t k = true ∧ e = .driveResponseExpiry k) ∨ (rampDue t k = true ∧ e = .rampTargetReached k) := by
  have single : ∀ (c : Prop) [Decidable c] (i : Instr), e ∈ (if c then [i] else []) ↔ c ∧ e = i := fun c _ i => by
    split <;> simp [*]
  simp only [strandDue, List.mem_append, single, or_assoc]

theorem mem_casterDue {t : State} : e ∈ casterDue t ↔
    (t.supply.rideTimer = some 0 ∧ e = .rideThroughExpiry) ∨ (t.supply.settleTimer = some 0 ∧ e = .settleExpiry) ∨
      (gapDue t = true ∧ e = .gapTimerExpiry) ∨ (t.instants.classA = 0 ∧ e = .filterSample (.classA t.port.classA)) ∨
      (t.instants.classB = 0 ∧ e = .filterSample (.classB t.port.classB)) ∨
      (t.instants.measurement = 0 ∧ e = .measurementInstant t.port.channels) ∨ e = .tripSample t.port.trip := by
  have single : ∀ (c : Prop) [Decidable c] (i : Instr), e ∈ (if c then [i] else []) ↔ c ∧ e = i := fun c _ i => by
    split <;> simp [*]
  simp only [casterDue, List.mem_append, single, List.mem_singleton, or_assoc]

theorem mem_dueEvents {t : State} : e ∈ dueEvents t ↔ (∃ k, e ∈ strandDue t k) ∨ e ∈ casterDue t := by
  rw [dueEvents, List.mem_append, List.mem_flatMap]
  simp [mem_allStrands]

theorem rampDue_iff {t : State} : ranOut t (.rampTargetReached k) = some (rampDue t k) := by
  rw [ranOut, rampDue]
  cases (t.unit k).ramp with
  | none => simp
  | some x => simp only [Ramp.due, speedGap_eq]

theorem gapDue_iff {t : State} : ranOut t .gapTimerExpiry = some (gapDue t) := by
  rw [ranOut, gapDue]
  cases t.receiver with
  | hunting => simp
  | assembling bytes gap => cases gap <;> simp

/-- An event that names a timer stands exactly while the timer has run out (log 28). -/
theorem stillDue_eq (t : State) (e : Instr) : stillDue t e = (ranOut t e).getD true := by
  cases e with
  | holdTimerExpiry k => simp [stillDue, ranOut, holdDue]
  | stepTimerExpiry k => simp [stillDue, ranOut, stepDue, Bool.beq_eq_decide_eq]
  | preChargeEnd k => simp [stillDue, ranOut, phaseDue, Bool.beq_eq_decide_eq]
  | retryDwellEnd k => simp [stillDue, ranOut, phaseDue, Bool.beq_eq_decide_eq]
  | inrushHoldEnd k => simp [stillDue, ranOut, phaseDue, Bool.beq_eq_decide_eq]
  | pourResponseExpiry k => simp only [stillDue, ranOut, responseDue, Bool.beq_eq_decide_eq, Option.getD_some]; rfl
  | driveResponseExpiry k => simp only [stillDue, ranOut, responseDue, Bool.beq_eq_decide_eq, Option.getD_some]; rfl
  | rampTargetReached k => rw [rampDue_iff]; rfl
  | rideThroughExpiry => simp [stillDue, ranOut, Bool.beq_eq_decide_eq]
  | settleExpiry => simp [stillDue, ranOut, Bool.beq_eq_decide_eq]
  | gapTimerExpiry => rw [gapDue_iff]; rfl
  | filterSample f => cases f <;> simp [stillDue, ranOut, Bool.beq_eq_decide_eq]
  | measurementInstant c => simp [stillDue, ranOut, Bool.beq_eq_decide_eq]
  | _ => rfl

theorem ranOut_of_stillDue {t : State} (h : stillDue t e = true) (timed : (ranOut t e).isSome = true) :
    ranOut t e = some true := by
  obtain ⟨b, hb⟩ := Option.isSome_iff_exists.mp timed
  rw [stillDue_eq, hb] at h
  rw [hb, show b = true from h]

theorem ranOut_of_mem {t : State} (mem : e ∈ dueEvents t) :
    (ranOut t e = some true ∨ ∃ b, e = .tripSample b) ∧ presents t.port e = true := by
  rcases mem_dueEvents.mp mem with ⟨k, mem⟩ | mem
  · refine ⟨.inl ?_, ?_⟩
    · rcases mem_strandDue.mp mem with ⟨due, rfl⟩ | ⟨due, rfl⟩ | ⟨due, rfl⟩ | ⟨due, rfl⟩ | ⟨due, rfl⟩ | ⟨due, rfl⟩ | ⟨due, rfl⟩ | ⟨due, rfl⟩ <;>
        exact ranOut_of_stillDue due rfl
    · rcases mem_strandDue.mp mem with ⟨-, rfl⟩ | ⟨-, rfl⟩ | ⟨-, rfl⟩ | ⟨-, rfl⟩ | ⟨-, rfl⟩ | ⟨-, rfl⟩ | ⟨-, rfl⟩ | ⟨-, rfl⟩ <;> rfl
  · rcases mem_casterDue.mp mem with ⟨due, rfl⟩ | ⟨due, rfl⟩ | ⟨due, rfl⟩ | ⟨due, rfl⟩ | ⟨due, rfl⟩ | ⟨due, rfl⟩ | rfl
    · exact ⟨.inl (ranOut_of_stillDue (beq_iff_eq.mpr due) rfl), rfl⟩
    · exact ⟨.inl (ranOut_of_stillDue (beq_iff_eq.mpr due) rfl), rfl⟩
    · exact ⟨.inl (ranOut_of_stillDue due rfl), rfl⟩
    · exact ⟨.inl (ranOut_of_stillDue (beq_iff_eq.mpr due) rfl), decide_eq_true rfl⟩
    · exact ⟨.inl (ranOut_of_stillDue (beq_iff_eq.mpr due) rfl), decide_eq_true rfl⟩
    · exact ⟨.inl (ranOut_of_stillDue (beq_iff_eq.mpr due) rfl), decide_eq_true rfl⟩
    · exact ⟨.inr ⟨_, rfl⟩, decide_eq_true rfl⟩

theorem mem_of_ranOut {t : State} (h : ranOut t e = some true) (present : presents t.port e = true) : e ∈ dueEvents t := by
  have due : stillDue t e = true := by rw [stillDue_eq, h]; rfl
  have strand : ∀ k, e ∈ strandDue t k → e ∈ dueEvents t := fun k h => mem_dueEvents.mpr (.inl ⟨k, h⟩)
  refine mem_dueEvents.mpr ?_
  cases e with
  | holdTimerExpiry k => exact .inl ⟨k, mem_strandDue.mpr (by simpa [stillDue] using due)⟩
  | stepTimerExpiry k => exact .inl ⟨k, mem_strandDue.mpr (by simpa [stillDue] using due)⟩
  | preChargeEnd k => exact .inl ⟨k, mem_strandDue.mpr (by simpa [stillDue] using due)⟩
  | retryDwellEnd k => exact .inl ⟨k, mem_strandDue.mpr (by simpa [stillDue] using due)⟩
  | inrushHoldEnd k => exact .inl ⟨k, mem_strandDue.mpr (by simpa [stillDue] using due)⟩
  | pourResponseExpiry k => exact .inl ⟨k, mem_strandDue.mpr (by simpa [stillDue] using due)⟩
  | driveResponseExpiry k => exact .inl ⟨k, mem_strandDue.mpr (by simpa [stillDue] using due)⟩
  | rampTargetReached k => exact .inl ⟨k, mem_strandDue.mpr (by simpa [stillDue] using due)⟩
  | rideThroughExpiry => exact .inr (mem_casterDue.mpr (by simpa [stillDue] using due))
  | settleExpiry => exact .inr (mem_casterDue.mpr (by simpa [stillDue] using due))
  | gapTimerExpiry => exact .inr (mem_casterDue.mpr (by simpa [stillDue] using due))
  | filterSample f =>
    refine .inr (mem_casterDue.mpr ?_)
    cases f with
    | classA l => simpa [stillDue, presents] using And.intro due present
    | classB l => simpa [stillDue, presents] using And.intro due present
  | measurementInstant c =>
    exact .inr (mem_casterDue.mpr (by simpa [stillDue, presents] using And.intro due present))
  | _ => cases h

/-- What has run out is under way, carrying what the port presents; and so is the TRIP sample (R154). -/
theorem mem_dueEvents_iff {t : State} : e ∈ dueEvents t ↔
    (ranOut t e = some true ∨ ∃ b, e = .tripSample b) ∧ presents t.port e = true := by
  refine ⟨ranOut_of_mem, fun ⟨h, present⟩ => ?_⟩
  rcases h with h | ⟨b, rfl⟩
  · exact mem_of_ranOut h present
  · refine mem_dueEvents.mpr (.inr (mem_casterDue.mpr ?_))
    rw [show b = t.port.trip from of_decide_eq_true present]
    simp

/-! ### Each event once -/

theorem strandDue_nodup (t : State) (k : Strand) : (strandDue t k).Nodup := by
  have all : [Instr.holdTimerExpiry k, .stepTimerExpiry k, .preChargeEnd k, .retryDwellEnd k, .inrushHoldEnd k,
      .pourResponseExpiry k, .driveResponseExpiry k, .rampTargetReached k].Nodup := by simp
  have single : ∀ (c : Prop) [Decidable c] (i : Instr), (if c then [i] else []).Sublist [i] := fun c _ i => by
    split <;> simp
  refine List.Nodup.sublist ?_ all
  exact ((((((((single _ _).append (single _ _)).append (single _ _)).append (single _ _)).append (single _ _)).append
    (single _ _)).append (single _ _)).append (single _ _))

theorem casterDue_nodup (t : State) : (casterDue t).Nodup := by
  have all : [Instr.rideThroughExpiry, .settleExpiry, .gapTimerExpiry, .filterSample (.classA t.port.classA),
      .filterSample (.classB t.port.classB), .measurementInstant t.port.channels, .tripSample t.port.trip].Nodup := by simp
  have single : ∀ (c : Prop) [Decidable c] (i : Instr), (if c then [i] else []).Sublist [i] := fun c _ i => by
    split <;> simp
  refine List.Nodup.sublist ?_ all
  exact ((((((single _ _).append (single _ _)).append (single _ _)).append (single _ _)).append (single _ _)).append
    (single _ _)).append (List.Sublist.refl _)

/-- The strand whose timer an event names. -/
def timerStrand : Instr → Option Strand
  | .holdTimerExpiry k | .stepTimerExpiry k | .preChargeEnd k | .retryDwellEnd k | .inrushHoldEnd k
  | .pourResponseExpiry k | .driveResponseExpiry k | .rampTargetReached k => some k
  | _ => none

theorem timerStrand_of_strandDue {t : State} (h : e ∈ strandDue t k) : timerStrand e = some k := by
  rcases mem_strandDue.mp h with ⟨-, rfl⟩ | ⟨-, rfl⟩ | ⟨-, rfl⟩ | ⟨-, rfl⟩ | ⟨-, rfl⟩ | ⟨-, rfl⟩ | ⟨-, rfl⟩ | ⟨-, rfl⟩ <;> rfl

theorem timerStrand_of_casterDue {t : State} (h : e ∈ casterDue t) : timerStrand e = none := by
  rcases mem_casterDue.mp h with ⟨-, rfl⟩ | ⟨-, rfl⟩ | ⟨-, rfl⟩ | ⟨-, rfl⟩ | ⟨-, rfl⟩ | ⟨-, rfl⟩ | rfl <;> rfl

theorem dueEvents_nodup (t : State) : (dueEvents t).Nodup := by
  refine List.nodup_append.mpr ⟨List.pairwise_flatMap.mpr ⟨fun k _ => strandDue_nodup t k, ?_⟩, casterDue_nodup t, ?_⟩
  · refine (show allStrands.Nodup by decide).imp ?_
    rintro j k distinct e hj _ hk rfl
    refine distinct ?_
    exact Option.some.inj ((timerStrand_of_strandDue hj).symm.trans (timerStrand_of_strandDue hk))
  · rintro e hs _ hc rfl
    obtain ⟨k, -, hk⟩ := List.mem_flatMap.mp hs
    exact absurd ((timerStrand_of_strandDue hk).symm.trans (timerStrand_of_casterDue hc)) nofun

end

end Sys2Proof.Machine
end
section
/-! PROOFS. An idle step: an event or a millisecond (R9, R51, R57, R69, R92, R119, R124, R141, R160, R164, R168, R169, R185). -/

namespace Sys2Proof.Machine

theorem nextEvent_single {s : State} {e : Instr} (h : s.inFlight = [e]) : nextEvent s = (some e, { s with inFlight := [] }) := by
  simp [nextEvent, h, headPlaces, freeIndex]

/-- Settles O2: without a command the next event is taken, else a millisecond passes, and the timers that have then run out are
the events due. -/
theorem idleStepTakesEventOrMillisecond : Obligations.IdleStepTakesEventOrMillisecond := by
  intro e k p s
  refine ⟨fun hp => ⟨step_of_none hp, fun he due => ?_, fun he gone => ?_, fun he => ?_⟩, ?_⟩
  · exact (step_of_event hp (nextEvent_single he) (stillDue_taken [] s.choices e)).trans (if_pos due)
  · exact (step_of_event hp (nextEvent_single he) (stillDue_taken [] s.choices e)).trans (if_neg (Bool.eq_false_iff.mp gone))
  · obtain ⟨i, x, found, first, taken⟩ := nextEvent_takes he
    exact ⟨i, x, found, first, step_of_event hp taken (stillDue_taken _ _ x)⟩
  · dsimp only
    rw [tick_due]
    refine ⟨?_, ?_, ?_, ?_, ?_, dueEvents_nodup _, mem_dueEvents_iff, stillDue_eq s e⟩
    · have receiver : s.receiver.tick = match s.receiver with
          | .assembling bytes gap => .assembling bytes (gap - 1)
          | .hunting => .hunting := by
        cases s.receiver <;> rfl
      exact congrArg (fun r => ({ tick s with receiver := r } : State)) receiver
    · rw [tick_strand]
      have condition : (s.strand k).condition.tick = match (s.strand k).condition with
          | .restarting r => .restarting { r with
              stepTimer := r.stepTimer.map (· - 1), phaseTimer := r.phaseTimer.map (· - 1) }
          | c => c := by
        cases (s.strand k).condition <;> rfl
      have timer : (s.strand k).holdTimer.tick = if (s.strand k).holdTimer.running
          then ⟨(s.strand k).holdTimer.elapsed + 1, true⟩ else (s.strand k).holdTimer := by
        unfold HoldTimer.tick
        split
        · next runs => rw [runs]
        · rfl
      exact congr (congrArg (fun c t => ({ s.strand k with condition := c, holdTimer := t } : StrandContext)) condition) timer
    · rw [tick_unit]
      unfold UnitState.tickRamp
      cases (s.unit k).ramp with
      | none => rfl
      | some x => simp only [Ramp.due, speedGap_eq, Ramp.setpoint, decide_eq_true_eq]
    · rw [pool_tick]
      rfl
    · rw [pool_tick, pool_grant_tick]
      refine congrArg (fun f => ((s.pool p).grant? k).map f) (funext fun g => ?_)
      unfold Grant.tick
      cases g.response <;> rfl

end Sys2Proof.Machine
end
section
/-! PROOFS. The record layout of a plan (R195): what the record of a valid plan reads as. -/

namespace Sys2Proof.Machine

theorem half_back {n : Nat} (h : n < 65536) : n % 256 + 256 * (n / 256 % 256) = n := by omega

section
variable (t : Nat)

theorem param_eq (q : Step) (i : Fin 9) : (rawStepOf q).params.look i = (padTo 9 (paramBytes q.action)).getD i.val 0 :=
  look_ofFn _ i

/-- The places of the parameters, as the numbers they are. -/
theorem place_val : (0 : Fin 9).val = 0 ∧ (1 : Fin 9).val = 1 ∧ (2 : Fin 9).val = 2 ∧ (3 : Fin 9).val = 3 ∧
    (4 : Fin 9).val = 4 ∧ (5 : Fin 9).val = 5 ∧ (6 : Fin 9).val = 6 := by decide

/-! ### Each action's parameters -/

theorem readAction_check {m : PermissiveMask} (h : actionInRange (.check m) = true) :
    readAction (rawStepOf ⟨.check m, t⟩) = .ok (.check m) := by
  have low : maskCode m % 256 < 16 := by obtain ⟨_ | _, _ | _, _ | _, _ | _⟩ := m <;> decide
  have bits : (⟨(BitVec.ofNat 8 (maskCode m))[0], (BitVec.ofNat 8 (maskCode m))[1], (BitVec.ofNat 8 (maskCode m))[2],
      (BitVec.ofNat 8 (maskCode m))[3]⟩ : PermissiveMask) = m := by
    obtain ⟨_ | _, _ | _, _ | _, _ | _⟩ := m <;> decide
  unfold readAction
  simp only [param_eq, place_val]
  simp [rawStepOf, actionCode, padTo, paramBytes, u8, low, bits, h]

theorem readAction_cool {z : Zones} (h : actionInRange (.cool z) = true) :
    readAction (rawStepOf ⟨.cool z, t⟩) = .ok (.cool z) := by
  obtain ⟨⟨⟨h1, h2⟩, h3⟩, h4⟩ : ((z.z1 ≤ 100 ∧ z.z2 ≤ 100) ∧ z.z3 ≤ 100) ∧ z.z4 ≤ 100 := by
    simpa [actionInRange, zonesInRange] using h
  unfold readAction
  simp only [param_eq, place_val]
  simp [rawStepOf, actionCode, padTo, paramBytes, zoneBytes, u8, Nat.mod_eq_of_lt (show z.z1 < 256 by omega),
    Nat.mod_eq_of_lt (show z.z2 < 256 by omega), Nat.mod_eq_of_lt (show z.z3 < 256 by omega),
    Nat.mod_eq_of_lt (show z.z4 < 256 by omega), h]

theorem readAction_opening {a b c d : Nat} (h : actionInRange (.opening a b c d) = true) :
    readAction (rawStepOf ⟨.opening a b c d, t⟩) = .ok (.opening a b c d) := by
  have range : a ≤ 100 ∧ b ≤ 300 ∧ c ≤ 4 ∧ d ≤ 255 := by
    simp only [actionInRange, Bool.and_eq_true, decide_eq_true_eq] at h
    omega
  obtain ⟨ha, hb, hc, hd⟩ := range
  unfold readAction
  simp only [param_eq, place_val]
  simp [rawStepOf, actionCode, padTo, paramBytes, u8, u16, half_back (show b < 65536 by omega),
    Nat.mod_eq_of_lt (show a < 256 by omega), Nat.mod_eq_of_lt (show c < 256 by omega),
    Nat.mod_eq_of_lt (show d < 256 by omega), h]

theorem readAction_level {src : LevelSource} (h : actionInRange (.level src) = true) :
    readAction (rawStepOf ⟨.level src, t⟩) = .ok (.level src) := by
  cases src with
  | strand =>
    unfold readAction
    simp only [param_eq, place_val]
    simp [rawStepOf, actionCode, padTo, paramBytes, u8]
  | plan p =>
    obtain ⟨⟨⟨⟨h1, h2⟩, h3⟩, h4⟩, h5⟩ : (((p.target ≤ 300 ∧ p.lockBand ≤ 50) ∧ p.unlockBand ≤ 50) ∧ p.lockCount ≤ 255) ∧
        p.unlockCount ≤ 255 := by simpa [actionInRange, levelInRange] using h
    unfold readAction
    simp only [param_eq, place_val]
    simp [rawStepOf, actionCode, padTo, paramBytes, u8, u16, half_back (show p.target < 65536 by omega),
      Nat.mod_eq_of_lt (show p.lockBand < 256 by omega), Nat.mod_eq_of_lt (show p.unlockBand < 256 by omega),
      Nat.mod_eq_of_lt (show p.lockCount < 256 by omega), Nat.mod_eq_of_lt (show p.unlockCount < 256 by omega), h]

theorem readAction_draw {a b c : Nat} (h : actionInRange (.draw a b c) = true) :
    readAction (rawStepOf ⟨.draw a b c, t⟩) = .ok (.draw a b c) := by
  have range : a ≤ 600 ∧ b ≤ 600 ∧ c ≤ 100 := by
    simp only [actionInRange, Bool.and_eq_true, decide_eq_true_eq] at h
    omega
  obtain ⟨ha, hb, hc⟩ := range
  unfold readAction
  simp only [param_eq, place_val]
  simp [rawStepOf, actionCode, padTo, paramBytes, u8, u16, half_back (show a < 65536 by omega),
    half_back (show b < 65536 by omega), Nat.mod_eq_of_lt (show c < 256 by omega), h]

theorem readAction_rawStepOf {a : Action} (h : actionInRange a = true) : readAction (rawStepOf ⟨a, t⟩) = .ok a := by
  cases a with
  | check m => exact readAction_check t h
  | cool z => exact readAction_cool t h
  | opening a b c d => exact readAction_opening t h
  | level src => exact readAction_level t h
  | draw a b c => exact readAction_draw t h
  | drive => rfl
  | wait => rfl
  | handover => rfl

end

/-! ### The steps and the plan -/

theorem readStep_rawStepOf {q : Step} (h : stepInRange q = true) : readStep (rawStepOf q) = .ok q := by
  obtain ⟨timed, ranged⟩ := (Bool.and_eq_true _ _).mp h
  have time : (rawStepOf q).time.toNat = q.time := by
    obtain ⟨-, high⟩ := (timeInRange_iff _).mp timed
    exact (BitVec.toNat_ofNat _ _).trans (Nat.mod_eq_of_lt (by omega))
  simp only [readStep, readAction_rawStepOf q.time ranged, time, if_pos timed]

theorem readSteps_map (l : List Step) (h : l.all stepInRange = true) (n : Nat) : readSteps n (l.map rawStepOf) = .ok l := by
  induction l generalizing n with
  | nil => rfl
  | cons q l ih =>
    obtain ⟨first, rest⟩ := (Bool.and_eq_true _ _).mp (List.all_cons.symm.trans h)
    simp only [List.map_cons, readSteps, readStep_rawStepOf first, ih rest]

theorem readKind_kindCode (kind : RestartKind) : readKind (BitVec.ofNat 8 (kindCode kind)) = some kind := by
  cases kind <;> rfl

/-- Settles O15: each parameter, each step, and so the record, reads as what it was written from. -/
theorem planRecordReadsBack : Obligations.PlanRecordReadsBack := by
  intro p h passes
  simp only [planInRange, Bool.and_eq_true, decide_eq_true_eq] at h
  obtain ⟨⟨⟨named, low⟩, high⟩, steps⟩ := h
  have counted : ¬ ((rawPlanOf p).steps.length = 0 ∨ 24 < (rawPlanOf p).steps.length) := by
    simp only [rawPlanOf, List.length_map]
    omega
  have read : readSteps 1 (rawPlanOf p).steps = .ok p.steps := readSteps_map p.steps steps 1
  have name : nameInRange (rawPlanOf p).name = true := named
  have kind : readKind (rawPlanOf p).kind = some p.kind := readKind_kindCode p.kind
  simp only [readPlan, name, kind, if_neg counted, read, passes, Bool.true_eq_false, if_false]
  rfl

end Sys2Proof.Machine
end
section
/-! PROOFS. The operations at one strand, as another strand sees them. -/

namespace Sys2Proof.Machine

/-- An update at another strand than `k`: what it leaves of `k`, of the serials given, of `k`'s claims under way and of the DRIVE
settings. -/
structure Aside (k : Strand) (s t : State) : Prop where
  elsewhere : Elsewhere k s t
  serials : s.nextSerial ≤ t.nextSerial
  claims : ∀ n, t.inFlight.contains (.restartCompleteClaim k n) = s.inFlight.contains (.restartCompleteClaim k n)
  settings : t.working.drive = s.working.drive

/-- Operations at other strands than `k`: updates there, and tasks that do not name `k`'s step, a grant to `k` among them. -/
inductive Around (k : Strand) : State → State → Prop where
  | aside {s t : State} : Aside k s t → Around k s t
  | drain {l : List Task} (s : State) : (∀ u ∈ l, Task.avoids k u) → Around k s (Machine.drain l s)
  | trans {s t u : State} : Around k s t → Around k t u → Around k s u

section
variable {k j : Strand} {s t u : State}

theorem Elsewhere.around (h : Elsewhere k s t) (hn : t.nextSerial = s.nextSerial) (hf : t.inFlight = s.inFlight)
    (hw : t.working = s.working) : Around k s t := .aside ⟨h, Nat.le_of_eq hn.symm, fun n => by rw [hf], by rw [hw]⟩

theorem Around.refl (k : Strand) (s : State) : Around k s s := (Elsewhere.refl k s).around rfl rfl rfl

/-! ### The updates -/

theorem pend_frame (src : Source) (s : State) : pend src s = { s with noticePending := (pend src s).noticePending } := by
  unfold pend
  split <;> rfl

theorem pend_around (src : Source) (s : State) : Around k s (pend src s) := (pend_elsewhere src s).around (by simp) (by simp) (by simp)

theorem reportSettled_frame (j : Strand) (s : State) : reportSettled j s =
    { s with coordinator := (reportSettled j s).coordinator, noticePending := (reportSettled j s).noticePending } := by
  unfold reportSettled
  dsimp only
  repeat' split
  · rw [enterSteady, pend_frame .tundish (modCoordinator _ _), pend_frame .tundish (modCoordinator _ s)]
    rfl
  · rw [pend_frame .tundish (modCoordinator _ s)]
    rfl
  · rfl

theorem reportSettled_around (j : Strand) (s : State) : Around k s (reportSettled j s) := by
  rw [reportSettled_frame]
  exact Elsewhere.around (s := s) (elsewhere_of rfl rfl rfl rfl rfl) rfl rfl rfl

/-- A claim taken from what is under way, other than a completion of strand `k`'s restart. -/
theorem takenClaim_around {i : Instr} (h : ∀ n, Instr.restartCompleteClaim k n ≠ i) (s : State) :
    Around k s { s with inFlight := s.inFlight.erase i } := by
  refine .aside ⟨elsewhere_of rfl rfl rfl rfl rfl, Nat.le_refl _, fun n => ?_, rfl⟩
  rw [Bool.eq_iff_iff, List.contains_iff_mem, List.contains_iff_mem, List.mem_erase_of_ne (h n)]

theorem writeFault_around (j : Strand) (c : FaultCode) (d : Nat) (s : State) : Around k s (writeFault j c d s) :=
  (elsewhere_of (writeFault_strand j k c d s) (by simp [State.unit]) (by simp [State.levelSet]) (by simp) (by simp)).around
    (by simp) (by simp) (by simp)

theorem dropEntry_around (j : Strand) (p : PoolId) (s : State) : Around k s (dropEntry p j s) := by
  refine (modPool_elsewhere p _ s rfl fun h => ?_).around (modPool_nextSerial ..) (modPool_inFlight ..) (modPool_working ..)
  rw [Pool.waiting, List.any_eq_false] at h ⊢
  exact fun e he => h e (List.mem_filter.mp he).1

variable (hj : k ≠ j)
include hj

theorem dropGrant_around (p : PoolId) (s : State) : Around k s (dropGrant p j s) :=
  (dropGrant_elsewhere hj p s).around (modPool_nextSerial ..) (modPool_inFlight ..) (modPool_working ..)

theorem modStrand_around (f : StrandContext → StrandContext) (s : State) : Around k s (modStrand j f s) :=
  (modStrand_elsewhere hj f s).around rfl rfl rfl

theorem modRecord_around (f : RestartRecord → RestartRecord) (s : State) : Around k s (modRecord j f s) :=
  (modRecord_elsewhere hj f s).around (by simp) (by simp) (by simp)

theorem updUnit_around (f : UnitState → UnitState) (s : State) : Around k s (updUnit j f s) :=
  (updUnit_elsewhere hj f s).around (by simp) (by simp) (by simp)

theorem modReported_around (f : StrandContext → StrandContext) (s : State) : Around k s (modReported j f s) := by
  unfold modReported
  split
  · exact .refl k s
  · exact (modStrand_around hj _ _).trans (pend_around _ _)

/-! ### The abandonment of another strand's step -/

theorem releaseSlot_around (p : PoolId) (s : State) : Around k s (releaseSlot p j s) :=
  (dropGrant_around hj p s).trans (.drain _ (by simp [Task.avoids]))

theorem withdrawFrom_around (p : PoolId) (s : State) : Around k s (withdrawFrom p j s) := by
  unfold withdrawFrom
  split
  · exact (dropEntry_around j p s).trans (releaseSlot_around hj p _)
  · exact (dropEntry_around j p s)

theorem abandon_around (s : State) : Around k s (abandon j s) := by
  unfold abandon
  split
  · exact .refl k s
  · exact (((modRecord_around hj _ _).trans (withdrawFrom_around hj .pour _)).trans
      (withdrawFrom_around hj .drive _)).trans (updUnit_around hj _ _)

/-! ### Another strand's changes of condition -/

theorem enterHalted_around (cause : HaltCause) (s : State) : Around k s (enterHalted j cause s) :=
  (((abandon_around hj s).trans (updUnit_around hj _ _)).trans (modStrand_around hj _ _)).trans
    ((reportSettled_around j _).trans (pend_around _ _))

theorem enterDry_around (s : State) : Around k s (enterDry j s) :=
  (((abandon_around hj s).trans (updUnit_around hj _ _)).trans (modStrand_around hj _ _)).trans
    ((reportSettled_around j _).trans (pend_around _ _))

theorem enterCasting_around (s : State) : Around k s (enterCasting j s) :=
  ((abandon_around hj s).trans (modStrand_around hj _ _)).trans
    ((reportSettled_around j _).trans (pend_around _ _))

theorem enterHeld_around (f : HoldFlag) (s : State) : Around k s (enterHeld j f s) :=
  (((abandon_around hj s).trans (updUnit_around hj _ _)).trans (modStrand_around hj _ _)).trans
    (pend_around _ _)

theorem faultHalted_around (cause : HaltCause) (c : FaultCode) (d : Nat) (s : State) :
    Around k s (enterHalted j cause (writeFault j c d s)) :=
  (writeFault_around j c d s).trans (enterHalted_around hj cause _)

theorem stopStrand_around (cause : HaltCause) (s : State) : Around k s (stopStrand j cause s) := by
  unfold stopStrand
  split
  · exact enterHalted_around hj cause s
  · exact enterDry_around hj s

theorem enterRestarting_around (kind : RestartKind) (n : Fin 32) (p : Plan) (s : State) :
    Around k s (enterRestarting j kind n p s) := by
  have serial : Aside k (setCondition j (.restarting (newRecord s kind n p)) s)
      { setCondition j (.restarting (newRecord s kind n p)) s with nextSerial := s.nextSerial + 1 } :=
    ⟨elsewhere_of rfl rfl rfl rfl rfl, Nat.le_succ _, fun _ => rfl, rfl⟩
  have begun : Around k s (begunRestart j kind n p s) :=
    ((modStrand_around hj (fun x => { x with condition := .restarting (newRecord s kind n p) }) s).trans (.aside serial)).trans
      (pend_around (.state j) _)
  exact begun.trans (Around.drain _ (by simpa [Task.avoids] using hj))

theorem restartFromHeld_around (s : State) : Around k s (restartFromHeld j s) := by
  unfold restartFromHeld
  dsimp only
  split
  · exact enterRestarting_around hj _ _ _ s
  · exact faultHalted_around hj _ _ _ s

/-! ### The claims at another strand -/

theorem addHold_around (f : HoldFlag) (s : State) : Around k s (addHold j f s) := by
  have reported := modReported_around hj (StrandContext.setFlag f true) s
  cases f with
  | tundish => exact reported
  | dip => exact (reported.trans ((modStrand_around hj _ _).trans (updUnit_around hj _ _)))
  | operator => exact reported

theorem holdClaim_around (f : HoldFlag) (s : State) : Around k s (holdClaim f j s) := by
  unfold holdClaim
  split
  · exact enterHeld_around hj f s
  · exact addHold_around hj f s
  · split
    · exact enterHeld_around hj f s
    · exact enterDry_around hj s
  all_goals exact .refl k s

theorem releaseFlag_around (f : HoldFlag) (s : State) : Around k s (releaseFlag f j s) := by
  have reported := (modReported_around hj (StrandContext.setFlag f false) s)
  unfold releaseFlag
  dsimp only
  split
  · split
    · split
      · exact reported
      · exact reported.trans (restartFromHeld_around hj _)
    all_goals exact reported
  · exact .refl k s

theorem haltClaim_around (s : State) : Around k s (haltClaim j s) := by
  unfold haltClaim
  split
  · exact faultHalted_around hj _ _ _ s
  · exact faultHalted_around hj _ _ _ s
  · split
    · exact faultHalted_around hj _ _ _ s
    · exact enterDry_around hj s
  all_goals exact .refl k s

theorem takeCompletion_around (n : Nat) (s : State) : Around k s (takeCompletion j n s) := by
  unfold takeCompletion
  split
  · split
    · exact enterCasting_around hj s
    · exact .refl k s
  · exact .refl k s

theorem takeFailure_around (c : FailureClaim) (s : State) : Around k s (takeFailure j c s) := by
  unfold takeFailure
  split
  · split
    · exact (writeFault_around j _ _ s).trans (stopStrand_around hj _ _)
    · exact .refl k s
  · exact .refl k s

theorem takeOwnCompletion_around (s : State) : Around k s (takeOwnCompletion j s) := by
  unfold takeOwnCompletion
  split
  · split
    · exact (takenClaim_around (by simp [hj]) s).trans (takeCompletion_around hj _ _)
    · exact .refl k s
  · exact .refl k s

theorem takeOwnFailure_around (s : State) : Around k s (takeOwnFailure j s) := by
  unfold takeOwnFailure
  split
  · exact .refl k s
  · split
    · exact (takenClaim_around (by simp) s).trans (takeFailure_around hj _ _)
    · exact .refl k s

theorem holdStrand_around (f : HoldFlag) (s : State) : Around k s (holdStrand f j s) :=
  (takeOwnCompletion_around hj s).trans (holdClaim_around hj f _)

theorem tripStrand_around (s : State) : Around k s (tripStrand j s) :=
  (takeOwnCompletion_around hj s).trans (haltClaim_around hj _)

theorem releaseTundish_around (s : State) : Around k s (releaseTundish j s) := by
  unfold releaseTundish
  split
  · exact (releaseFlag_around hj _ _).trans (takeOwnFailure_around hj _)
  · exact releaseFlag_around hj _ _

theorem lostDrive_around (s : State) : Around k s (lostDrive j s) := by
  unfold lostDrive
  split
  · exact faultHalted_around hj _ _ _ s
  · split
    · unfold stepReadyFall
      split
      · exact (modRecord_around hj _ _)
      · exact .refl k s
    · split
      · exact (writeFault_around j _ _ s).trans (stopStrand_around hj _ _)
      · exact .refl k s
  · split
    · exact (modStrand_around hj _ _)
    · exact .refl k s
  all_goals exact .refl k s

theorem reexamine_around (s : State) : Around k s (reexamine j s) := by
  unfold reexamine
  split
  · exact lostDrive_around hj s
  · exact .refl k s

end

end Sys2Proof.Machine
end
section
/-! PROOFS. A claim at every configured strand (R15, R20): one strand's own claim among the others'. -/

namespace Sys2Proof.Machine

/-- What the claims at other strands leave of strand `k`. -/
structure Away (k : Strand) (s t : State) : Prop where
  outside : Outside s t
  same : SameStrand s t k
  fault : t.faults.look k = s.faults.look k
  around : Around k s t
  owed : Owed s t
  slots : slotLaw s = true → slotLaw t = true

section
variable {k j : Strand} {s t u : State}

theorem Away.refl (k : Strand) (s : State) : Away k s s :=
  ⟨.refl s, .refl s k, rfl, .refl k s, .refl s, id⟩

theorem Away.trans (a : Away k s t) (b : Away k t u) : Away k s u :=
  ⟨a.outside.trans b.outside, a.same.trans b.same, b.fault.trans a.fault, a.around.trans b.around, a.owed.trans b.owed,
    fun h => b.slots (a.slots h)⟩

/-- A change at another strand. -/
theorem away_of_at (hj : k ≠ j) (ha : AtStrand j s t) (around : Around k s t) (owed : Owed s t)
    (slots : slotLaw s = true → slotLaw t = true) : Away k s t := by
  obtain ⟨outside, others, -⟩ := ha
  exact ⟨outside, (others k hj).1, (others k hj).2, around, owed, slots⟩

theorem Away.configured (h : Away k s t) (j : Strand) : t.isConfigured j = s.isConfigured j :=
  isConfigured_of_outside h.outside j

theorem phase_of_no_record (h : s.record? k = none) : s.phase k ≠ .slotWait := by
  rw [State.phase, h]
  nofun

/-- A strand whose step waits for no slot stands as it was. -/
theorem Around.unmoved (h : Around k s t) (hp : s.phase k ≠ .slotWait) : t.strand k = s.strand k ∧ t.unit k = s.unit k := by
  induction h with
  | aside h =>
    obtain ⟨strand, unit, -⟩ := h.elsewhere
    exact ⟨strand, unit⟩
  | drain s hl =>
    obtain ⟨strand, unit, -⟩ := drain_away hp hl
    exact ⟨strand, unit⟩
  | trans _ _ before after =>
    obtain ⟨strand, unit⟩ := before hp
    obtain ⟨strand', unit'⟩ := after (by rw [State.phase, State.record?, strand]; exact hp)
    exact ⟨strand'.trans strand, unit'.trans unit⟩

/-- A strand that is not RESTARTING stands as it was. -/
theorem Away.unmoved (h : Away k s t) (hr : s.record? k = none) : t.strand k = s.strand k ∧ t.unit k = s.unit k :=
  h.around.unmoved (phase_of_no_record hr)

/-- What relates each state to what a claim at another strand makes of it relates the claims at every configured strand: strand
`k`'s own comes after those of lower number, and before the rest (R15, R20). -/
theorem forConfigured_split {R : State → State → Prop} (refl : ∀ s, R s s) (trans : ∀ a b c, R a b → R b c → R a c)
    (count : ∀ a b, R a b → b.configuredCount = a.configuredCount) (f : Strand → State → State)
    (hf : ∀ j s, k ≠ j → s.isConfigured j = true → R s (f j s)) (hk : s.isConfigured k = true) :
    ∃ u, R s u ∧ u.isConfigured k = true ∧ R (f k u) (forConfigured f s) := by
  have others : ∀ l : List Strand, k ∉ l → ∀ s, R s (l.foldl (fun t j => if t.isConfigured j then f j t else t) s) := by
    intro l hl
    induction l with
    | nil => exact refl
    | cons j l ih =>
      intro s
      obtain ⟨first, rest⟩ := not_or.mp (mt List.mem_cons.mpr hl)
      refine trans _ _ _ ?_ (ih rest _)
      dsimp only
      split
      · next hc => exact hf j s first hc
      · exact refl s
  obtain ⟨before, after, all, hb, ha⟩ : ∃ a b, allStrands = a ++ k :: b ∧ k ∉ a ∧ k ∉ b := by
    obtain ⟨a, b, all⟩ := List.append_of_mem (mem_allStrands k)
    have distinct : allStrands.Nodup := by decide
    rw [all, List.nodup_append] at distinct
    obtain ⟨-, tail, disjoint⟩ := distinct
    exact ⟨a, b, all, fun h => disjoint k h k List.mem_cons_self rfl, (List.nodup_cons.mp tail).1⟩
  have first := others before hb s
  have configured : State.isConfigured (before.foldl (fun t j => if t.isConfigured j then f j t else t) s) k = true :=
    (congrArg (fun n => decide (k.val < n)) (count _ _ first)).trans hk
  refine ⟨_, first, configured, ?_⟩
  rw [forConfigured, all, List.foldl_append, List.foldl_cons, if_pos configured]
  exact others after ha _

theorem Away.count (h : Away k s t) : t.configuredCount = s.configuredCount := by
  obtain ⟨⟨⟨-, -, count, -⟩, -⟩, -⟩ := h
  exact count

theorem forConfigured_away (f : Strand → State → State) (hf : ∀ j s, k ≠ j → s.isConfigured j = true → Away k s (f j s))
    (hk : s.isConfigured k = true) :
    ∃ u, Away k s u ∧ u.isConfigured k = true ∧ Away k (f k u) (forConfigured f s) :=
  forConfigured_split (R := Away k) (.refl k) (fun _ _ _ a b => a.trans b) (fun _ _ a => a.count) f hf hk

/-! ### The claims -/

theorem tripStrand_away (hj : k ≠ j) (s : State) : Away k s (tripStrand j s) :=
  away_of_at hj (tripStrand_at j s) (tripStrand_around hj s) (tripStrand_owed j s) fun h =>
    (slotLaw_iff _).mpr (slotLaw_kept.tripStrand j s ((slotLaw_iff s).mp h))

theorem holdStrand_away (hj : k ≠ j) (f : HoldFlag) (s : State) : Away k s (holdStrand f j s) :=
  away_of_at hj (holdStrand_at f j s) (holdStrand_around hj f s) (holdStrand_owed f j s) fun h =>
    (slotLaw_iff _).mpr (slotLaw_kept.holdStrand f j s ((slotLaw_iff s).mp h))

theorem reexamine_away (hj : k ≠ j) (s : State) : Away k s (reexamine j s) :=
  away_of_at hj (reexamine_at j s) (reexamine_around hj s) (reexamine_owed j s) fun h =>
    (slotLaw_iff _).mpr (slotLaw_kept.reexamine j s ((slotLaw_iff s).mp h))

theorem releaseFlag_away (hj : k ≠ j) (f : HoldFlag) (s : State) (hk : s.isConfigured j = true) :
    Away k s (releaseFlag f j s) :=
  away_of_at hj (releaseFlag_at f j s) (releaseFlag_around hj f s) (releaseFlag_owed f j s) fun h =>
    (slotLaw_iff _).mpr (slotLaw_kept.releaseFlag f j s (live_of_configured hk) ((slotLaw_iff s).mp h))

theorem releaseTundish_away (hj : k ≠ j) (s : State) (hk : s.isConfigured j = true) : Away k s (releaseTundish j s) :=
  away_of_at hj (releaseTundish_at j s) (releaseTundish_around hj s) (releaseTundish_owed j s) fun h =>
    (slotLaw_iff _).mpr (slotLaw_kept.releaseTundish j s hk ((slotLaw_iff s).mp h))

end

end Sys2Proof.Machine
end
section
/-! PROOFS. The Trip Latch (R20, R154 to R156): what latching makes of the part. -/

namespace Sys2Proof.Machine

section
variable {k j : Strand} {s t u : State}

/-! ### The outputs forced, the pools cleared, the Coordinator's return -/

theorem updUnit_frame (k : Strand) (f : UnitState → UnitState) (s : State) : updUnit k f s =
    { s with units := (updUnit k f s).units, noticePending := (updUnit k f s).noticePending } := by
  unfold updUnit
  split
  · rfl
  · refine (pend_frame (.lock k) (modUnit k f s)).trans ?_
    rw [pend_units]
    rfl

/-- Only the units and the notices differ. -/
def SameButUnits (s t : State) : Prop := t = { s with units := t.units, noticePending := t.noticePending }

theorem forceAll_frame (s : State) : SameButUnits s (forConfigured forceOutputs s) :=
  forConfigured_rel (R := SameButUnits) (fun _ => rfl) (fun a b c hab hbc => by rw [SameButUnits, hbc, hab])
    forceOutputs (fun j t => updUnit_frame j _ t) s

theorem forceAll_unit (hk : s.isConfigured k = true) :
    ∃ v, (forConfigured forceOutputs s).unit k = UnitState.rest false zeroZones v := by
  obtain ⟨u, -, -, unit, -⟩ := forConfigured_split (s := s)
    (R := fun s t => t.unit k = s.unit k ∧ t.configuredCount = s.configuredCount) (fun _ => ⟨rfl, rfl⟩)
    (fun _ _ _ ⟨a1, a2⟩ ⟨b1, b2⟩ => ⟨b1.trans a1, b2.trans a2⟩) (fun _ _ h => h.2) forceOutputs
    (fun j s hj _ => ⟨updUnit_unit_ne _ _ _ _ hj, updUnit_configuredCount (k := j) (s := s) _⟩) hk
  exact ⟨u.unit k, unit.trans (updUnit_unit_same _ _ _)⟩

/-- A choice at a pool where nobody waits gives nothing (R83). -/
theorem drain_choice_of_no_waits {p : PoolId} (h : (s.pool p).waits = []) : drain [.grantChoice p] s = s := by
  refine drain_last ?_
  rw [runTask, grantPass, h]
  split <;> rfl

theorem openPour_of_no_waits (h : s.pour.waits = []) :
    openPool .pour s = { s with pour := { s.pour with isOpen := true } } := by
  unfold openPool
  split
  · next hopen =>
    have isOpen : s.pour.isOpen = true := hopen
    rw [← isOpen]
  · exact drain_choice_of_no_waits (p := .pour) h

theorem tripReturn_eq (h : s.pour.waits = []) : tripReturn s = { s with
    coordinator := { s.coordinator with state := .steady, releaseSet := StrandSet.none }
    pour := { s.pour with isOpen := true }
    noticePending := (tripReturn s).noticePending } := by
  have opened : ∀ u : State, u.pour = s.pour → openPool .pour u = { u with pour := { s.pour with isOpen := true } } :=
    fun u hu => by rw [openPour_of_no_waits (by rw [hu]; exact h), hu]
  unfold tripReturn
  dsimp only
  split
  · next steady =>
    have state : s.coordinator.state = .steady := steady
    rw [opened (modCoordinator (fun c => { c with releaseSet := StrandSet.none }) s) rfl, ← state]
    rfl
  · rw [opened (pend .tundish (modCoordinator (fun c => { c with state := .steady })
      (modCoordinator (fun c => { c with releaseSet := StrandSet.none }) s))) (pend_pour _ _), pend_frame]
    rfl

/-- What latching does once the outputs are forced (R89, R138, R155). -/
def endLatch (s : State) : State := pend .trip (tripReturn (clearPool .drive (clearPool .pour s)))

theorem endLatch_eq (s : State) : endLatch s = { s with
    pour := { s.pour with holders := Tab.all 8 none, waits := [], isOpen := true }
    drive := { s.drive with holders := Tab.all 8 none, waits := [] }
    coordinator := { s.coordinator with state := .steady, releaseSet := StrandSet.none }
    noticePending := (endLatch s).noticePending } := by
  unfold endLatch
  rw [pend_frame, tripReturn_eq rfl]
  rfl

theorem endLatch_owed (s : State) : Owed s (endLatch s) ∧ (endLatch s).noticePending.look Source.trip.number = true :=
  ⟨(tripReturn_owed (clearPool .drive (clearPool .pour s))).trans (pend_owed .trip _), pend_look .trip _ rfl⟩

/-- The strands' claims that latching begins with (R155). -/
def tripAll (s : State) : State := forConfigured tripStrand (modTrip (fun t => { t with latched := true }) s)

theorem latch_stages (s : State) : latch s = endLatch (forConfigured forceOutputs (tripAll s)) := rfl

end

end Sys2Proof.Machine
end
section
/-! PROOFS. The trip's halt claim at a strand (R20, R124). -/

namespace Sys2Proof.Machine

section
variable {k : Strand} {s u : State}

/-- Whether the trip's halt claim halts the strand, rather than making it DRY or passing it by (R20). -/
def TripHalts (c : StrandContext) : Prop :=
  c.condition = .casting ∨ c.condition = .held ∨ (c.condition.name = .restarting ∧ c.steel = true)

theorem condition_of_restarting {c : Condition} (h : c.name = .restarting) : ∃ r, c = .restarting r := by
  cases c with
  | restarting r => exact ⟨r, rfl⟩
  | dry | casting | held | halted | offline => nomatch h

theorem casting_of_name {c : Condition} (h : c.name = .casting) : c = .casting := by
  cases c with
  | casting => rfl
  | dry | restarting | held | halted | offline => nomatch h

theorem held_of_name {c : Condition} (h : c.name = .held) : c = .held := by
  cases c with
  | held => rfl
  | dry | restarting | casting | halted | offline => nomatch h

theorem TripHalts.of_same (h : SameStrand s u k) (a : TripHalts (s.strand k)) : TripHalts (u.strand k) := by
  obtain ⟨name, steel, -⟩ := h
  rcases a with a | a | ⟨a, b⟩
  · exact .inl (casting_of_name (by rw [name, a]; rfl))
  · exact .inr (.inl (held_of_name (by rw [name, a]; rfl)))
  · exact .inr (.inr ⟨name.trans a, steel.trans b⟩)

theorem haltClaim_halts (h : TripHalts (s.strand k)) : haltClaim k s = enterHalted k .trip (writeFault k .trip 0 s) := by
  unfold haltClaim
  rcases h with h | h | ⟨h, steel⟩
  · rw [h]
  · rw [h]
  · obtain ⟨r, hc⟩ := condition_of_restarting h
    rw [hc]
    exact if_pos steel

/-- The state in which the claim after a completed HANDOVER finds the strand (R75, R124). -/
theorem takeOwnCompletion_finds (hl : slotLaw s = true) (hk : s.isConfigured k = true) :
    slotLaw (takeOwnCompletion k s) = true ∧ (takeOwnCompletion k s).isConfigured k = true ∧
      (takeOwnCompletion k s).faults = s.faults ∧ ((takeOwnCompletion k s).strand k).steel = (s.strand k).steel ∧
      (handoverDone s k = true → ((takeOwnCompletion k s).strand k).condition = .casting) := by
  obtain ⟨outside, -⟩ := takeOwnCompletion_at k s
  have law : slotLaw (takeOwnCompletion k s) = true :=
    (slotLaw_iff _).mpr (slotLaw_kept.takeOwnCompletion k s ((slotLaw_iff s).mp hl))
  have faults : (takeOwnCompletion k s).faults = s.faults := by
    unfold takeOwnCompletion takeCompletion
    repeat' split
    · exact enterCasting_faults k _
    all_goals rfl
  refine ⟨law, (isConfigured_of_outside outside k).trans hk, faults, ?_, fun done => ?_⟩
  · cases done : handoverDone s k with
    | false => rw [takeOwnCompletion_of_not done]
    | true =>
      obtain ⟨strand, -⟩ := takeOwnCompletion_own k s done (slotLawAt_of_law hl k) hk
      rw [strand]
  · obtain ⟨strand, -⟩ := takeOwnCompletion_own k s done (slotLawAt_of_law hl k) hk
    rw [strand]

theorem takeOwnCompletion_tripHalts (hl : slotLaw s = true) (hk : s.isConfigured k = true) (h : TripHalts (s.strand k)) :
    TripHalts ((takeOwnCompletion k s).strand k) := by
  cases done : handoverDone s k with
  | false => rwa [takeOwnCompletion_of_not done]
  | true => exact .inl ((takeOwnCompletion_finds hl hk).2.2.2.2 done)

/-- What a halt with its fault has made of a strand (R12, R172). -/
structure HaltedWith (cause : HaltCause) (code : FaultCode) (detail : Nat) (k : Strand) (s t : State) : Prop where
  condition : (t.strand k).condition = .halted cause
  hold : (t.strand k).anyHold = false
  steel : (t.strand k).steel = (s.strand k).steel
  atRest : AtRest t k ⟨0, 0, 0, 0⟩
  state : t.noticePending.look (Source.state k).number = true
  faultOwed : t.noticePending.look (Source.fault k).number = true
  fault : s.faults.look k = none → (t.faults.look k).map (fun f => (f.code, f.detail, f.multiple)) = some (code, detail, false)

theorem pend_state_pends (h : (pend (.state k) s).isConfigured k = true) :
    (pend (.state k) s).noticePending.look (Source.state k).number = true :=
  pend_look (.state k) s (by rwa [State.isConfigured, pend_configuredCount] at h)

theorem enterHalted_pends (cause : HaltCause) (hk : s.isConfigured k = true) :
    (enterHalted k cause s).noticePending.look (Source.state k).number = true :=
  pend_state_pends ((isConfigured_of_outside (enterHalted_at k cause s).1 k).trans hk)

theorem enterDry_pends (hk : s.isConfigured k = true) :
    (enterDry k s).noticePending.look (Source.state k).number = true :=
  pend_state_pends ((isConfigured_of_outside (enterDry_at k s).1 k).trans hk)

/-- A strand halted with its fault by a claim other than a reset or a breakout (R12, R109, R172). -/
theorem faultHalted_haltedWith {cause : HaltCause} (code : FaultCode) (detail : Nat) (hl : slotLaw s = true)
    (hk : s.isConfigured k = true) (hc : cause ≠ .reset) (hb : cause ≠ .breakout) :
    HaltedWith cause code detail k s (enterHalted k cause (writeFault k code detail s)) := by
  obtain ⟨⟨condition, hold, -, atRest, -⟩, steel, -⟩ := enterHalted_own k cause (writeFault k code detail s)
    (by rw [writeFault_slotLawAt]; exact slotLawAt_of_law hl k) (by rwa [writeFault_configured])
  rw [haltCooling_eq, if_neg hb] at atRest
  rw [writeFault_strand, beq_eq_false_iff_ne.mpr hc, Bool.or_false] at steel
  refine ⟨condition, hold, steel, atRest, enterHalted_pends cause (by rwa [writeFault_configured]),
    enterHalted_owed k cause _ _ (writeFault_pends k code detail s hk), fun none => ?_⟩
  rw [enterHalted_faults, writeFault_look, faultAfter, none]
  rfl

theorem tripStrand_halts (hl : slotLaw s = true) (hk : s.isConfigured k = true) (h : TripHalts (s.strand k)) :
    HaltedWith .trip .trip 0 k s (tripStrand k s) := by
  obtain ⟨law, configured, faults, steel, -⟩ := takeOwnCompletion_finds hl hk
  have halts := takeOwnCompletion_tripHalts hl hk h
  rw [tripStrand, haltClaim_halts halts]
  have halted := faultHalted_haltedWith (cause := .trip) .trip 0 law configured nofun nofun
  exact { halted with steel := halted.steel.trans steel, fault := fun none => halted.fault (by rwa [faults]) }

theorem handoverDone_of_no_steel (hs : (s.strand k).steel = false) : handoverDone s k = false := by
  unfold handoverDone
  rw [hs]
  split <;> rfl

/-- A restart without steel ends in DRY: a completed HANDOVER has steel (R20). -/
theorem tripStrand_dry (hn : (s.strand k).condition.name = .restarting) (hs : (s.strand k).steel = false) :
    tripStrand k s = enterDry k s := by
  obtain ⟨r, hc⟩ := condition_of_restarting hn
  rw [tripStrand, takeOwnCompletion_of_not (handoverDone_of_no_steel hs), haltClaim, hc]
  exact if_neg (by rw [hs]; nofun)

/-- A strand that waits for the host is passed by (R20). -/
theorem tripStrand_waitsForHost (h : (s.strand k).condition.waitsForHost = true) : tripStrand k s = s := by
  have none : s.record? k = none := by
    unfold State.record?
    cases hc : (s.strand k).condition with
    | restarting r => rw [hc] at h; nomatch h
    | _ => rfl
  have done : takeOwnCompletion k s = s := by rw [takeOwnCompletion, none]
  rw [tripStrand, done]
  unfold haltClaim
  cases hc : (s.strand k).condition with
  | dry | halted | offline => rfl
  | restarting | casting | held => rw [hc] at h; nomatch h

end

end Sys2Proof.Machine
end
section
/-! PROOFS. Latching (R155): what becomes of a configured strand, of the Coordinator and of the pools. -/

namespace Sys2Proof.Machine

/-! ### The Coordinator's measured values -/

/-- The low-weight flag and the last weight are the same. -/
def SameWeights (s t : State) : Prop :=
  t.coordinator.lowWeight = s.coordinator.lowWeight ∧ t.coordinator.lastWeight = s.coordinator.lastWeight

section
variable {k : Strand} {s t u : State}

theorem SameWeights.refl (s : State) : SameWeights s s := ⟨rfl, rfl⟩

theorem SameWeights.trans (a : SameWeights s t) (b : SameWeights t u) : SameWeights s u :=
  ⟨b.1.trans a.1, b.2.trans a.2⟩

theorem SameWeights.of_settled (h : t.coordinator = s.coordinator.settled k) : SameWeights s t := by
  unfold SameWeights
  rw [h]
  unfold Coordinator.settled
  split <;> exact ⟨rfl, rfl⟩

theorem takeOwnCompletion_sameWeights (k : Strand) (s : State) : SameWeights s (takeOwnCompletion k s) := by
  unfold takeOwnCompletion takeCompletion
  repeat' split
  · exact .of_settled (enterCasting_coordinator k _)
  all_goals exact .refl s

theorem faultHalted_sameWeights (cause : HaltCause) (c : FaultCode) (d : Nat) (s : State) :
    SameWeights s (enterHalted k cause (writeFault k c d s)) :=
  .of_settled (k := k) ((enterHalted_coordinator k _ cause).trans (by rw [writeFault_coordinator]))

theorem haltClaim_sameWeights (k : Strand) (s : State) : SameWeights s (haltClaim k s) := by
  unfold haltClaim
  split
  · exact faultHalted_sameWeights _ _ _ s
  · exact faultHalted_sameWeights _ _ _ s
  · split
    · exact faultHalted_sameWeights _ _ _ s
    · exact .of_settled (enterDry_coordinator k s)
  all_goals exact .refl s

/-! ### The latched state -/

/-- What latching makes of the state the strands' claims have left: the outputs apart, both pools are cleared and the Coordinator
returns (R89, R138, R155). -/
def LatchedFrom (u t : State) : Prop := t = { u with
  units := t.units
  pour := { u.pour with holders := Tab.all 8 none, waits := [], isOpen := true }
  drive := { u.drive with holders := Tab.all 8 none, waits := [] }
  coordinator := { u.coordinator with state := .steady, releaseSet := StrandSet.none }
  noticePending := t.noticePending }

theorem latch_from (s : State) :
    LatchedFrom (tripAll s) (latch s) ∧ (latch s).units = (forConfigured forceOutputs (tripAll s)).units := by
  have ends := endLatch_eq (forConfigured forceOutputs (tripAll s))
  have forced := forceAll_frame (tripAll s)
  rw [latch_stages]
  generalize forConfigured forceOutputs (tripAll s) = v at ends forced ⊢
  generalize tripAll s = u at forced
  generalize endLatch v = t at ends ⊢
  refine ⟨?_, by rw [ends]⟩
  unfold LatchedFrom
  rw [SameButUnits] at forced
  rw [ends, forced]

theorem latch_owed (s : State) : Owed (tripAll s) (latch s) ∧ (latch s).noticePending.look Source.trip.number = true := by
  obtain ⟨owed, trip⟩ := endLatch_owed (forConfigured forceOutputs (tripAll s))
  have forced : Owed (tripAll s) (forConfigured forceOutputs (tripAll s)) :=
    forConfigured_rel .refl (fun _ _ _ => .trans) forceOutputs (fun j t => updUnit_owed j _ t) _
  rw [latch_stages]
  exact ⟨forced.trans owed, trip⟩

theorem tripAll_outside (s : State) : Outside s (tripAll s) ∧ (tripAll s).supply = s.supply ∧
    (tripAll s).trip = { s.trip with latched := true } ∧ (tripAll s).drive.isOpen = s.drive.isOpen := by
  have claims := forConfigured_outside tripStrand tripStrand_at (modTrip (fun t => { t with latched := true }) s)
  rw [← tripAll] at claims
  generalize tripAll s = t at claims ⊢
  obtain ⟨outside, supply, trip, -, -, -, isOpen⟩ := claims
  exact ⟨(modTrip_outside _ s).trans outside, supply, trip, isOpen⟩

theorem tripAll_sameWeights (s : State) : SameWeights s (tripAll s) := by
  have latched : SameWeights s (modTrip (fun t => { t with latched := true }) s) := ⟨rfl, rfl⟩
  exact latched.trans (forConfigured_rel (R := SameWeights) .refl (fun _ _ _ => .trans) tripStrand
    (fun j t => (takeOwnCompletion_sameWeights j t).trans (haltClaim_sameWeights j _)) _)

/-! ### A configured strand's claim among the others' -/

/-- What comes before at other strands, and after, leaves the halt as it is. -/
theorem HaltedWith.among {cause : HaltCause} {code : FaultCode} {detail : Nat} {r : State} (b : Away k r s)
    (h : HaltedWith cause code detail k s t) (a : Away k t u) : HaltedWith cause code detail k r u := by
  obtain ⟨condition, hold, steel, atRest, state, faultOwed, fault⟩ := h
  obtain ⟨-, sameSteel, -⟩ := b.same
  obtain ⟨strand, unit⟩ := a.unmoved (by rw [State.record?, condition]; rfl)
  rw [← strand] at condition hold steel
  refine ⟨condition, hold, steel.trans sameSteel, ?_, a.owed _ state, a.owed _ faultOwed, fun none => ?_⟩
  · rw [AtRest, unit]
    exact atRest
  · rw [a.fault]
    exact fault (b.fault.trans none)

variable (hl : slotLaw s = true) (hk : s.isConfigured k = true)
include hl hk

/-- The strand's claim comes among the others', which leave what it is taken from. -/
theorem tripAll_split : ∃ u, Away k (modTrip (fun t => { t with latched := true }) s) u ∧ slotLaw u = true ∧
    u.isConfigured k = true ∧ Away k (tripStrand k u) (tripAll s) := by
  obtain ⟨u, before, configured, after⟩ := forConfigured_away (k := k) (s := modTrip (fun t => { t with latched := true }) s)
    tripStrand (fun j s hj _ => tripStrand_away hj s) hk
  exact ⟨u, before, before.slots hl, configured, after⟩

theorem tripAll_halts (h : TripHalts (s.strand k)) : HaltedWith .trip .trip 0 k s (tripAll s) := by
  obtain ⟨u, before, law, configured, after⟩ := tripAll_split hl hk
  obtain ⟨condition, hold, steel, atRest, state, faultOwed, fault⟩ :=
    HaltedWith.among before (tripStrand_halts law configured (h.of_same before.same)) after
  exact ⟨condition, hold, steel, atRest, state, faultOwed, fault⟩

theorem tripAll_dry (hn : (s.strand k).condition.name = .restarting) (hs : (s.strand k).steel = false) :
    ((tripAll s).strand k).condition = .dry ∧ (tripAll s).faults.look k = s.faults.look k ∧
      (tripAll s).noticePending.look (Source.state k).number = true := by
  obtain ⟨u, before, law, configured, after⟩ := tripAll_split hl hk
  obtain ⟨name, steel, -⟩ := before.same
  rw [tripStrand_dry (name.trans hn) (steel.trans hs)] at after
  obtain ⟨⟨condition, -⟩, -⟩ := enterDry_own k u (slotLawAt_of_law law k) configured
  obtain ⟨strand, -⟩ := after.unmoved (by rw [State.record?, condition]; rfl)
  refine ⟨by rw [strand]; exact condition, ?_, after.owed _ (enterDry_pends configured)⟩
  rw [after.fault, enterDry_faults]
  exact before.fault

theorem tripAll_waitsForHost (h : (s.strand k).condition.waitsForHost = true) :
    (tripAll s).strand k = s.strand k ∧ (tripAll s).faults.look k = s.faults.look k := by
  obtain ⟨u, before, -, -, after⟩ := tripAll_split hl hk
  have none : ∀ c : Condition, c.waitsForHost = true → c.record? = none := fun c h => by
    cases c with
    | dry | halted | offline | casting | held => rfl
    | restarting r => nomatch h
  have strand : u.strand k = s.strand k := (before.unmoved (none _ h)).1
  have waits : (u.strand k).condition.waitsForHost = true := by rwa [strand]
  rw [tripStrand_waitsForHost waits] at after
  exact ⟨(after.unmoved (none _ waits)).1.trans strand, after.fault.trans before.fault⟩

end

end Sys2Proof.Machine
end
section
/-! PROOFS. TRIP ARM and the line's samples (R154 to R156). -/

namespace Sys2Proof.Machine

/-- What latching shows at strand `k` and in the part (R20, R155). -/
def Latched (k : Strand) (s t : State) : Prop :=
  let c := s.strand k
  SameOutside { s with port := t.port } t ∧ SameSettings s t ∧ t.supply = s.supply ∧
  t.trip = ⟨true, true, true⟩ ∧ Noticed t .trip ∧
  t.coordinator.state = .steady ∧ t.coordinator.releaseSet = StrandSet.none ∧
  t.coordinator.lowWeight = s.coordinator.lowWeight ∧ t.coordinator.lastWeight = s.coordinator.lastWeight ∧
  t.pour.isOpen = true ∧ t.drive.isOpen = s.drive.isOpen ∧
  t.pour.holderCount = 0 ∧ t.drive.holderCount = 0 ∧ t.pour.waits = [] ∧ t.drive.waits = [] ∧
  AtRest t k ⟨0, 0, 0, 0⟩ ∧
  (c.condition = .casting ∨ c.condition = .held ∨ (c.condition.name = .restarting ∧ c.steel = true) →
    (t.strand k).condition = .halted .trip ∧ (t.strand k).anyHold = false ∧ (t.strand k).steel = c.steel ∧
    Noticed t (.state k) ∧ Noticed t (.fault k) ∧
    (s.faults.look k = none →
      (t.faults.look k).map (fun f => (f.code, f.detail, f.multiple)) = some (.trip, 0, false))) ∧
  (c.condition.name = .restarting → c.steel = false →
    (t.strand k).condition = .dry ∧ t.faults.look k = s.faults.look k ∧ Noticed t (.state k)) ∧
  (c.condition.waitsForHost = true → t.strand k = c ∧ t.faults.look k = s.faults.look k)

section
variable {k : Strand} {s t u : State}

/-! ### What latching leaves of the pools and the outputs -/

theorem holderCount_of_cleared {p : Pool} (h : p.holders = Tab.all 8 none) : p.holderCount = 0 := by
  have none_holds : ∀ j ∈ allStrands, ¬ p.holds j = true := fun j _ => by
    rw [Pool.holds, Pool.grant?, h]
    simp
  rw [Pool.holderCount, List.filter_eq_nil_iff.mpr none_holds]
  rfl

theorem LatchedFrom.pools (h : LatchedFrom u t) : t.pour.isOpen = true ∧ t.drive.isOpen = u.drive.isOpen ∧
    t.pour.holderCount = 0 ∧ t.drive.holderCount = 0 ∧ t.pour.waits = [] ∧ t.drive.waits = [] := by
  rw [h]
  exact ⟨rfl, rfl, holderCount_of_cleared rfl, holderCount_of_cleared rfl, rfl, rfl⟩

theorem LatchedFrom.coordinator (h : LatchedFrom u t) : t.coordinator.state = .steady ∧
    t.coordinator.releaseSet = StrandSet.none ∧ SameWeights u t := by
  rw [h]
  exact ⟨rfl, rfl, rfl, rfl⟩

theorem LatchedFrom.kept (h : LatchedFrom u t) :
    (∀ k, t.strand k = u.strand k) ∧ t.faults = u.faults ∧ t.supply = u.supply ∧ t.trip = u.trip := by
  rw [h]
  exact ⟨fun _ => rfl, rfl, rfl, rfl⟩

/-- Every configured strand's outputs are safe (R155). -/
theorem latch_atRest (hk : s.isConfigured k = true) : AtRest (latch s) k ⟨0, 0, 0, 0⟩ := by
  obtain ⟨v, rest⟩ := forceAll_unit (s := tripAll s) ((isConfigured_of_outside (tripAll_outside s).1 k).trans hk)
  refine atRest_of_unit (u := v) ?_
  rw [State.unit, (latch_from s).2]
  exact rest

theorem SameOutside.port (h : SameOutside s t) : SameOutside { s with port := t.port } t := by
  obtain ⟨pending, now, count, lines, caster, instants, -, receiver, image, defaulted, store⟩ := h
  exact ⟨pending, now, count, lines, caster, instants, rfl, receiver, image, defaulted, store⟩

/-! ### Latching -/

theorem latch_latched (hl : slotLaw s = true) (hk : s.isConfigured k = true) (armed : s.trip.armed = true)
    (line : s.trip.line = true) (sent : Sent (latch s) t) : Latched k s t := by
  obtain ⟨outside, settings, -⟩ := latch_outside s
  obtain ⟨-, sameSupply, latched, driveOpen⟩ := tripAll_outside s
  obtain ⟨owed, tripOwed⟩ := latch_owed s
  have weights := tripAll_sameWeights s
  have rest := latch_atRest hk
  have halts := tripAll_halts (k := k) hl hk
  have dry := tripAll_dry (k := k) hl hk
  have waits := tripAll_waitsForHost (k := k) hl hk
  obtain ⟨from_, -⟩ := latch_from s
  generalize latch s = v at *
  generalize tripAll s = u at *
  obtain ⟨strands, faults, supply, trip⟩ := from_.kept
  obtain ⟨pourOpen, driveKept, pourFree, driveFree, pourWaits, driveWaits⟩ := from_.pools
  obtain ⟨steady, none, coordinator⟩ := from_.coordinator
  obtain ⟨low, last⟩ := weights.trans coordinator
  obtain ⟨same, notices⟩ := sent
  have strand : t.strand k = u.strand k := (same.strand k).trans (strands k)
  have fault : t.faults = u.faults := same.faults.trans faults
  unfold Latched
  rw [strand, fault, same.coordinator, same.pour, same.drive]
  refine ⟨(same.sameOutside outside).port, same.sameSettings settings, same.supply.trans (supply.trans sameSupply), ?_,
    notices _ (.inl tripOwed), steady, none, low, last, pourOpen, driveKept.trans driveOpen, pourFree, driveFree, pourWaits,
    driveWaits, same.atRest rest, fun h => ?_, fun hn hs => ?_, waits⟩
  · rw [same.trip, trip, latched]
    exact congr (congrArg (fun a l => TripLatch.mk a true l) armed) line
  · obtain ⟨condition, hold, steel, -, state, faultOwed, written⟩ := halts h
    exact ⟨condition, hold, steel, notices _ (.inl (owed _ state)), notices _ (.inl (owed _ faultOwed)), written⟩
  · obtain ⟨condition, kept, state⟩ := dry hn hs
    exact ⟨condition, kept, notices _ (.inl (owed _ state))⟩

/-- What latching shows does not hang on how the line came to be asserted. -/
theorem latches {x : TripLatch} {p : PortInputs} {n : Tab 29 Bool} (hl : slotLaw s = true) (hk : s.isConfigured k = true)
    (armed : x.armed = true) (line : x.line = true)
    (sent : Sent (latch { s with trip := x, port := p, noticePending := n }) t) : Latched k s t :=
  latch_latched (s := { s with trip := x, port := p, noticePending := n }) hl hk armed line sent

/-! ### TRIP ARM and the samples -/

theorem arm_latches (ha : s.trip.armed = false) (hline : s.trip.line = true) : arm s = latch
    { s with
      trip := { s.trip with armed := true }
      port := s.port
      noticePending := (pend .trip (modTrip (fun x => { x with armed := true }) s)).noticePending } := by
  unfold arm
  rw [if_neg (by rw [ha]; nofun)]
  dsimp only
  rw [if_pos hline, pend_frame .trip (modTrip (fun x => { x with armed := true }) s)]
  rfl

theorem arm_only (ha : s.trip.armed = false) (hline : s.trip.line = false) :
    arm s = pend .trip { s with trip := { s.trip with armed := true } } := by
  unfold arm
  rw [if_neg (by rw [ha]; nofun)]
  exact if_neg (by rw [hline]; nofun)

theorem takeTrip_latches (ha : s.trip.armed = true) (hn : s.trip.latched = false) :
    takeTrip true s = latch { s with trip := { s.trip with line := true } } := by
  unfold takeTrip
  dsimp only
  rw [if_pos ⟨rfl, ha, hn⟩, if_neg (by rw [hn]; nofun)]
  rfl

theorem takeTrip_only {b : Bool} (h : b = false ∨ s.trip.armed = false ∨ s.trip.latched = true) : takeTrip b s =
    if s.trip.line ≠ b ∧ s.trip.latched = true then pend .trip { s with trip := { s.trip with line := b } }
    else { s with trip := { s.trip with line := b } } := by
  refine if_neg ?_
  rintro ⟨hb, ha, hn⟩
  rcases h with h | h | h
  · exact nomatch hb.symm.trans h
  · exact nomatch ha.symm.trans h
  · exact nomatch hn.symm.trans h

end

/-- Settles O36: latching forces every output after the strands' claims, and each strand's claim stands among the others'. -/
theorem tripArmsAndLatches : Obligations.TripArmsAndLatches := by
  intro tag k b s
  refine ⟨fun hl hk hn => ⟨fun hq ha hline => ?_, fun ha => ?_⟩, fun hq ha => ?_, fun hq ha hline => ?_, fun h => ?_⟩
  · obtain ⟨t, reached, answered, -, sent⟩ := request_acts tag 0x1D (.of_command (.tripArm tag) rfl) arm s hq rfl
    rw [arm_latches ha hline] at sent
    have latched : Latched k s t :=
      latches (x := { s.trip with armed := true }) (p := s.port) hl hk rfl hline sent
    exact ⟨t, reached, answered, latched⟩
  · obtain ⟨t, reached, sent⟩ := event_acts (i := .tripSample true) ⟨rfl, nofun⟩ s
    rw [show effect (.tripSample true) s = _ from takeTrip_latches ha hn] at sent
    have latched : Latched k s t := latches (x := { s.trip with line := true })
      (p := { s.port with trip := true }) (n := s.noticePending) hl hk ha rfl sent
    refine ⟨t, reached, latched, sent.1.port.trans ?_⟩
    obtain ⟨⟨-, -, -, -, -, -, port, -⟩, -⟩ :=
      latch_outside { s with trip := { s.trip with line := true }, port := { s.port with trip := true } }
    exact port
  · exact request_keeps tag 0x1D (.of_command (.tripArm tag) rfl) arm s hq rfl (if_pos ha)
  · exact request_pends tag 0x1D (.of_command (.tripArm tag) rfl) arm hq rfl rfl (arm_only ha hline)
  · obtain ⟨t, reached, same, noticed⟩ := event_acts (i := .tripSample b) ⟨rfl, nofun⟩ s
    rw [show effect (.tripSample b) s = _ from takeTrip_only h] at same noticed
    refine ⟨t, reached, ?_, fun latched line => ?_⟩
    · split at same
      · exact (pend_sameButNotices .trip _).trans same
      · exact same
    · rw [if_pos ⟨line, latched⟩] at noticed
      exact noticed .trip (.inl (pend_look .trip _ rfl))

end Sys2Proof.Machine
end
section
/-! PROOFS. TUNDISH ABORT (R137): each strand of the change is halted with its fault, and the pool is opened. -/

namespace Sys2Proof.Machine

section
variable {k j : Strand} {s t u : State}

/-! ### The opening of a pool -/

theorem openPool_around (k : Strand) (p : PoolId) (s : State) : Around k s (openPool p s) := by
  unfold openPool
  split
  · exact .refl k s
  · exact ((modPool_elsewhere p (fun x => { x with isOpen := true }) s rfl id).around (modPool_nextSerial ..) (modPool_inFlight ..)
      (modPool_working ..)).trans
      (.drain _ (by simp [Task.avoids]))

theorem openPool_keeps (p : PoolId) (s : State) : (∀ j, SameStrand s (openPool p s) j) ∧
    (openPool p s).faults = s.faults ∧ (openPool p s).supply = s.supply ∧ (openPool p s).trip = s.trip := by
  unfold openPool
  split
  · exact ⟨.refl s, rfl, rfl, rfl⟩
  · obtain ⟨-, same, faults, supply, trip, -⟩ := drain_carried [.grantChoice p] (modPool p (fun x => { x with isOpen := true }) s)
    refine ⟨fun j => ?_, by simpa using faults, by simpa using supply, by simpa using trip⟩
    have strand : (modPool p (fun x => { x with isOpen := true }) s).strand j = s.strand j := by simp [State.strand]
    have opened := same j
    rwa [SameStrand, strand] at opened

theorem openPool_away (k : Strand) (p : PoolId) (s : State) : Away k s (openPool p s) := by
  obtain ⟨same, faults, -⟩ := openPool_keeps p s
  exact ⟨openPool_outside p s, same k, by rw [faults], openPool_around k p s, openPool_owed p s, fun h =>
    (slotLaw_iff _).mpr (slotLaw_kept.openPool p s ((slotLaw_iff s).mp h))⟩

theorem modCoordinator_away (k : Strand) (f : Coordinator → Coordinator) (s : State) : Away k s (modCoordinator f s) :=
  ⟨modCoordinator_outside f s, .refl s k, rfl, Elsewhere.around (s := s) (elsewhere_of rfl rfl rfl rfl rfl) rfl rfl rfl, modCoordinator_owed f s, id⟩

theorem pend_away (k : Strand) (src : Source) (s : State) : Away k s (pend src s) := by
  refine ⟨pend_outside src s, ?_, by rw [pend_faults], pend_around src s, pend_owed src s, fun h => ?_⟩
  · rw [SameStrand, pend_strand]
    exact SameStrand.refl s k
  · rw [pend_frame]
    exact h

/-! ### The strands of an abandoned change -/

/-- A strand settles out of the release set alone (R134). -/
theorem settled_look (c : Coordinator) (hj : k ≠ j) : (c.settled j).releaseSet.look k = c.releaseSet.look k := by
  unfold Coordinator.settled
  split
  · exact look_put_ne _ _ _ _ hj
  · rfl

/-- Away from strand `k`, whose membership of the release set is kept. -/
def AwayMember (k : Strand) (s t : State) : Prop :=
  Away k s t ∧ t.coordinator.releaseSet.look k = s.coordinator.releaseSet.look k

theorem abortForTundish_away (hj : k ≠ j) (s : State) (hk : s.isConfigured j = true) : AwayMember k s (abortForTundish j s) := by
  have at_ := abortForTundish_at j s
  unfold abortForTundish at at_ ⊢
  split at at_
  · next aborted =>
    rw [if_pos aborted]
    refine ⟨away_of_at hj at_ (faultHalted_around hj _ _ _ s)
      ((writeFault_owed _ _ _ _).trans (enterHalted_owed _ _ _)) fun h => ?_, ?_⟩
    · exact (slotLaw_iff _).mpr (slotLaw_kept.toStrandKept.faultHalted j _ _ _ s (live_of_configured hk) ((slotLaw_iff s).mp h))
    · rw [enterHalted_coordinator, writeFault_coordinator]
      exact settled_look _ hj
  · next spared =>
    rw [if_neg spared]
    exact ⟨.refl k s, rfl⟩

theorem abortedByTundish_eq (s : State) (k : Strand) : abortedByTundish s k =
    (heldForTundish s k || (s.coordinator.releaseSet.look k && (s.strand k).condition.heldOrRestarting)) := by
  unfold abortedByTundish
  cases (s.strand k).condition <;> rfl

theorem beq_held_of_name {c d : Condition} (h : c.name = d.name) : (c == .held) = (d == .held) := by
  rw [Bool.eq_iff_iff, beq_iff_eq, beq_iff_eq]
  exact ⟨fun e => held_of_name (by rw [← h, e]; rfl), fun e => held_of_name (by rw [h, e]; rfl)⟩

/-- What comes before at other strands leaves whether the strand is halted (R137). -/
theorem abortedByTundish_away (h : AwayMember k s t) : abortedByTundish t k = abortedByTundish s k := by
  obtain ⟨away, member⟩ := h
  obtain ⟨name, -, flag, -⟩ := away.same
  rw [abortedByTundish_eq, abortedByTundish_eq, heldForTundish, heldForTundish, away.configured, member, flag,
    heldOrRestarting_of_name name, beq_held_of_name name]

theorem abortedByTundish_iff (hk : s.isConfigured k = true) : abortedByTundish s k = true ↔
    ((s.strand k).condition = .held ∧ (s.strand k).heldForTundish = true) ∨
      (s.coordinator.releaseSet.look k = true ∧ (s.strand k).condition.heldOrRestarting = true) := by
  simp [abortedByTundish_eq, heldForTundish, hk]

theorem AwayMember.trans (a : AwayMember k s t) (b : AwayMember k t u) : AwayMember k s u :=
  ⟨a.1.trans b.1, b.2.trans a.2⟩

/-! ### The abandoned change -/

/-- The state in which the strands of the change have been halted (R137, item 1). -/
def abortAll (s : State) : State := forConfigured abortForTundish (modCoordinator (fun c => { c with entering := true }) s)

/-- The end of an abandoned change (R137, items 2 and 3). -/
def endChange (s : State) : State :=
  pend .tundish (openPool .pour (modCoordinator (fun c =>
    { c with state := .steady, releaseSet := StrandSet.none, entering := false }) s))

theorem abandonChange_stages (s : State) : abandonChange s = endChange (abortAll s) := rfl

theorem abortAll_split (hl : slotLaw s = true) (hk : s.isConfigured k = true) :
    ∃ u, AwayMember k (modCoordinator (fun c => { c with entering := true }) s) u ∧ slotLaw u = true ∧
      u.isConfigured k = true ∧ Away k (abortForTundish k u) (abortAll s) := by
  obtain ⟨u, before, configured, after⟩ := forConfigured_split (k := k) (R := AwayMember k)
    (s := modCoordinator (fun c => { c with entering := true }) s) (fun s => ⟨.refl k s, rfl⟩) (fun _ _ _ => .trans)
    (fun _ _ a => a.1.count) abortForTundish (fun j s hj => abortForTundish_away hj s) hk
  exact ⟨u, before, before.1.slots hl, configured, after.1⟩

theorem abortAll_halts (hl : slotLaw s = true) (hk : s.isConfigured k = true) (h : abortedByTundish s k = true) :
    HaltedWith .abort .abort 1 k s (abortAll s) := by
  obtain ⟨u, before, law, configured, after⟩ := abortAll_split hl hk
  have aborted : abortedByTundish u k = true := (abortedByTundish_away before).trans h
  rw [abortForTundish, if_pos aborted] at after
  obtain ⟨condition, hold, steel, atRest, state, faultOwed, fault⟩ := HaltedWith.among before.1
    (faultHalted_haltedWith (cause := .abort) .abort 1 law configured nofun nofun) after
  exact ⟨condition, hold, steel, atRest, state, faultOwed, fault⟩

theorem abortAll_spares (hl : slotLaw s = true) (hk : s.isConfigured k = true) (h : abortedByTundish s k = false) :
    SameStrand s (abortAll s) k ∧ (abortAll s).faults.look k = s.faults.look k := by
  obtain ⟨u, before, -, -, after⟩ := abortAll_split hl hk
  have spared : ¬ abortedByTundish u k = true := by
    rw [abortedByTundish_away before]
    exact fun aborted => nomatch aborted.symm.trans h
  rw [abortForTundish, if_neg spared] at after
  obtain ⟨⟨before, -⟩, after⟩ := And.intro before after
  exact ⟨SameStrand.trans before.same after.same, after.fault.trans before.fault⟩

theorem abortAll_outside (s : State) : Outside s (abortAll s) ∧ (abortAll s).supply = s.supply ∧ (abortAll s).trip = s.trip := by
  have members := forConfigured_outside abortForTundish abortForTundish_at (modCoordinator (fun c => { c with entering := true }) s)
  rw [← abortAll] at members
  generalize abortAll s = t at members ⊢
  obtain ⟨outside, supply, trip, -⟩ := members
  exact ⟨(modCoordinator_outside _ s).trans outside, supply, trip⟩

theorem endChange_away (k : Strand) (s : State) : Away k s (endChange s) :=
  ((modCoordinator_away k _ s).trans (openPool_away k .pour _)).trans (pend_away k .tundish _)

theorem endChange_monitors (s : State) : (endChange s).supply = s.supply ∧ (endChange s).trip = s.trip := by
  obtain ⟨-, -, supply, trip⟩ := openPool_keeps .pour (modCoordinator (fun c =>
    { c with state := .steady, releaseSet := StrandSet.none, entering := false }) s)
  exact ⟨(pend_supply _ _).trans supply, (pend_trip _ _).trans trip⟩

theorem endChange_steady (s : State) : (endChange s).coordinator.state = .steady ∧
    (endChange s).coordinator.releaseSet = StrandSet.none ∧ (endChange s).pour.isOpen = true ∧
    (endChange s).noticePending.look Source.tundish.number = true := by
  obtain ⟨isOpen, -, coordinator⟩ := openPool_fields .pour (modCoordinator (fun c =>
    { c with state := .steady, releaseSet := StrandSet.none, entering := false }) s)
  refine ⟨?_, ?_, ?_, pend_look .tundish _ rfl⟩
  · rw [endChange, pend_coordinator, coordinator]; rfl
  · rw [endChange, pend_coordinator, coordinator]; rfl
  · rw [endChange, pend_pour]; exact isOpen

end

/-- Settles O34: a strand of the change is halted among the others, and waits at no pool when POUR is opened. -/
theorem tundishAbortHalts : Obligations.TundishAbortHalts := by
  intro tag k s hq hl hk
  refine ⟨fun steady => ?_, fun steady => ?_⟩
  · refine request_refuses tag 0x1C _ .wrongState s hq (checked_one_fails ?_)
    rw [steady]
    rfl
  · have passes : (s.coordinator.state == .steady) = false := beq_eq_false_iff_ne.mpr steady
    obtain ⟨t, reached, answered, -, sent⟩ := request_acts tag 0x1C (.of_command (.tundishAbort tag) rfl) abandonChange s hq
      (checked_one_passes passes)
    obtain ⟨⟨outside, settings, -⟩, stage⟩ := And.intro (abandonChange_outside s) (abandonChange_stages s)
    obtain ⟨-, supply, trip⟩ := abortAll_outside s
    obtain ⟨supplyKept, tripKept⟩ := endChange_monitors (abortAll s)
    obtain ⟨state, none, isOpen, tundish⟩ := endChange_steady (abortAll s)
    have after := endChange_away k (abortAll s)
    have halts := abortAll_halts hl hk
    have spares := abortAll_spares hl hk
    rw [← stage] at supplyKept tripKept state none isOpen tundish after
    generalize abandonChange s = v at *
    generalize abortAll s = u at *
    obtain ⟨same, notices⟩ := sent
    refine ⟨t, reached, answered, notices _ (.inl tundish), same.sameOutside outside, same.sameSettings settings,
      same.supply.trans (supplyKept.trans supply), same.trip.trans (tripKept.trans trip), ?_, ?_, ?_, fun h => ?_, fun h => ?_⟩
    · rw [same.coordinator, state]
    · rw [same.coordinator, none]
    · rw [same.pour, isOpen]
    · obtain ⟨condition, hold, steel, atRest, stateOwed, faultOwed, fault⟩ :=
        HaltedWith.among (.refl k s) (halts ((abortedByTundish_iff hk).mpr h)) after
      rw [same.strand, same.faults]
      exact ⟨condition, hold, same.atRest atRest, notices _ (.inl stateOwed), notices _ (.inl faultOwed), steel, fault⟩
    · have spared : abortedByTundish s k = false := Bool.not_eq_true _ ▸ mt (abortedByTundish_iff hk).mp h
      obtain ⟨sameStrand, fault⟩ := spares spared
      exact ⟨same.sameStrand (sameStrand.trans after.same), by rw [same.faults, after.fault, fault]⟩

end Sys2Proof.Machine
end
section
/-! PROOFS. The entry into SUPPLIED (R149 to R151): the re-examination of every strand, and the release claim for the dip. -/

namespace Sys2Proof.Machine

section
variable {k : Strand} {c : SuppliedFrom} {s t u v : State}

/-! ### The re-examination at one strand -/

theorem reexamine_ready (h : (s.strandLines.look k).driveReady.accepted ≠ some false) : reexamine k s = s := by
  rw [reexamine, Line.isFalse, if_neg]
  rw [beq_iff_eq]
  exact h

theorem reexamine_casting (hc : (s.strand k).condition = .casting)
    (h : (s.strandLines.look k).driveReady.accepted = some false) :
    reexamine k s = enterHalted k .driveLost (writeFault k .driveLost 0 s) := by
  rw [reexamine, Line.isFalse, h, if_pos (beq_self_eq_true _), lostDrive, hc]

theorem reexamine_waitsForHost (h : (s.strand k).condition.waitsForHost = true) : reexamine k s = s := by
  unfold reexamine lostDrive
  cases hc : (s.strand k).condition with
  | dry | halted | offline => exact ite_self s
  | restarting | casting | held => rw [hc] at h; nomatch h

theorem reexamine_held (hc : (s.strand k).condition = .held) :
    ∃ x, (reexamine k s).strand k = { s.strand k with driveLost := x } := by
  unfold reexamine
  split
  · rw [lostDrive, hc]
    dsimp only
    split
    · exact ⟨true, modStrand_strand_same k s _⟩
    · exact ⟨_, rfl⟩
  · exact ⟨_, rfl⟩

/-! ### The re-examination of every strand -/

/-- The state in which the release claims of an entry into SUPPLIED are made (R149, R151). -/
def reexamineAll (c : SuppliedFrom) (s : State) : State :=
  forConfigured reexamine (modSupply (SupplyMonitor.supplied c) s)

theorem reexamineAll_outside (c : SuppliedFrom) (s : State) : Outside s (reexamineAll c s) ∧
    (reexamineAll c s).supply = s.supply.supplied c ∧ (reexamineAll c s).trip = s.trip := by
  have strands := forConfigured_outside reexamine reexamine_at (modSupply (SupplyMonitor.supplied c) s)
  rw [← reexamineAll] at strands
  generalize reexamineAll c s = t at strands ⊢
  obtain ⟨outside, supply, trip, -⟩ := strands
  exact ⟨(modSupply_outside _ s).trans outside, supply, trip⟩

theorem reexamineAll_split (c : SuppliedFrom) (hk : s.isConfigured k = true) :
    ∃ u, Away k (modSupply (SupplyMonitor.supplied c) s) u ∧ u.isConfigured k = true ∧
      (u.strandLines.look k).driveReady = (s.strandLines.look k).driveReady ∧ Away k (reexamine k u) (reexamineAll c s) := by
  obtain ⟨u, before, configured, after⟩ := forConfigured_away (k := k) (s := modSupply (SupplyMonitor.supplied c) s)
    reexamine (fun j s hj _ => reexamine_away hj s) hk
  obtain ⟨⟨-, -, -, lines, -⟩, -⟩ := before.outside
  exact ⟨u, before, configured, by rw [lines]; rfl, after⟩

section
variable (hk : s.isConfigured k = true)
include hk

/-- A strand without its drive that casts is halted (R151). -/
theorem reexamineAll_halts (hl : slotLaw s = true) (hc : (s.strand k).condition = .casting)
    (h : (s.strandLines.look k).driveReady.accepted = some false) :
    HaltedWith .driveLost .driveLost 0 k s (reexamineAll c s) := by
  obtain ⟨u, before, configured, line, after⟩ := reexamineAll_split c hk
  obtain ⟨name, -⟩ := before.same
  rw [reexamine_casting (casting_of_name (name.trans (congrArg Condition.name hc))) (by rw [line]; exact h)] at after
  obtain ⟨condition, hold, steel, atRest, state, faultOwed, fault⟩ := HaltedWith.among before
    (faultHalted_haltedWith (cause := .driveLost) .driveLost 0 (before.slots hl) configured nofun nofun) after
  exact ⟨condition, hold, steel, atRest, state, faultOwed, fault⟩

/-- A strand that the re-examination passes by. -/
theorem reexamineAll_passes (hn : s.record? k = none)
    (h : ∀ u, u.strand k = s.strand k → (u.strandLines.look k).driveReady = (s.strandLines.look k).driveReady →
      reexamine k u = u) :
    (reexamineAll c s).strand k = s.strand k ∧ (reexamineAll c s).faults.look k = s.faults.look k := by
  obtain ⟨u, before, -, line, after⟩ := reexamineAll_split c hk
  have strand : u.strand k = s.strand k := (before.unmoved hn).1
  rw [h u strand line] at after
  exact ⟨(after.unmoved (by rw [State.record?, strand]; exact hn)).1.trans strand, after.fault.trans before.fault⟩

theorem reexamineAll_held (hc : (s.strand k).condition = .held) :
    ∃ x, (reexamineAll c s).strand k = { s.strand k with driveLost := x } := by
  obtain ⟨u, before, -, -, after⟩ := reexamineAll_split c hk
  have none : s.record? k = none := record?_of_name (by rw [hc]; nofun)
  have strand : u.strand k = s.strand k := (before.unmoved none).1
  obtain ⟨x, held⟩ := reexamine_held (s := u) (by rw [strand]; exact hc)
  refine ⟨x, (after.unmoved ?_).1.trans (held.trans (by rw [strand]))⟩
  rw [State.record?, held, strand]
  exact none

end

/-! ### The release claim for the dip at one strand -/

theorem releaseDip_holds (hc : (s.strand k).condition = .held)
    (h : (s.strand k).heldForTundish = true ∨ (s.strand k).heldByOperator = true) :
    ((releaseFlag .dip k s).strand k).condition = .held ∧
      ((releaseFlag .dip k s).strand k).holdTimer = (s.strand k).holdTimer := by
  by_cases hd : (s.strand k).flag .dip = true
  · have more : ((s.strand k).setFlag .dip false).anyHold = true := by
      rcases h with h | h <;> simp [StrandContext.setFlag, StrandContext.anyHold, h]
    obtain ⟨condition, timer⟩ := setFlag_fields .dip false (s.strand k)
    rw [releaseFlag_held hc hd, if_pos more, dropFlag_strand]
    exact ⟨condition.trans hc, timer⟩
  · rw [releaseFlag, if_neg hd]
    exact ⟨hc, rfl⟩

theorem restartFromHeld_restarts (hc : (s.strand k).condition = .held) :
    ((restartFromHeld k s).strand k).condition.name = .restarting ∨
      ((restartFromHeld k s).strand k).condition = .halted .noPlan := by
  cases plan : lookupPlan s.working k (if (s.strand k).driveLost then .dip else .flying) with
  | some found =>
    obtain ⟨n, p⟩ := found
    obtain ⟨r, record, -⟩ := enterRestarting_record (s := s) (k := k) (if (s.strand k).driveLost then .dip else .flying) n p
    rw [restartFromHeld_some plan]
    exact .inl (congrArg Condition.name (condition_of_record? record))
  | none =>
    rw [restartFromHeld_none plan, noPlan_strand _ hc]
    exact .inr rfl

theorem releaseDip_restarts (hc : (s.strand k).condition = .held) (hd : (s.strand k).heldForDip = true)
    (ht : (s.strand k).heldForTundish = false) (ho : (s.strand k).heldByOperator = false) :
    ((releaseFlag .dip k s).strand k).condition.name = .restarting ∨
      ((releaseFlag .dip k s).strand k).condition = .halted .noPlan := by
  have alone : ¬ ((s.strand k).setFlag .dip false).anyHold = true := by
    simp [StrandContext.setFlag, StrandContext.anyHold, ht, ho]
  rw [releaseFlag_held (f := .dip) hc hd, if_neg alone]
  refine restartFromHeld_restarts ?_
  rw [dropFlag_strand, (setFlag_fields .dip false _).1, hc]

/-! ### The release claims, and the pool -/

/-- What follows the re-examination (R149). -/
def endSupply (c : SuppliedFrom) (s : State) : State := pend .power (openPool .drive (releaseDip c s))

theorem enterSupplied_stages (c : SuppliedFrom) (s : State) : enterSupplied c s = endSupply c (reexamineAll c s) := rfl

theorem endSupply_of_releaseDip (k : Strand) : Away k (releaseDip c s) (endSupply c s) :=
  (openPool_away k .drive _).trans (pend_away k .power _)

theorem endSupply_drive (c : SuppliedFrom) (s : State) : (endSupply c s).drive.isOpen = true ∧
    (endSupply c s).noticePending.look Source.power.number = true := by
  obtain ⟨isOpen, -⟩ := openPool_fields .drive (releaseDip c s)
  exact ⟨by rw [endSupply, pend_drive]; exact isOpen, pend_look .power _ rfl⟩

theorem releaseDip_monitors (c : SuppliedFrom) (s : State) :
    (releaseDip c s).supply = s.supply ∧ (releaseDip c s).trip = s.trip := by
  cases c with
  | settling =>
    obtain ⟨-, supply, trip, -⟩ := forConfigured_outside (releaseFlag .dip) (releaseFlag_at .dip) s
    exact ⟨supply, trip⟩
  | riding | startUp => exact ⟨rfl, rfl⟩

theorem endSupply_monitors (c : SuppliedFrom) (s : State) :
    (endSupply c s).supply = s.supply ∧ (endSupply c s).trip = s.trip := by
  obtain ⟨-, -, supply, trip⟩ := openPool_keeps .drive (releaseDip c s)
  obtain ⟨sameSupply, sameTrip⟩ := releaseDip_monitors c s
  exact ⟨(pend_supply _ _).trans (supply.trans sameSupply), (pend_trip _ _).trans (trip.trans sameTrip)⟩

theorem releaseDip_settling (s : State) : releaseDip .settling s = forConfigured (releaseFlag .dip) s := rfl

section
variable (hk : s.isConfigured k = true)
include hk

/-- From SETTLING the release claim for the dip is made among the others'. -/
theorem endSupply_split : ∃ u, Away k s u ∧ Away k (releaseFlag .dip k u) (endSupply .settling s) := by
  obtain ⟨u, before, -, after⟩ := forConfigured_away (k := k) (s := s) (releaseFlag .dip)
    (fun j s hj hc => releaseFlag_away hj .dip s hc) hk
  rw [← releaseDip_settling] at after
  exact ⟨u, before, after.trans (endSupply_of_releaseDip k)⟩

/-- A strand that is not held for the dip is passed by. -/
theorem endSupply_away (h : c = .settling → (s.strand k).heldForDip = false) : Away k s (endSupply c s) := by
  cases c with
  | settling =>
    obtain ⟨u, before, after⟩ := endSupply_split hk
    obtain ⟨-, -, -, dip, -⟩ := before.same
    have kept : releaseFlag .dip k u = u := if_neg (by rw [StrandContext.flag, dip, h rfl]; nofun)
    rw [kept] at after
    exact before.trans after
  | riding rise => exact endSupply_of_releaseDip (c := .riding rise) (s := s) k
  | startUp => exact endSupply_of_releaseDip (c := .startUp) (s := s) k

theorem endSupply_clears : ((endSupply .settling s).strand k).heldForDip = false := by
  obtain ⟨u, -, after⟩ := endSupply_split hk
  obtain ⟨-, -, -, dip, -⟩ := after.same
  exact dip.trans (releaseFlag_clears .dip)

/-- A strand held for more than the dip stays HELD (R16). -/
theorem endSupply_holds (hc : (s.strand k).condition = .held)
    (h : (s.strand k).heldForTundish = true ∨ (s.strand k).heldByOperator = true) :
    ((endSupply .settling s).strand k).condition = .held ∧
      ((endSupply .settling s).strand k).holdTimer = (s.strand k).holdTimer := by
  obtain ⟨u, before, after⟩ := endSupply_split hk
  obtain ⟨name, -, tundish, -, operator, timer, -⟩ := before.same
  have held : (u.strand k).condition = .held := held_of_name (name.trans (congrArg Condition.name hc))
  have more : (u.strand k).heldForTundish = true ∨ (u.strand k).heldByOperator = true := by rwa [tundish, operator]
  obtain ⟨condition, kept⟩ := releaseDip_holds held more
  obtain ⟨sameName, -, -, -, -, sameTimer, -⟩ := after.same
  exact ⟨held_of_name (sameName.trans (congrArg Condition.name condition)), sameTimer.trans (kept.trans timer)⟩

/-- A strand held for the dip alone restarts, or ends for want of a plan (R16, R48). -/
theorem endSupply_restarts (hc : (s.strand k).condition = .held) (hd : (s.strand k).heldForDip = true)
    (ht : (s.strand k).heldForTundish = false) (ho : (s.strand k).heldByOperator = false) :
    ((endSupply .settling s).strand k).condition.name = .restarting ∨
      ((endSupply .settling s).strand k).condition = .halted .noPlan := by
  obtain ⟨u, before, after⟩ := endSupply_split hk
  obtain ⟨name, -, tundish, dip, operator, -⟩ := before.same
  have held : (u.strand k).condition = .held := held_of_name (name.trans (congrArg Condition.name hc))
  rcases releaseDip_restarts held (dip.trans hd) (tundish.trans ht) (operator.trans ho) with restarts | halted
  · obtain ⟨sameName, -⟩ := after.same
    exact .inl (sameName.trans restarts)
  · have none : (releaseFlag .dip k u).record? k = none := record?_of_name (by rw [halted]; nofun)
    exact .inr (by rw [(after.unmoved none).1]; exact halted)

end

end

end Sys2Proof.Machine
end
section
/-! PROOFS. The ways into SUPPLIED (R143, R145, R147, R149 to R151). -/

namespace Sys2Proof.Machine

/-- What an entry into SUPPLIED shows at strand `k` and in the part (R149 to R151). -/
def SupplyEntered (k : Strand) (s t : State) (outage : Option Stamp) : Prop :=
  let c := s.strand k
  let lost := (s.strandLines.look k).driveReady.accepted = some false
  SameOutside s t ∧ SameSettings s t ∧ t.trip = s.trip ∧ Noticed t .power ∧ t.drive.isOpen = true ∧
  t.supply = ⟨.supplied, .done, none, none, none, none, outage⟩ ∧
  (c.condition = .casting → lost →
    (t.strand k).condition = .halted .driveLost ∧ AtRest t k ⟨0, 0, 0, 0⟩ ∧ Noticed t (.fault k)) ∧
  (c.condition = .casting → ¬ lost → t.strand k = c) ∧
  (c.condition.waitsForHost = true → SameStrand s t k ∧ t.faults.look k = s.faults.look k)

section
variable {k : Strand} {c : SuppliedFrom} {s t u : State}

theorem heldForDip_of_anyHold {c : StrandContext} (h : c.anyHold = false) : c.heldForDip = false := by
  rw [StrandContext.anyHold, Bool.or_eq_false_iff, Bool.or_eq_false_iff] at h
  obtain ⟨⟨-, dip⟩, -⟩ := h
  exact dip

theorem waitsForHost_name {c : Condition} (h : c.waitsForHost = true) : c.name ≠ .restarting ∧ c ≠ .held := by
  cases c with
  | dry | halted | offline => exact ⟨nofun, nofun⟩
  | restarting | casting | held => nomatch h

section
variable (hk : s.isConfigured k = true)
include hk

/-- A strand that waits at no pool, is not HELD and is passed by the re-examination stands as it was. -/
theorem enterSupplied_passes (hh : holdLaw s = true) (hn : (s.strand k).condition.name ≠ .restarting) (hc : (s.strand k).condition ≠ .held)
    (h : ∀ u, u.strand k = s.strand k → (u.strandLines.look k).driveReady = (s.strandLines.look k).driveReady →
      reexamine k u = u) :
    (enterSupplied c s).strand k = s.strand k ∧ (enterSupplied c s).faults.look k = s.faults.look k := by
  have none := record?_of_name hn
  obtain ⟨strand, fault⟩ := reexamineAll_passes (c := c) hk none h
  have configured := (isConfigured_of_outside (reexamineAll_outside c s).1 k).trans hk
  have free : (s.strand k).heldForDip = false :=
    heldForDip_of_anyHold (anyHold_of_not_held (List.all_eq_true.mp hh k (mem_allStrands k)) hc)
  have after : Away k (reexamineAll c s) (enterSupplied c s) :=
    endSupply_away configured fun _ => by rw [strand]; exact free
  exact ⟨(after.unmoved (by rw [State.record?, strand]; exact none)).1.trans strand, after.fault.trans fault⟩

/-- A strand that casts without its drive is halted (R151). -/
theorem enterSupplied_halts (hl : slotLaw s = true) (hc : (s.strand k).condition = .casting)
    (h : (s.strandLines.look k).driveReady.accepted = some false) :
    HaltedWith .driveLost .driveLost 0 k s (enterSupplied c s) := by
  have halted := reexamineAll_halts (c := c) hk hl hc h
  have configured := (isConfigured_of_outside (reexamineAll_outside c s).1 k).trans hk
  exact HaltedWith.among (.refl k s) halted
    (endSupply_away configured fun _ => heldForDip_of_anyHold halted.hold)

theorem enterSupplied_entered (hl : slotLaw s = true) (hh : holdLaw s = true) (done : s.supply.check = .done)
    (sent : Sent (enterSupplied c s) t) : SupplyEntered k s t (outageAfter s.supply c) := by
  obtain ⟨outside, settings, -⟩ := enterSupplied_outside c s
  obtain ⟨-, supply, trip⟩ := reexamineAll_outside c s
  obtain ⟨supplyKept, tripKept⟩ := endSupply_monitors c (reexamineAll c s)
  obtain ⟨isOpen, power⟩ := endSupply_drive c (reexamineAll c s)
  have halts := enterSupplied_halts (c := c) hk hl
  have passes := enterSupplied_passes (c := c) hk hh
  rw [← enterSupplied_stages] at supplyKept tripKept isOpen power
  generalize enterSupplied c s = v at *
  obtain ⟨same, notices⟩ := sent
  refine ⟨same.sameOutside outside, same.sameSettings settings, same.trip.trans (tripKept.trans trip), notices _ (.inl power),
    by rw [same.drive, isOpen], ?_, fun casting lost => ?_, fun casting ready => ?_, fun waits => ?_⟩
  · rw [same.supply, supplyKept, supply, SupplyMonitor.supplied, done]
  · have halted := halts casting lost
    rw [same.strand]
    exact ⟨halted.condition, same.atRest halted.atRest, notices _ (.inl halted.faultOwed)⟩
  · have passed := passes (by rw [casting]; nofun) (by rw [casting]; nofun)
      fun u _ line => reexamine_ready (by rw [line]; exact ready)
    rw [same.strand, passed.1]
  · obtain ⟨restarting, held⟩ := waitsForHost_name waits
    obtain ⟨strand, fault⟩ := passes restarting held fun u strand _ => reexamine_waitsForHost (by rw [strand]; exact waits)
    rw [SameStrand, same.strand, same.faults, strand]
    exact ⟨SameStrand.refl s k, fault⟩

/-- From RIDING a strand HELD stays so (R149). -/
theorem enterSupplied_riding_held (stamp : Stamp) (hc : (s.strand k).condition = .held) :
    ((enterSupplied (.riding stamp) s).strand k).condition = .held ∧
      ((enterSupplied (.riding stamp) s).strand k).heldForDip = (s.strand k).heldForDip := by
  obtain ⟨x, strand⟩ := reexamineAll_held (c := .riding stamp) hk hc
  have configured := (isConfigured_of_outside (reexamineAll_outside (.riding stamp) s).1 k).trans hk
  have after : Away k (reexamineAll (.riding stamp) s) (enterSupplied (.riding stamp) s) :=
    endSupply_away configured nofun
  obtain ⟨name, -, -, dip, -⟩ := after.same
  rw [strand] at name dip
  exact ⟨held_of_name (name.trans (congrArg Condition.name hc)), dip⟩

/-- From SETTLING the dip's flag is cleared (R149). -/
theorem enterSupplied_clears : ((enterSupplied .settling s).strand k).heldForDip = false :=
  endSupply_clears ((isConfigured_of_outside (reexamineAll_outside .settling s).1 k).trans hk)

theorem enterSupplied_holds (hc : (s.strand k).condition = .held)
    (h : (s.strand k).heldForTundish = true ∨ (s.strand k).heldByOperator = true) :
    ((enterSupplied .settling s).strand k).condition = .held ∧
      ((enterSupplied .settling s).strand k).holdTimer = (s.strand k).holdTimer := by
  obtain ⟨x, strand⟩ := reexamineAll_held (c := .settling) hk hc
  obtain ⟨condition, timer⟩ := endSupply_holds
    ((isConfigured_of_outside (reexamineAll_outside .settling s).1 k).trans hk) (by rw [strand]; exact hc)
    (by rw [strand]; exact h)
  rw [strand] at timer
  exact ⟨condition, timer⟩

theorem enterSupplied_restarts (hc : (s.strand k).condition = .held) (hd : (s.strand k).heldForDip = true)
    (ht : (s.strand k).heldForTundish = false) (ho : (s.strand k).heldByOperator = false) :
    ((enterSupplied .settling s).strand k).condition.name = .restarting ∨
      ((enterSupplied .settling s).strand k).condition = .halted .noPlan := by
  obtain ⟨x, strand⟩ := reexamineAll_held (c := .settling) hk hc
  rw [enterSupplied_stages]
  exact endSupply_restarts
    ((isConfigured_of_outside (reexamineAll_outside .settling s).1 k).trans hk) (by rw [strand]; exact hc)
    (by rw [strand]; exact hd) (by rw [strand]; exact ht) (by rw [strand]; exact ho)

end

/-- What an entry shows does not hang on the monitor's own fields. -/
theorem enters {m : SupplyMonitor} {n : Tab 29 Bool} (hl : slotLaw s = true) (hh : holdLaw s = true)
    (hk : s.isConfigured k = true) (done : m.check = .done)
    (sent : Sent (enterSupplied c { s with supply := m, noticePending := n }) t) : SupplyEntered k s t (outageAfter m c) :=
  enterSupplied_entered (s := { s with supply := m, noticePending := n }) hk hl hh done sent

/-! ### What leads to an entry -/

theorem takeSupplyRise_riding (stamp : Stamp) (h : s.supply.state = .riding) (done : s.supply.check = .done) :
    takeSupplyRise stamp s = enterSupplied (.riding stamp) s := by rw [takeSupplyRise, h, done]

theorem settleEnd_settling (h : s.supply.state = .settling) : settleEnd s = enterSupplied .settling s := by rw [settleEnd, h]

theorem takeFirstSupply_true (stamp : Stamp) (h : s.supply.check = .pending) : takeFirstSupply true stamp s =
    enterSupplied .startUp { s with supply := { s.supply with check := .done } } := by
  rw [takeFirstSupply, h]
  exact (if_pos rfl).trans (congrArg (enterSupplied .startUp) rfl)

/-- The monitor as it settles from DOWN (R147). -/
def settlingFrom (stamp : Stamp) (s : State) : SupplyMonitor :=
  { s.supply with
    state := .settling
    settleStart := some stamp
    settleTimer := some (s.working.caster.settle * 1000) }

theorem takeSupplyRise_down (stamp : Stamp) (h : s.supply.state = .down) (done : s.supply.check = .done)
    (settle : s.working.caster.settle = 0) : takeSupplyRise stamp s = enterSupplied .settling
      { s with supply := settlingFrom stamp s, noticePending := (enterSettling stamp s).noticePending } := by
  rw [takeSupplyRise, h, done]
  dsimp only
  rw [if_pos settle]
  exact congrArg (enterSupplied .settling) (pend_frame .power _)

end

/-- Settles O39: a strand that waits at no pool keeps what the re-examination and its own release claim make of it. -/
theorem supplyReturns : Obligations.SupplyReturns := by
  intro stamp a b k s hl hh hk
  refine ⟨fun riding done outage => ?_, fun pending outage => ?_, fun down done outage settle => ?_,
    fun settling done outage settle => ?_⟩
  · obtain ⟨t, reached, sent⟩ := event_acts (i := .supplyOkRise stamp) ⟨rfl, nofun⟩ s
    rw [show effect (.supplyOkRise stamp) s = _ from takeSupplyRise_riding stamp riding done] at sent
    have entered : SupplyEntered k s t (outageAfter s.supply (.riding stamp)) := enterSupplied_entered hk hl hh done sent
    rw [outageAfter, outage] at entered
    refine ⟨t, reached, entered, fun held => ?_⟩
    rw [sent.1.strand]
    exact enterSupplied_riding_held hk stamp held
  · obtain ⟨t, reached, sent⟩ := event_acts (i := .supplyOkFirstLevel true stamp) ⟨rfl, nofun⟩ s
    rw [show effect (.supplyOkFirstLevel true stamp) s = _ from takeFirstSupply_true stamp pending] at sent
    have entered : SupplyEntered k s t (outageAfter { s.supply with check := .done } .startUp) :=
      enters (n := s.noticePending) hl hh hk rfl sent
    rw [outageAfter, outage] at entered
    exact ⟨t, reached, entered⟩
  · obtain ⟨t, reached, sent⟩ := event_acts (i := .supplyOkRise stamp) ⟨rfl, nofun⟩ s
    rw [show effect (.supplyOkRise stamp) s = _ from takeSupplyRise_down stamp down done settle] at sent
    have entered : SupplyEntered k s t (outageAfter (settlingFrom stamp s) .settling) := enters hl hh hk done sent
    rw [outageAfter, show (settlingFrom stamp s).outageStart = some a from outage] at entered
    refine ⟨t, reached, entered, ?_⟩
    rw [sent.1.strand]
    exact enterSupplied_clears (s := { s with
      supply := settlingFrom stamp s, noticePending := (enterSettling stamp s).noticePending }) hk
  · obtain ⟨t, reached, sent⟩ := event_acts (i := .settleExpiry) ⟨rfl, nofun⟩ s
    rw [show effect .settleExpiry s = _ from settleEnd_settling settling] at sent
    have entered : SupplyEntered k s t (outageAfter s.supply .settling) := enterSupplied_entered hk hl hh done sent
    rw [outageAfter, outage, outageEnd, settle] at entered
    have clears := enterSupplied_clears hk
    have holds := enterSupplied_holds hk
    have restarts := enterSupplied_restarts hk
    have strand := sent.1.strand k
    generalize enterSupplied .settling s = v at clears holds restarts strand
    rw [← strand] at clears holds restarts
    exact ⟨t, reached, entered, clears, holds, restarts⟩

end Sys2Proof.Machine
end
section
/-! PROOFS. What an action's tasks leave of the serials, of a restart's current step and of its completion under way. -/

namespace Sys2Proof.Machine

/-! ### The current step and its completion -/

/-- What names a restart's current step. -/
def RestartRecord.stepOf (r : RestartRecord) : Nat × Nat × Snapshot := (r.serial, r.stepIndex, r.snapshot)

/-- Strand `k` stands at the same step of the same restart, and the same completions of it are under way. -/
structure SameStep (k : Strand) (s t : State) : Prop where
  step : (t.record? k).map RestartRecord.stepOf = (s.record? k).map RestartRecord.stepOf
  claims : ∀ n, t.inFlight.contains (.restartCompleteClaim k n) = s.inFlight.contains (.restartCompleteClaim k n)

/-- No step has been left and none completed; the serials and every drive_lost are the same. -/
structure Undone (s t : State) : Prop where
  serials : t.nextSerial = s.nextSerial
  same : ∀ k, SameStep k s t
  driveLost : ∀ k, (t.strand k).driveLost = (s.strand k).driveLost

section
variable {k : Strand} {s t u : State}

theorem SameStep.refl (k : Strand) (s : State) : SameStep k s s := ⟨rfl, fun _ => rfl⟩

theorem SameStep.trans (a : SameStep k s t) (b : SameStep k t u) : SameStep k s u :=
  ⟨b.step.trans a.step, fun n => (b.claims n).trans (a.claims n)⟩

theorem SameStep.of_strand (hs : t.strand k = s.strand k) (hf : t.inFlight = s.inFlight) : SameStep k s t :=
  ⟨by rw [State.record?, hs]; rfl, fun n => by rw [hf]⟩

theorem Undone.trans (a : Undone s t) (b : Undone t u) : Undone s u :=
  ⟨b.serials.trans a.serials, fun k => (a.same k).trans (b.same k), fun k => (b.driveLost k).trans (a.driveLost k)⟩

theorem undone_of_eq (hs : t.strands = s.strands) (hn : t.nextSerial = s.nextSerial) (hf : t.inFlight = s.inFlight) :
    Undone s t := by
  have strand : ∀ k, t.strand k = s.strand k := fun k => congrArg (Tab.look · k) hs
  exact ⟨hn, fun k => .of_strand (strand k) hf, fun k => congrArg StrandContext.driveLost (strand k)⟩

theorem Undone.refl (s : State) : Undone s s := undone_of_eq rfl rfl rfl

theorem modRecord_undone {f : RestartRecord → RestartRecord} (hf : ∀ r, (f r).stepOf = r.stepOf) (k : Strand) (s : State) :
    Undone s (modRecord k f s) := by
  refine ⟨by simp, fun j => ⟨?_, fun n => by rw [modRecord_inFlight]⟩, fun j => ?_⟩
  · obtain strand | ⟨r, hr, rfl, strand⟩ := modRecord_strand k j f s
    · rw [State.record?, strand]; rfl
    · rw [hr, State.record?, strand]
      exact congrArg some (hf r)
  · obtain strand | ⟨r, hr, rfl, strand⟩ := modRecord_strand k j f s
    · rw [strand]
    · rw [strand]

theorem updUnit_undone (k : Strand) (f : UnitState → UnitState) (s : State) : Undone s (updUnit k f s) :=
  undone_of_eq (by simp) (by simp) (by simp)

theorem modPool_undone (p : PoolId) (f : Pool → Pool) (s : State) : Undone s (modPool p f s) :=
  undone_of_eq (by simp) (by simp) (by simp)

theorem modGrant_undone (p : PoolId) (k : Strand) (f : Grant → Grant) (s : State) : Undone s (modGrant p k f s) :=
  undone_of_eq (by simp) (by simp) (by simp)

theorem toPhase_undone (k : Strand) (ph : Phase) (t : Option Nat) (s : State) : Undone s (toPhase k ph t s) := by
  unfold toPhase
  refine modRecord_undone (fun _ => ?_) k s
  rfl

theorem stopStep_undone (k : Strand) (s : State) : Undone s (stopStep k s) := by
  unfold stopStep
  refine modRecord_undone (fun _ => ?_) k s
  rfl

theorem loadStep_undone (k : Strand) (p : Step) (s : State) : Undone s (loadStep k p s) := by
  unfold loadStep
  refine modRecord_undone (fun _ => ?_) k s
  rfl

theorem joinWaits_undone (p : PoolId) (k : Strand) (s : State) : Undone s (joinWaits p k s) := modPool_undone p _ s

/-! ### A step begun -/

/-- What is sent on is no completion. -/
theorem emit_undone {i : Instr} (h : ∀ k n, Instr.restartCompleteClaim k n ≠ i) (s : State) : Undone s (emit i s) := by
  refine ⟨rfl, fun k => ⟨rfl, fun n => ?_⟩, fun _ => rfl⟩
  have other : [i].contains (.restartCompleteClaim k n) = false := by simp [h]
  exact (List.contains_append ..).trans (by rw [other, Bool.or_false])

theorem failStep_undone (k : Strand) (f : StepFailure) (s : State) : Undone s (failStep k f s) := by
  unfold failStep
  split
  · exact (stopStep_undone k s).trans (emit_undone (by simp) _)
  · exact .refl s

theorem requestSlot_undone (p : PoolId) (k : Strand) (s : State) : Undone s (requestSlot p k s).1 := by
  unfold requestSlot
  split
  · exact failStep_undone k _ s
  · exact (toPhase_undone k _ _ s).trans (joinWaits_undone p k _)

theorem writeSource_undone (k : Strand) (src : LevelSource) (s : State) : Undone s (writeSource k src s) := by
  cases src with
  | strand => exact .refl s
  | plan p =>
    rw [writeSource, writeLevelSet]
    have stored : Undone s { s with working := { s.working with levels := s.working.levels.put k p } } :=
      undone_of_eq rfl rfl rfl
    dsimp only
    split
    · exact stored.trans (updUnit_undone k _ _)
    · exact stored

theorem beginAction_undone (k : Strand) (a : Action) (s : State) : Undone s (beginAction k a s).1 := by
  cases a with
  | check m => exact toPhase_undone k _ _ s
  | cool z => exact updUnit_undone k (fun u => { u with cooling := z }) s
  | drive => exact requestSlot_undone .drive k s
  | opening => exact requestSlot_undone .pour k s
  | level src =>
    unfold beginAction beginLevel
    dsimp only
    split
    · exact failStep_undone k _ s
    · exact ((writeSource_undone k src s).trans (updUnit_undone k _ _)).trans (toPhase_undone k _ _ _)
  | wait => exact toPhase_undone k _ _ s
  | draw a b c =>
    unfold beginAction beginDraw
    dsimp only
    repeat' split
    · exact (updUnit_undone k _ s).trans (toPhase_undone k _ _ _)
    · exact (updUnit_undone k _ s).trans (toPhase_undone k _ _ _)
    · exact failStep_undone k _ s
  | handover => exact toPhase_undone k _ _ s

theorem beginStep_undone (k : Strand) (s : State) : Undone s (beginStep k s).1 := by
  unfold beginStep
  split
  · exact (loadStep_undone k _ s).trans (beginAction_undone k _ _)
  · exact .refl s

/-! ### A grant -/

theorem openForAttempt_undone (k : Strand) (s : State) : Undone s (openForAttempt k s) := by
  unfold openForAttempt
  split
  · exact ((updUnit_undone k _ s).trans (modGrant_undone .pour k _ _)).trans (toPhase_undone k _ _ _)
  · exact .refl s

theorem takePourGrant_undone (k : Strand) (s : State) : Undone s (takePourGrant k s) := by
  unfold takePourGrant
  dsimp only
  repeat' split
  · exact openForAttempt_undone k s
  · exact (toPhase_undone k _ _ s).trans (openForAttempt_undone k _)
  · exact toPhase_undone k _ _ s

theorem takeDriveGrant_undone (k : Strand) (s : State) : Undone s (takeDriveGrant k s).1 := by
  unfold takeDriveGrant
  dsimp only
  split
  · exact ((updUnit_undone k _ s).trans (modGrant_undone .drive k _ _)).trans (toPhase_undone k _ _ _)
  · exact (updUnit_undone k _ s).trans (toPhase_undone k _ _ _)

theorem deliverGrant_undone (p : PoolId) (k : Strand) (s : State) : Undone s (deliverGrant p k s).1 := by
  unfold deliverGrant
  split
  · cases p with
    | pour => exact takePourGrant_undone k s
    | drive => exact takeDriveGrant_undone k s
  · exact .refl s

theorem grantPass_undone (p : PoolId) (s : State) : Undone s (grantPass p s).1 := by
  unfold grantPass
  split
  · split
    · exact .refl s
    · next e rest _ =>
      have granted : Undone s (makeGrant p e.strand rest s) := undone_of_eq (by simp) (by simp) (by simp)
      exact granted.trans (deliverGrant_undone p e.strand _)
  · exact .refl s

/-! ### A task -/

theorem advanceStep_serials (k : Strand) (s : State) : (advanceStep k s).nextSerial = s.nextSerial :=
  (pend_nextSerial ..).trans ((modRecord_nextSerial ..).trans (modRecord_nextSerial ..))

theorem finishStep_serials (k : Strand) (s : State) : (finishStep k s).1.nextSerial = s.nextSerial := by
  unfold finishStep
  repeat' split
  · rfl
  · exact advanceStep_serials k s
  · exact modRecord_nextSerial ..

theorem runTask_serials (t : Task) (s : State) : (runTask t s).1.nextSerial = s.nextSerial := by
  cases t with
  | enterStep k => exact (beginStep_undone k s).serials
  | completeStep k => exact finishStep_serials k s
  | grantChoice p => exact (grantPass_undone p s).serials
  | inrushEnd k => exact modPool_nextSerial ..

theorem drain_serials (l : List Task) (s : State) : (drain l s).nextSerial = s.nextSerial :=
  drain_keeps (P := fun t => t.nextSerial = s.nextSerial) (fun t u h => (runTask_serials t u).trans h) l s rfl

/-- Another strand's step completes. -/
theorem finishStep_sameStep {j : Strand} (hj : k ≠ j) (s : State) :
    SameStep k s (finishStep j s).1 ∧ ((finishStep j s).1.strand k).driveLost = (s.strand k).driveLost := by
  have strand : ∀ f s, (modRecord j f s).strand k = s.strand k := fun f s => (modRecord_elsewhere hj f s).1
  unfold finishStep
  repeat' split
  · exact ⟨.refl k s, rfl⟩
  · have kept : (advanceStep j s).strand k = s.strand k := by rw [advanceStep, pend_strand, strand, stopStep, strand]
    refine ⟨.of_strand kept ?_, by rw [kept]⟩
    rw [advanceStep, pend_inFlight, modRecord_inFlight, stopStep, modRecord_inFlight]
  · next r _ _ =>
    have stopped : SameStep k s (stopStep j s) := (stopStep_undone j s).same k
    have kept : (stopStep j s).strand k = s.strand k := strand _ s
    refine ⟨stopped.trans ⟨rfl, fun n => ?_⟩, congrArg StrandContext.driveLost kept⟩
    have other : [Instr.restartCompleteClaim j r.serial].contains (.restartCompleteClaim k n) = false := by simp [hj]
    exact (List.contains_append ..).trans (by rw [other, Bool.or_false])

/-- A task that does not name the strand's step, a grant to the strand among them. -/
theorem runTask_sameStep {t : Task} (ht : t.avoids k) (s : State) :
    SameStep k s (runTask t s).1 ∧ ((runTask t s).1.strand k).driveLost = (s.strand k).driveLost := by
  cases t with
  | enterStep j => exact ⟨(beginStep_undone j s).same k, (beginStep_undone j s).driveLost k⟩
  | completeStep j => exact finishStep_sameStep ht s
  | grantChoice p => exact ⟨(grantPass_undone p s).same k, (grantPass_undone p s).driveLost k⟩
  | inrushEnd j =>
    obtain ⟨strand, -⟩ := (dropGrant_elsewhere ht .drive s).trans
      (modStrand_elsewhere ht (fun c => { c with driveLost := false }) (dropGrant .drive j s))
    exact ⟨.of_strand strand (modPool_inFlight ..), congrArg StrandContext.driveLost strand⟩

/-! ### A restart, as operations at other strands leave it -/

theorem Around.serials (h : Around k s t) : s.nextSerial ≤ t.nextSerial := by
  induction h with
  | aside h => exact h.serials
  | drain s _ => exact Nat.le_of_eq (drain_serials _ s).symm
  | trans _ _ before after => exact Nat.le_trans before after

theorem Around.record (h : Around k s t) {r : RestartRecord} (hr : s.record? k = some r) :
    ∃ r', t.record? k = some r' ∧ r.Onward r' := by
  induction h generalizing r with
  | aside h =>
    obtain ⟨strand, -⟩ := h.elsewhere
    exact ⟨r, by rw [State.record?, strand]; exact hr, .refl r⟩
  | drain s _ => exact (drain_onward _ s k).1 r hr
  | trans _ _ before after =>
    obtain ⟨r', hr', onward⟩ := before hr
    obtain ⟨r'', hr'', onward'⟩ := after hr'
    exact ⟨r'', hr'', onward.trans onward'⟩

end

end Sys2Proof.Machine
end
section
/-! PROOFS. The release claim of an entry into RELEASING at one strand (R16, R133, log 13). -/

namespace Sys2Proof.Machine

section
variable {k j : Strand} {s t u : State}

/-! ### The Coordinator hears of one strand -/

/-- The Coordinator has heard nothing, or that strand `j` has settled (R134). -/
def Hears (j : Strand) (s t : State) : Prop := t.coordinator = s.coordinator ∨ t.coordinator = s.coordinator.settled j

/-- The entry into RELEASING is under way (R133). -/
def Entering (s : State) : Prop := s.coordinator.state = .releasing ∧ s.coordinator.entering = true

theorem faultHalted_hears (cause : HaltCause) (c : FaultCode) (d : Nat) (s : State) :
    (enterHalted k cause (writeFault k c d s)).coordinator = s.coordinator.settled k :=
  (enterHalted_coordinator k _ cause).trans (by rw [writeFault_coordinator])

theorem enterRestarting_coordinator (k : Strand) (kind : RestartKind) (n : Fin 32) (p : Plan) (s : State) :
    (enterRestarting k kind n p s).coordinator = s.coordinator := by
  obtain ⟨-, -, -, -, -, coordinator, -⟩ := drain_carried [.enterStep k] (begunRestart k kind n p s)
  exact coordinator.trans (pend_coordinator _ _)

theorem restartFromHeld_hears (k : Strand) (s : State) : Hears k s (restartFromHeld k s) := by
  unfold restartFromHeld
  dsimp only
  split
  · exact .inl (enterRestarting_coordinator k _ _ _ s)
  · exact .inr (faultHalted_hears _ _ _ s)

/-- A failure of the released strand's own first step ends its restart; without one nothing is taken (R133, log 13). -/
theorem takeOwnFailure_cases (k : Strand) (s : State) : takeOwnFailure k s = s ∨
    ((s.record? k).isSome = true ∧ ∃ code detail l,
      takeOwnFailure k s = stopStrand k .fault (writeFault k code detail { s with inFlight := l })) := by
  unfold takeOwnFailure
  split
  · exact .inl rfl
  · next r hr =>
    split
    · next j c found =>
      have own : isFailureOf k r.serial (.stepFailureClaim j c) = true := List.find?_some found
      rw [isFailureOf, Bool.and_eq_true, beq_iff_eq, beq_iff_eq] at own
      exact .inr ⟨by rw [hr]; rfl, _, _, _, takeFailure_own hr own.2.symm⟩
    · exact .inl rfl

theorem takeOwnFailure_hears (k : Strand) (s : State) : Hears k s (takeOwnFailure k s) := by
  rcases takeOwnFailure_cases k s with kept | ⟨-, code, detail, l, ended⟩
  · exact .inl (by rw [kept])
  · rw [ended]
    exact .inr ((stopStrand_coordinator k _ .fault).trans (by rw [writeFault_coordinator]))

theorem releaseFlag_hears (f : HoldFlag) (k : Strand) (s : State) : Hears k s (releaseFlag f k s) := by
  have reported : (modReported k (StrandContext.setFlag f false) s).coordinator = s.coordinator := modReported_coordinator ..
  have restarts := restartFromHeld_hears k (modReported k (StrandContext.setFlag f false) s)
  rw [Hears, reported] at restarts
  unfold releaseFlag
  dsimp only
  split
  · split
    · split
      · exact .inl reported
      · exact restarts
    all_goals exact .inl reported
  · exact .inl rfl

/-! ### Strands other than the one released -/

/-- Strand `k` keeps its membership of the release set while the entry is under way, and the weight is kept. -/
def Member (k : Strand) (s t : State) : Prop := SameWeights s t ∧
  (Entering s → Entering t ∧ t.coordinator.releaseSet.look k = s.coordinator.releaseSet.look k)

theorem Member.refl (k : Strand) (s : State) : Member k s s := ⟨.refl s, fun h => ⟨h, rfl⟩⟩

theorem Member.trans (a : Member k s t) (b : Member k t u) : Member k s u := by
  obtain ⟨weights, kept⟩ := a
  obtain ⟨weights', kept'⟩ := b
  refine ⟨weights.trans weights', fun h => ?_⟩
  obtain ⟨entering, look⟩ := kept h
  obtain ⟨entering', look'⟩ := kept' entering
  exact ⟨entering', look'.trans look⟩

/-- The entry stays under way whoever settles (R133, item 6). -/
theorem settled_entering {c : Coordinator} (j : Strand) (hs : c.state = .releasing) (he : c.entering = true) :
    (c.settled j).state = .releasing ∧ (c.settled j).entering = true := by
  unfold Coordinator.settled
  split
  · exact ⟨if_neg fun ⟨_, no⟩ => (nomatch he.symm.trans no), he⟩
  · exact ⟨hs, he⟩

theorem Hears.entering (h : Hears j s t) (he : Entering s) : Entering t := by
  obtain ⟨state, entering⟩ := he
  rcases h with h | h
  · rw [Entering, h]
    exact ⟨state, entering⟩
  · rw [Entering, h]
    exact settled_entering j state entering

theorem Hears.weights (h : Hears j s t) : SameWeights s t := by
  rcases h with h | h
  · rw [SameWeights, h]
    exact ⟨rfl, rfl⟩
  · exact .of_settled h

theorem Hears.member (h : Hears j s t) (hj : k ≠ j) : Member k s t := by
  refine ⟨h.weights, fun he => ⟨h.entering he, ?_⟩⟩
  rcases h with h | h
  · rw [h]
  · rw [h, settled_look _ hj]

theorem releaseTundish_member (hj : k ≠ j) (s : State) : Member k s (releaseTundish j s) := by
  have released : Member k s (releaseFlag .tundish j s) := (releaseFlag_hears .tundish j s).member hj
  unfold releaseTundish
  split
  · exact released.trans ((takeOwnFailure_hears j _).member hj)
  · exact released

/-- The released strand's own claim leaves the entry under way, and the weight. -/
theorem releaseTundish_entering (k : Strand) (s : State) :
    SameWeights s (releaseTundish k s) ∧ (Entering s → Entering (releaseTundish k s)) := by
  have released := releaseFlag_hears .tundish k s
  have failed := takeOwnFailure_hears k (releaseFlag .tundish k s)
  unfold releaseTundish
  split
  · exact ⟨released.weights.trans failed.weights, fun h => failed.entering (released.entering h)⟩
  · exact ⟨released.weights, released.entering⟩

end

end Sys2Proof.Machine
end
section
/-! PROOFS. The released strand among the others (R16, R133): what the entry into RELEASING makes of it. -/

namespace Sys2Proof.Machine

section
variable {k j : Strand} {s t u : State}

/-! ### Conditions entered -/

theorem enterHalted_condition (k : Strand) (cause : HaltCause) (s : State) :
    ((enterHalted k cause s).strand k).condition = .halted cause ∧ ((enterHalted k cause s).strand k).heldForTundish = false := by
  unfold enterHalted
  dsimp only
  rw [pend_strand, reportSettled_strand, modStrand_strand_same]
  exact ⟨rfl, rfl⟩

theorem enterDry_condition (k : Strand) (s : State) :
    ((enterDry k s).strand k).condition = .dry ∧ ((enterDry k s).strand k).heldForTundish = false := by
  unfold enterDry
  rw [pend_strand, reportSettled_strand, modStrand_strand_same]
  exact ⟨rfl, rfl⟩

theorem stopStrand_condition (k : Strand) (cause : HaltCause) (s : State) :
    (((stopStrand k cause s).strand k).condition = .halted cause ∨
      (((stopStrand k cause s).strand k).condition = .dry ∧ (s.strand k).steel = false)) ∧
      ((stopStrand k cause s).strand k).heldForTundish = false := by
  unfold stopStrand
  split
  · obtain ⟨condition, flag⟩ := enterHalted_condition k cause s
    exact ⟨.inl condition, flag⟩
  · next steel =>
    obtain ⟨condition, flag⟩ := enterDry_condition k s
    exact ⟨.inr ⟨condition, Bool.not_eq_true _ ▸ steel⟩, flag⟩

/-! ### A strand that is not released -/

/-- HELD for the tundish and for nothing else (R16). -/
def HeldAlone (c : StrandContext) : Prop :=
  c.condition = .held ∧ c.heldForTundish = true ∧ c.heldForDip = false ∧ c.heldByOperator = false

/-- The release claim of a strand that it does not restart clears its flag alone (R16). -/
theorem releaseFlag_tundish_clears (h : ¬ HeldAlone (s.strand k)) :
    (releaseFlag .tundish k s).strand k = { s.strand k with heldForTundish := false } ∧
      (releaseFlag .tundish k s).unit k = s.unit k ∧ (releaseFlag .tundish k s).coordinator = s.coordinator := by
  by_cases hf : (s.strand k).flag .tundish = true
  · have dropped : releaseFlag .tundish k s = dropFlag .tundish k s := by
      cases hc : (s.strand k).condition with
      | held =>
        rw [releaseFlag_held hc hf, if_pos]
        refine Classical.byContradiction fun none => ?_
        simp only [StrandContext.setFlag, StrandContext.anyHold, Bool.false_or, Bool.or_eq_true, not_or, Bool.not_eq_true] at none
        obtain ⟨dip, operator⟩ := none
        exact h ⟨hc, hf, dip, operator⟩
      | dry | restarting | casting | halted | offline =>
        rw [releaseFlag, if_pos hf, modReported_clear hf, hc, dropFlag]
    rw [dropped, dropFlag_strand, State.unit, dropFlag_units]
    exact ⟨rfl, rfl, pend_coordinator _ _⟩
  · have flag : (s.strand k).heldForTundish = false := Bool.not_eq_true _ ▸ hf
    have kept : { s.strand k with heldForTundish := false } = s.strand k := by rw [← flag]
    rw [releaseFlag, if_neg hf, kept]
    exact ⟨rfl, rfl, rfl⟩

/-- A strand held for more, or not held for the tundish, is not restarted by the entry (R16, R133). -/
theorem releaseTundish_clears (h : ¬ HeldAlone (s.strand k))
    (hm : s.coordinator.releaseSet.look k = true → (s.strand k).condition = .held) :
    (releaseTundish k s).strand k = { s.strand k with heldForTundish := false } ∧
      (releaseTundish k s).unit k = s.unit k ∧ (releaseTundish k s).coordinator = s.coordinator := by
  have cleared := releaseFlag_tundish_clears h
  unfold releaseTundish
  split
  · next member =>
    have none : (releaseFlag .tundish k s).record? k = none := by
      rw [State.record?, cleared.1, hm member]
      rfl
    have kept : takeOwnFailure k (releaseFlag .tundish k s) = releaseFlag .tundish k s := by rw [takeOwnFailure, none]
    rwa [kept]
  · exact cleared

/-! ### A strand that is released -/

/-- The kind of a restart from HELD (R16). -/
def heldKind (c : StrandContext) : RestartKind := if c.driveLost then .dip else .flying

/-- What the release has made of a strand held for the tundish alone (R16, R48, R133). -/
inductive Released (k : Strand) (s t : State) : Prop where
  | restarts (r : RestartRecord) : lookupPlan s.working k (heldKind (s.strand k)) ≠ none → t.record? k = some r →
      r.kind = heldKind (s.strand k) → s.nextSerial ≤ r.serial → t.coordinator.releaseSet.look k = true →
      (t.strand k).heldForTundish = false → Released k s t
  | fails : lookupPlan s.working k (heldKind (s.strand k)) ≠ none →
      (t.strand k).condition = .halted .fault ∨ ((t.strand k).condition = .dry ∧ (s.strand k).steel = false) →
      t.coordinator.releaseSet.look k = false → (t.strand k).heldForTundish = false → Released k s t
  | noPlan : (t.strand k).condition = .halted .noPlan → t.coordinator.releaseSet.look k = false →
      (t.strand k).heldForTundish = false → Released k s t

theorem restartFromHeld_released (ht : (s.strand k).heldForTundish = false)
    (hs : s.coordinator.state = .releasing) (hm : s.coordinator.releaseSet.look k = true) :
    Released k s (takeOwnFailure k (restartFromHeld k s)) := by
  cases plan : lookupPlan s.working k (heldKind (s.strand k)) with
  | none =>
    have halted : restartFromHeld k s = enterHalted k .noPlan (writeFault k .noPlan (kindCode (heldKind (s.strand k))) s) :=
      restartFromHeld_none plan
    obtain ⟨condition, flag⟩ :=
      enterHalted_condition k .noPlan (writeFault k .noPlan (kindCode (heldKind (s.strand k))) s)
    rw [← halted] at condition flag
    have none : (restartFromHeld k s).record? k = none := by
      rw [State.record?, condition]
      rfl
    have kept : takeOwnFailure k (restartFromHeld k s) = restartFromHeld k s := by rw [takeOwnFailure, none]
    rw [kept]
    refine .noPlan condition ?_ flag
    rw [halted, faultHalted_hears]
    exact settled_leaves k hs
  | some found =>
    obtain ⟨n, p⟩ := found
    have found : lookupPlan s.working k (heldKind (s.strand k)) ≠ none := by rw [plan]; nofun
    have restarts : restartFromHeld k s = enterRestarting k (heldKind (s.strand k)) n p s := restartFromHeld_some plan
    obtain ⟨r, record, serial, kind, -⟩ := enterRestarting_record (s := s) (k := k) (heldKind (s.strand k)) n p
    obtain ⟨steel, tundish, -⟩ := enterRestarting_context (s := s) (k := k) (heldKind (s.strand k)) n p
    have coordinator := enterRestarting_coordinator k (heldKind (s.strand k)) n p s
    rw [← restarts] at record steel tundish coordinator
    rcases takeOwnFailure_cases k (restartFromHeld k s) with kept | ⟨-, code, detail, l, ended⟩
    · rw [kept]
      exact .restarts r found record kind (Nat.le_of_eq serial.symm) (by rw [coordinator]; exact hm) (tundish.trans ht)
    · obtain ⟨condition, flag⟩ :=
        stopStrand_condition k .fault (writeFault k code detail { restartFromHeld k s with inFlight := l })
      rw [← ended, writeFault_strand] at condition
      refine .fails found (condition.imp_right fun ⟨dry, cold⟩ => ⟨dry, steel.symm.trans cold⟩) ?_ (by rw [ended]; exact flag)
      rw [ended, stopStrand_coordinator, writeFault_coordinator]
      exact settled_leaves k (coordinator ▸ hs)

theorem releaseTundish_released (h : HeldAlone (s.strand k)) (hs : s.coordinator.state = .releasing)
    (hm : s.coordinator.releaseSet.look k = true) : Released k s (releaseTundish k s) := by
  obtain ⟨hc, ht, hd, ho⟩ := h
  have alone : ¬ ((s.strand k).setFlag .tundish false).anyHold = true := by
    simp [StrandContext.setFlag, StrandContext.anyHold, hd, ho]
  have coordinator : (dropFlag .tundish k s).coordinator = s.coordinator := pend_coordinator _ _
  have serial : (dropFlag .tundish k s).nextSerial = s.nextSerial := pend_nextSerial _ _
  have strand : (dropFlag .tundish k s).strand k = (s.strand k).setFlag .tundish false := dropFlag_strand .tundish
  have released := restartFromHeld_released (s := dropFlag .tundish k s) (k := k)
    (by rw [strand]; rfl) (by rw [coordinator]; exact hs) (by rw [coordinator]; exact hm)
  have kind : heldKind ((dropFlag .tundish k s).strand k) = heldKind (s.strand k) := by rw [strand]; rfl
  have steel : ((dropFlag .tundish k s).strand k).steel = (s.strand k).steel := by rw [strand]; rfl
  rw [releaseTundish, if_pos hm, releaseFlag_held (f := .tundish) hc ht, if_neg alone]
  cases released with
  | restarts r found record kind' serial' member flag =>
    rw [kind, dropFlag_working] at found
    exact .restarts r found record (kind'.trans kind) (serial ▸ serial') member flag
  | fails found condition member flag =>
    rw [kind, dropFlag_working] at found
    exact .fails found (condition.imp_right fun ⟨dry, cold⟩ => ⟨dry, steel.symm.trans cold⟩) member flag
  | noPlan condition member flag => exact .noPlan condition member flag

/-- What follows at other strands leaves the release as it is. -/
theorem Released.away (h : Released k s t) (a : Away k t u)
    (hm : u.coordinator.releaseSet.look k = t.coordinator.releaseSet.look k) : Released k s u := by
  obtain ⟨-, -, tundish, -⟩ := a.same
  cases h with
  | restarts r found record kind serial member flag =>
    obtain ⟨r', record', onward⟩ := a.around.record record
    obtain ⟨sameSerial, sameKind, -⟩ := onward
    exact .restarts r' found record' (sameKind.trans kind) (sameSerial ▸ serial) (hm.trans member) (tundish.trans flag)
  | fails found condition member flag =>
    have none : t.record? k = none := by
      rcases condition with condition | ⟨condition, -⟩ <;> rw [State.record?, condition] <;> rfl
    rw [← (a.unmoved none).1] at condition
    exact .fails found condition (hm.trans member) (tundish.trans flag)
  | noPlan condition member flag =>
    have none : t.record? k = none := by rw [State.record?, condition]; rfl
    rw [← (a.unmoved none).1] at condition
    exact .noPlan condition (hm.trans member) (tundish.trans flag)

end

end Sys2Proof.Machine
end
section
/-! PROOFS. A weight at the open threshold (R133): the entry into RELEASING. -/

namespace Sys2Proof.Machine

section
variable {k : Strand} {s t u : State}

/-! ### The stages of the entry -/

/-- The Coordinator as the entry begins (R133, items 1 and 2). -/
def beginRelease (w : Nat) (s : State) : State := { s with coordinator := { s.coordinator with
  state := .releasing
  releaseSet := Vector.ofFn (heldForTundish s)
  lastWeight := some w
  entering := true } }

/-- The state in which the release claims have been made (R133, items 3 and 4). -/
def releaseAll (w : Nat) (s : State) : State := forConfigured releaseTundish (beginRelease w s)

/-- The end of the entry (R133, items 5 and 6). -/
def endRelease (s : State) : State := endEntry (pend .tundish (openPool .pour s))

theorem takeWeight_releases {w : Nat} (h : s.coordinator.state = .filling) (hw : s.working.caster.openThreshold ≤ w) :
    takeWeight w s = endRelease (releaseAll w s) := by
  rw [takeWeight, h]
  exact (if_pos hw).trans (congrArg (fun t => endRelease (forConfigured releaseTundish t)) rfl)

theorem beginRelease_away (k : Strand) (w : Nat) (s : State) : Away k s (beginRelease w s) :=
  modCoordinator_away k (fun c => { c with
    state := .releasing, releaseSet := Vector.ofFn (heldForTundish s), lastWeight := some w, entering := true }) s

/-- Strand `k` among the others that are released. -/
theorem releaseAll_split (w : Nat) (hk : s.isConfigured k = true) : ∃ u, Away k s u ∧
    Member k (beginRelease w s) u ∧ Away k (releaseTundish k u) (releaseAll w s) ∧
    Member k (releaseTundish k u) (releaseAll w s) := by
  obtain ⟨u, before, -, after⟩ := forConfigured_split (k := k) (s := beginRelease w s)
    (R := fun s t => Away k s t ∧ Member k s t) (fun s => ⟨.refl k s, .refl k s⟩)
    (fun _ _ _ ⟨a1, a2⟩ ⟨b1, b2⟩ => ⟨a1.trans b1, a2.trans b2⟩) (fun _ _ h => h.1.count) releaseTundish
    (fun j s hj hc => ⟨releaseTundish_away hj s hc, releaseTundish_member hj s⟩) hk
  exact ⟨u, (beginRelease_away k w s).trans before.1, before.2, after.1, after.2⟩

theorem beginRelease_member (w : Nat) (hk : s.isConfigured k = true) : (beginRelease w s).coordinator.releaseSet.look k =
    ((s.strand k).condition == .held && (s.strand k).heldForTundish) := by
  rw [beginRelease, look_ofFn, heldForTundish, hk, Bool.true_and]

/-- The plan a restart takes does not hang on the level parameters (R48). -/
theorem lookupPlan_of_outside (h : Outside s t) (kind : RestartKind) :
    lookupPlan t.working k kind = lookupPlan s.working k kind := by
  obtain ⟨-, settings, -⟩ := h
  rw [settings]
  rfl

/-- What comes before at other strands leaves the release as it is. -/
theorem Released.after (h : Released k s t) (strand : s.strand k = u.strand k) (a : Away k u s) : Released k u t := by
  have serial := a.around.serials
  cases h with
  | restarts r found record kind serial' member flag =>
    rw [strand, lookupPlan_of_outside a.outside] at found
    exact .restarts r found record (strand ▸ kind) (Nat.le_trans serial serial') member flag
  | fails found condition member flag =>
    rw [strand, lookupPlan_of_outside a.outside] at found
    exact .fails found (strand ▸ condition) member flag
  | noPlan condition member flag => exact .noPlan condition member flag

section
variable (w : Nat) (hk : s.isConfigured k = true)
include hk

theorem releaseAll_released (h : HeldAlone (s.strand k)) : Released k s (releaseAll w s) := by
  obtain ⟨u, before, ⟨-, member⟩, after, -, member'⟩ := releaseAll_split w hk
  have none : s.record? k = none := congrArg Condition.record? h.1
  have strand : u.strand k = s.strand k := (before.unmoved none).1
  have joins : (beginRelease w s).coordinator.releaseSet.look k = true := by
    rw [beginRelease_member w hk, h.1, h.2.1]
    rfl
  obtain ⟨entering, look⟩ := member ⟨rfl, rfl⟩
  have released := releaseTundish_released (by rw [strand]; exact h) entering.1 (look.trans joins)
  have outcome := released.away after (member' ((releaseTundish_entering k u).2 entering)).2
  exact outcome.after strand before

theorem releaseAll_entering : Entering (releaseAll w s) ∧ (releaseAll w s).coordinator.lastWeight = some w := by
  obtain ⟨u, -, ⟨weights, member⟩, -, weights', member'⟩ := releaseAll_split (s := s) w hk
  obtain ⟨own, entering⟩ := releaseTundish_entering k u
  obtain ⟨-, last⟩ := (weights.trans own).trans weights'
  exact ⟨(member' (entering (member ⟨rfl, rfl⟩).1)).1, last⟩

/-- A strand that the entry does not restart loses its flag alone (R16, R133). -/
theorem releaseAll_clears (h : ¬ HeldAlone (s.strand k)) :
    ((releaseAll w s).strand k).condition.name = (s.strand k).condition.name ∧
      ((releaseAll w s).strand k).steel = (s.strand k).steel ∧ ((releaseAll w s).strand k).heldForTundish = false ∧
      (releaseAll w s).coordinator.releaseSet.look k =
        ((s.strand k).condition == .held && (s.strand k).heldForTundish) ∧
      (s.record? k = none → (releaseAll w s).strand k = { s.strand k with heldForTundish := false } ∧
        (releaseAll w s).unit k = s.unit k) := by
  obtain ⟨u, before, ⟨-, member⟩, after, -, member'⟩ := releaseAll_split w hk
  obtain ⟨entering, look⟩ := member ⟨rfl, rfl⟩
  rw [beginRelease_member w hk] at look
  obtain ⟨name, steel, tundish, dip, operator, -⟩ := before.same
  have held : (u.strand k).condition = .held ↔ (s.strand k).condition = .held :=
    ⟨fun e => held_of_name (by rw [← name, e]; rfl), fun e => held_of_name (by rw [name]; exact congrArg Condition.name e)⟩
  have spared : ¬ HeldAlone (u.strand k) := fun ⟨c, t, d, o⟩ =>
    h ⟨held.mp c, tundish ▸ t, dip ▸ d, operator ▸ o⟩
  obtain ⟨strand, unit, coordinator⟩ := releaseTundish_clears spared fun joined => by
    rw [look, Bool.and_eq_true, beq_iff_eq] at joined
    exact held.mpr joined.1
  obtain ⟨name', steel', tundish', -⟩ := after.same
  rw [strand] at name' steel' tundish'
  refine ⟨name'.trans name, steel'.trans steel, tundish', ?_, fun none => ?_⟩
  · rw [(member' ((releaseTundish_entering k u).2 entering)).2, coordinator, look]
  · obtain ⟨sameStrand, sameUnit⟩ := before.unmoved none
    have none' : (releaseTundish k u).record? k = .none := by
      rw [State.record?, strand, sameStrand]
      exact none
    obtain ⟨strand', unit'⟩ := after.unmoved none'
    exact ⟨strand'.trans (strand.trans (by rw [sameStrand])), unit'.trans (unit.trans sameUnit)⟩

end

theorem releaseAll_monitors (w : Nat) (s : State) : (releaseAll w s).supply = s.supply ∧ (releaseAll w s).trip = s.trip := by
  have claims := forConfigured_outside releaseTundish releaseTundish_at (beginRelease w s)
  rw [← releaseAll] at claims
  generalize releaseAll w s = t at claims ⊢
  obtain ⟨-, supply, trip, -⟩ := claims
  exact ⟨supply, trip⟩

/-! ### The end of the entry -/

theorem endEntry_away (k : Strand) (s : State) : Away k s (endEntry s) := by
  have left := modCoordinator_away k (fun c => { c with entering := false }) s
  unfold endEntry
  dsimp only
  split
  · exact (left.trans (modCoordinator_away k _ _)).trans (pend_away k _ _)
  · exact left

theorem endEntry_coordinator (h : s.coordinator.state = .releasing) : (endEntry s).coordinator = { s.coordinator with
    entering := false
    state := if s.coordinator.releaseSet.isEmpty then .steady else .releasing } := by
  unfold endEntry
  dsimp only
  split
  · next empty =>
    have none : s.coordinator.releaseSet.isEmpty = true := empty
    rw [if_pos none, enterSteady, pend_coordinator]
    rfl
  · next some =>
    have members : ¬ s.coordinator.releaseSet.isEmpty = true := some
    rw [if_neg members, ← h]
    rfl

theorem endEntry_pools (s : State) : (endEntry s).pour = s.pour ∧ (endEntry s).supply = s.supply ∧ (endEntry s).trip = s.trip := by
  unfold endEntry
  dsimp only
  split
  · exact ⟨pend_pour _ _, pend_supply _ _, pend_trip _ _⟩
  · exact ⟨rfl, rfl, rfl⟩

theorem endRelease_away (k : Strand) (s : State) : Away k s (endRelease s) :=
  ((openPool_away k .pour s).trans (pend_away k .tundish _)).trans (endEntry_away k _)

theorem endRelease_coordinator (h : s.coordinator.state = .releasing) :
    (endRelease s).coordinator.state = (if (endRelease s).coordinator.releaseSet.isEmpty then .steady else .releasing) ∧
      (endRelease s).coordinator.releaseSet = s.coordinator.releaseSet ∧
      (endRelease s).coordinator.lastWeight = s.coordinator.lastWeight := by
  obtain ⟨-, -, coordinator⟩ := openPool_fields .pour s
  have kept : (pend .tundish (openPool .pour s)).coordinator = s.coordinator := (pend_coordinator _ _).trans coordinator
  rw [endRelease, endEntry_coordinator (by rw [kept]; exact h), kept]
  exact ⟨rfl, rfl, rfl⟩

theorem endRelease_keeps (s : State) : (endRelease s).supply = s.supply ∧ (endRelease s).trip = s.trip ∧
    (endRelease s).pour.isOpen = true ∧ (endRelease s).noticePending.look Source.tundish.number = true := by
  obtain ⟨isOpen, -, -⟩ := openPool_fields .pour s
  obtain ⟨-, -, supply, trip⟩ := openPool_keeps .pour s
  obtain ⟨pour, supply', trip'⟩ := endEntry_pools (pend .tundish (openPool .pour s))
  refine ⟨supply'.trans ((pend_supply _ _).trans supply), trip'.trans ((pend_trip _ _).trans trip), ?_,
    (endEntry_away 0 _).owed _ (pend_look .tundish _ rfl)⟩
  rw [endRelease, pour, pend_pour]
  exact isOpen

end

/-- What the entry into RELEASING shows at strand `k` (R16, R133). -/
def ReleaseShown (k : Strand) (s t : State) : Prop :=
  let c := s.strand k
  let alone := c.heldForTundish = true ∧ c.heldForDip = false ∧ c.heldByOperator = false
  (t.strand k).heldForTundish = false ∧
  t.coordinator.releaseSet.look k =
    (c.condition == .held && c.heldForTundish && (t.strand k).condition.heldOrRestarting) ∧
  (c.condition = .held → alone →
    (∀ r, t.record? k = some r → r.kind = (if c.driveLost then .dip else .flying) ∧ s.nextSerial ≤ r.serial) ∧
    ((t.strand k).condition.name = .restarting ∨ (t.strand k).condition = .halted .noPlan ∨
      (t.strand k).condition = .halted .fault ∨ ((t.strand k).condition = .dry ∧ c.steel = false)) ∧
    (lookupPlan s.working k (if c.driveLost then .dip else .flying) = none →
      (t.strand k).condition = .halted .noPlan)) ∧
  (c.condition = .held → c.heldForDip = true ∨ c.heldByOperator = true →
    t.strand k = { c with heldForTundish := false } ∧ t.unit k = s.unit k) ∧
  (c.condition ≠ .held → (t.strand k).condition.name = c.condition.name ∧ (t.strand k).steel = c.steel)

section
variable {k : Strand} {s t : State}

/-- A strand held for the tundish alone. -/
theorem released_shows (alone : HeldAlone (s.strand k)) (h : Released k s t) : ReleaseShown k s t := by
  obtain ⟨held, tundish, dip, operator⟩ := alone
  have single : ¬ ((s.strand k).heldForDip = true ∨ (s.strand k).heldByOperator = true) := by rw [dip, operator]; nofun
  have member : ((s.strand k).condition == .held && (s.strand k).heldForTundish) = true := by rw [held, tundish]; rfl
  unfold ReleaseShown
  dsimp only
  rw [member, Bool.true_and]
  cases h with
  | restarts r found record kind serial joined flag =>
    have condition : (t.strand k).condition = .restarting r := condition_of_record? record
    refine ⟨flag, by rw [joined, condition]; rfl, fun _ _ => ⟨fun r' hr' => ?_, .inl (by rw [condition]; rfl),
      fun none => absurd none found⟩, fun _ more => absurd more single, fun other => absurd held other⟩
    obtain rfl := Option.some.inj (record.symm.trans hr')
    exact ⟨kind, serial⟩
  | fails found condition left flag =>
    have ended : t.record? k = none ∧ (t.strand k).condition.heldOrRestarting = false := by
      rcases condition with condition | ⟨condition, -⟩ <;> rw [State.record?, condition] <;> exact ⟨rfl, rfl⟩
    exact ⟨flag, by rw [left, ended.2], fun _ _ => ⟨fun r hr => (nomatch ended.1.symm.trans hr), .inr (.inr condition),
      fun none => absurd none found⟩, fun _ more => absurd more single, fun other => absurd held other⟩
  | noPlan condition left flag =>
    have none : t.record? k = none := by rw [State.record?, condition]; rfl
    exact ⟨flag, by rw [left, condition]; rfl, fun _ _ => ⟨fun r hr => (nomatch none.symm.trans hr), .inr (.inl condition),
      fun _ => condition⟩, fun _ more => absurd more single, fun other => absurd held other⟩

/-- Any other strand. -/
theorem cleared_shows (alone : ¬ HeldAlone (s.strand k)) (name : (t.strand k).condition.name = (s.strand k).condition.name)
    (steel : (t.strand k).steel = (s.strand k).steel) (flag : (t.strand k).heldForTundish = false)
    (look : t.coordinator.releaseSet.look k = ((s.strand k).condition == .held && (s.strand k).heldForTundish))
    (own : s.record? k = none → t.strand k = { s.strand k with heldForTundish := false } ∧ t.unit k = s.unit k) :
    ReleaseShown k s t := by
  refine ⟨flag, ?_, fun held ⟨tundish, dip, operator⟩ => absurd ⟨held, tundish, dip, operator⟩ alone,
    fun held _ => own (congrArg Condition.record? held), fun _ => ⟨name, steel⟩⟩
  rw [look]
  by_cases held : (s.strand k).condition = .held
  · have kept : (t.strand k).condition = .held := held_of_name (name.trans (congrArg Condition.name held))
    rw [kept]
    exact (Bool.and_true _).symm
  · rw [beq_eq_false_iff_ne.mpr held]
    rfl

theorem Sent.releaseShown (h : Sent s t) {r : State} (a : ReleaseShown k r s) : ReleaseShown k r t := by
  unfold ReleaseShown at a ⊢
  rw [h.1.strand, h.1.unit, h.1.record, h.1.coordinator]
  exact a

end

/-- Settles O35: the released strand's claim stands among the others', and the pool is opened after them all. -/
theorem weightReleasesTheStrands : Obligations.WeightReleasesTheStrands := by
  intro w k s filling weight hk
  obtain ⟨t, reached, sent⟩ := event_acts (i := .weightSample (.valid w)) ⟨rfl, nofun⟩ s
  have outside := takeWeight_outside w s
  rw [show effect (.weightSample (.valid w)) s = _ from takeWeight_releases filling weight] at sent
  rw [takeWeight_releases filling weight] at outside
  obtain ⟨⟨releasing, -⟩, last⟩ := releaseAll_entering (s := s) w hk
  obtain ⟨supply, trip⟩ := releaseAll_monitors w s
  have released := releaseAll_released (k := k) (s := s) w hk
  have clears := releaseAll_clears (k := k) (s := s) w hk
  generalize releaseAll w s = v at *
  have after := endRelease_away k v
  obtain ⟨state, set, last'⟩ := endRelease_coordinator releasing
  obtain ⟨supply', trip', isOpen, tundish⟩ := endRelease_keeps v
  generalize endRelease v = u at *
  obtain ⟨same, settings, -⟩ := outside
  have shown : ReleaseShown k s u := by
    by_cases alone : HeldAlone (s.strand k)
    · exact released_shows alone ((released alone).away after (by rw [set]))
    · obtain ⟨name, steel, flag, look, own⟩ := clears alone
      obtain ⟨name', steel', flag', -⟩ := after.same
      refine cleared_shows alone (name'.trans name) (steel'.trans steel) (flag'.trans flag) (by rw [set, look]) fun none => ?_
      obtain ⟨strand, unit⟩ := own none
      have none' : v.record? k = .none := by rw [State.record?, strand]; exact none
      obtain ⟨strand', unit'⟩ := after.unmoved none'
      exact ⟨strand'.trans strand, unit'.trans unit⟩
  refine ⟨t, reached, sent.2 _ (.inl tundish), sent.1.sameOutside same, sent.1.sameSettings settings,
    sent.1.supply.trans (supply'.trans supply), sent.1.trip.trans (trip'.trans trip), ?_, ?_, ?_, sent.releaseShown shown⟩
  · rw [sent.1.coordinator, last', last]
  · rw [sent.1.pour, isOpen]
  · rw [sent.1.coordinator, state]

end Sys2Proof.Machine
end
section
/-! PROOFS. A restart that waits for no DRIVE slot, or under an inrush hold, as holds at other strands leave it (R62, R86). -/

namespace Sys2Proof.Machine

/-- No grant that the strand may be given goes on with its step at once (R62). -/
def Still (k : Strand) (s : State) : Prop := s.drive.waiting k = false ∨ s.working.drive.inrushHold ≠ 0

/-- What others' operations leave of such a strand. -/
structure Paused (k : Strand) (s t : State) : Prop where
  same : SameStep k s t
  driveLost : (t.strand k).driveLost = (s.strand k).driveLost
  settings : t.working.drive = s.working.drive
  apart : s.drive.waiting k = false → t.drive.waiting k = false ∧ (t.unit k).driveRun = (s.unit k).driveRun

section
variable {k j : Strand} {s t u : State}

theorem Paused.refl (k : Strand) (s : State) : Paused k s s := ⟨.refl k s, rfl, rfl, fun h => ⟨h, rfl⟩⟩

theorem Paused.trans (a : Paused k s t) (b : Paused k t u) : Paused k s u := by
  refine ⟨a.same.trans b.same, b.driveLost.trans a.driveLost, b.settings.trans a.settings, fun h => ?_⟩
  obtain ⟨waiting, run⟩ := a.apart h
  obtain ⟨waiting', run'⟩ := b.apart waiting
  exact ⟨waiting', run'.trans run⟩

theorem Paused.still (h : Paused k s t) (hs : Still k s) : Still k t := by
  rcases hs with waiting | hold
  · exact .inl (h.apart waiting).1
  · exact .inr (by rw [h.settings]; exact hold)

/-! ### A task -/

theorem drive_of_settings {s t : State} (h : SameSettings s t) : t.working.drive = s.working.drive := by rw [h]

/-- What leaves the strand where it is leaves its place at the DRIVE pool and its drive run. -/
theorem Elsewhere.apart (h : Elsewhere k s t) (hw : s.drive.waiting k = false) :
    t.drive.waiting k = false ∧ (t.unit k).driveRun = (s.unit k).driveRun := by
  obtain ⟨-, unit, -, pools⟩ := h
  exact ⟨(pools .drive).2 hw, by rw [unit]⟩

theorem openForAttempt_driveRun (k : Strand) (s : State) :
    ((openForAttempt k s).unit k).driveRun = (s.unit k).driveRun := by
  unfold openForAttempt
  split
  · next n _ =>
    have units : (toPhase k .pouring none (openWindow k (updUnit k (UnitState.openStopper n) s))).unit k =
        (updUnit k (UnitState.openStopper n) s).unit k := by simp [State.unit, toPhase, openWindow]
    rw [units, updUnit_unit_same]
    rfl
  · rfl

theorem takePourGrant_driveRun (k : Strand) (s : State) :
    ((takePourGrant k s).unit k).driveRun = (s.unit k).driveRun := by
  have waits : ∀ t, (toPhase k .preCharge t s).unit k = s.unit k := fun t => by simp [State.unit, toPhase]
  unfold takePourGrant
  dsimp only
  repeat' split
  · exact openForAttempt_driveRun k s
  · exact (openForAttempt_driveRun k _).trans (congrArg UnitState.driveRun (waits none))
  · exact congrArg UnitState.driveRun (waits _)

/-- Strand `k` waits for no DRIVE slot, and its drive runs as in `s`. -/
def OffDrive (k : Strand) (s t : State) : Prop := t.drive.waiting k = false ∧ (t.unit k).driveRun = (s.unit k).driveRun

theorem offDrive_away (k : Strand) (s : State) : AwayKeep k (OffDrive k s) where
  elsewhere := fun t u h _ ⟨waiting, run⟩ => by
    obtain ⟨waiting', run'⟩ := h.apart waiting
    exact ⟨waiting', run'.trans run⟩
  grant := fun p e rest t he hw ⟨waiting, run⟩ => by
    obtain ⟨own, others⟩ := makeGrant_pool p k rest t
    refine ⟨?_, (congrArg UnitState.driveRun (makeGrant_unit p k rest t k)).trans run⟩
    cases p with
    | pour =>
      have drive : (makeGrant .pour k rest t).drive = t.drive := others .drive nofun
      rw [drive]
      exact waiting
    | drive =>
      have drive : (makeGrant .drive k rest t).drive.waits = rest := congrArg Pool.waits own
      rw [Pool.waiting, show t.drive.waits = e :: rest from hw, List.any_cons, Bool.or_eq_false_iff] at waiting
      rw [Pool.waiting, drive]
      exact waiting.2

/-- A grant to the strand itself. -/
theorem grantOwn_paused {p : PoolId} {e : WaitEntry} {rest : List WaitEntry} (he : e.strand = k)
    (hw : (s.pool p).waits = e :: rest) (hs : Still k s) :
    (OffDrive k s s → OffDrive k s (deliverGrant p k (makeGrant p k rest s)).1) ∧
      ∀ u ∈ (deliverGrant p k (makeGrant p k rest s)).2, Task.avoids k u := by
  cases p with
  | pour =>
    obtain ⟨-, -, -, others, -⟩ := (deliverGrant_delivered (p := .pour) (k := k) (makeGrant .pour k rest s)).served
    have drive : (deliverGrant .pour k (makeGrant .pour k rest s)).1.drive = s.drive := others .drive nofun
    have run : ((deliverGrant .pour k (makeGrant .pour k rest s)).1.unit k).driveRun = (s.unit k).driveRun := by
      rw [← makeGrant_unit .pour k rest s k]
      unfold deliverGrant
      split
      · exact takePourGrant_driveRun k _
      · rfl
    refine ⟨fun ⟨waiting, _⟩ => ⟨by rw [drive]; exact waiting, run⟩, ?_⟩
    unfold deliverGrant
    split <;> exact nofun
  | drive =>
    have waits : s.drive.waiting k = true := by
      rw [Pool.waiting, show s.drive.waits = e :: rest from hw, List.any_cons, he, beq_self_eq_true, Bool.true_or]
    refine ⟨fun ⟨waiting, _⟩ => (nomatch waits.symm.trans waiting), ?_⟩
    have hold : s.working.drive.inrushHold ≠ 0 := hs.resolve_left fun free => nomatch waits.symm.trans free
    have kept : (updUnit k UnitState.runDrive (makeGrant .drive k rest s)).working.drive.inrushHold ≠ 0 := by simpa using hold
    unfold deliverGrant
    split
    · unfold takeDriveGrant
      dsimp only
      split
      · rw [enterInrush]
        dsimp only
        rw [if_neg kept]
        exact nofun
      · exact nofun
    · exact nofun

/-- A task that does not name the strand's step, a grant to the strand among them. -/
theorem runTask_paused {x : Task} (hx : x.avoids k) (hs : Still k s) :
    Paused k s (runTask x s).1 ∧ ∀ u ∈ (runTask x s).2, Task.avoids k u := by
  obtain ⟨same, driveLost⟩ := runTask_sameStep hx s
  obtain ⟨⟨-, settings, -⟩, -⟩ := runTask_carried x s
  have A := offDrive_away k s
  suffices h : (OffDrive k s s → OffDrive k s (runTask x s).1) ∧ ∀ u ∈ (runTask x s).2, Task.avoids k u from
    ⟨⟨same, driveLost, drive_of_settings settings, fun h' => h.1 ⟨h', rfl⟩⟩, h.2⟩
  have own : s.strand k = s.strand k ∧ s.unit k = s.unit k ∧ s.levelSet k = s.levelSet k := ⟨rfl, rfl, rfl⟩
  cases x with
  | enterStep j =>
    obtain ⟨⟨-, avoids⟩, -⟩ := (away_own k s).other hx s own
    exact ⟨fun h => (A.other hx s h).1.1, avoids⟩
  | completeStep j =>
    obtain ⟨-, ⟨-, avoids⟩, -⟩ := (away_own k s).other hx s own
    exact ⟨fun h => (A.other hx s h).2.1.1, avoids⟩
  | inrushEnd j =>
    obtain ⟨-, -, -, avoids⟩ := (away_own k s).other hx s own
    exact ⟨fun h => (A.other hx s h).2.2.1, avoids⟩
  | grantChoice p =>
    have choice : ∀ u ∈ [Task.grantChoice p], Task.avoids k u := by simp [Task.avoids]
    rw [runTask, grantPass]
    split
    · split
      · exact ⟨id, nofun⟩
      · next e rest hw =>
        have delivered : (OffDrive k s s → OffDrive k s (deliverGrant p e.strand (makeGrant p e.strand rest s)).1) ∧
            ∀ u ∈ (deliverGrant p e.strand (makeGrant p e.strand rest s)).2, Task.avoids k u := by
          by_cases he : e.strand = k
          · rw [he]
            exact grantOwn_paused he hw hs
          · exact ⟨fun h => (A.grantOther he hw h).1, ((away_own k s).grantOther he hw own).2⟩
        exact ⟨delivered.1, fun u hu => (List.mem_append.mp hu).elim (delivered.2 u) (choice u)⟩
    · exact ⟨id, nofun⟩

theorem drain_paused {l : List Task} (hl : ∀ u ∈ l, Task.avoids k u) (hs : Still k s) : Paused k s (drain l s) := by
  refine drain_keeps_among (P := Paused k s) (Q := Task.avoids k) (fun x t hx ht => ?_) l s hl (.refl k s)
  obtain ⟨paused, avoids⟩ := runTask_paused hx (ht.still hs)
  exact ⟨ht.trans paused, avoids⟩

/-- Operations at other strands leave a still strand at its step. -/
theorem Around.paused (h : Around k s t) (hs : Still k s) : Paused k s t := by
  induction h with
  | aside h =>
    obtain ⟨strand, -⟩ := h.elsewhere
    exact ⟨⟨by rw [State.record?, strand]; rfl, h.claims⟩, congrArg StrandContext.driveLost strand, h.settings,
      h.elsewhere.apart⟩
  | drain s hl => exact drain_paused hl hs
  | trans _ _ before after => exact (before hs).trans (after ((before hs).still hs))

end

end Sys2Proof.Machine
end
section
/-! PROOFS. No HANDOVER is completed by an action that goes on from a DRIVE step (R62, R75): a restart whose completion comes
from another last step is not taken as one handed over. -/

namespace Sys2Proof.Machine

/-- A completion of strand `k`'s restart is under way only from a last step other than HANDOVER, and HANDOVER waits for no slot. -/
structure Unhanded (k : Strand) (s : State) : Prop where
  ended : ∀ r, s.record? k = some r → s.inFlight.contains (.restartCompleteClaim k r.serial) = true →
    s.action? k ≠ some .handover ∧ r.snapshot.plan.steps.length ≤ r.stepIndex
  waits : s.phase k = .slotWait → s.action? k ≠ some .handover

/-- At most one task names strand `k`; where one would complete its step, that step is not HANDOVER. -/
def InTurn (k : Strand) (l : List Task) (s : State) : Prop :=
  Unhanded k s ∧ ((∀ u ∈ l, Task.avoids k u) ∨
    (s.phase k ≠ .slotWait ∧ ∃ a t b, l = a ++ t :: b ∧ (∀ u ∈ a, Task.avoids k u) ∧ (∀ u ∈ b, Task.avoids k u) ∧
      (t = .enterStep k ∨ ((t = .completeStep k ∨ t = .inrushEnd k) ∧ s.action? k ≠ some .handover))))

section
variable {k j : Strand} {s t u : State}

theorem action_eq (s : State) (k : Strand) : s.action? k =
    ((s.record? k).map RestartRecord.stepOf).bind fun x => (x.2.2.plan.steps[x.2.1 - 1]?).map (·.action) := by
  rw [State.action?]
  cases s.record? k <;> rfl

theorem SameStep.action (h : SameStep k s t) : t.action? k = s.action? k := by rw [action_eq, action_eq, h.step]

theorem Unhanded.not_done (h : Unhanded k s) : handoverDone s k = false := by
  unfold handoverDone
  split
  · next r hr =>
    refine Classical.byContradiction fun done => ?_
    simp only [Bool.not_eq_false, Bool.and_eq_true, beq_iff_eq] at done
    obtain ⟨⟨-, action⟩, claim⟩ := done
    exact (h.ended r hr claim).1 action
  · rfl

/-- At the same step, unless a HANDOVER has come to wait for a slot. -/
theorem Unhanded.of_sameStep (h : Unhanded k s) (same : SameStep k s t)
    (hp : t.phase k = .slotWait → s.phase k = .slotWait ∨ s.action? k ≠ some .handover) : Unhanded k t := by
  refine ⟨fun r hr claim => ?_, fun waits => ?_⟩
  · rw [same.action]
    have step := same.step
    rw [hr] at step
    cases record : s.record? k with
    | none => rw [record] at step; cases step
    | some r' =>
      rw [record] at step
      have at_ : r.stepOf = r'.stepOf := Option.some.inj step
      rw [RestartRecord.stepOf, RestartRecord.stepOf, Prod.mk.injEq, Prod.mk.injEq] at at_
      obtain ⟨serial, index, snapshot⟩ := at_
      rw [same.claims, serial] at claim
      rw [index, snapshot]
      exact h.ended r' record claim
  · rw [same.action]
    exact (hp waits).elim h.waits id

theorem InTurn.behind {l m : List Task} (h : InTurn k l s) (hm : ∀ u ∈ m, Task.avoids k u) : InTurn k (l ++ m) s := by
  obtain ⟨unhanded, free | ⟨phase, a, t, b, rfl, ha, hb, ht⟩⟩ := h
  · exact ⟨unhanded, .inl fun u hu => (List.mem_append.mp hu).elim (free u) (hm u)⟩
  · exact ⟨unhanded, .inr ⟨phase, a, t, b ++ m, by simp, ha, fun u hu => (List.mem_append.mp hu).elim (hb u) (hm u), ht⟩⟩

theorem inTurn_completes (h : Unhanded k s) (hp : s.phase k ≠ .slotWait) (ha : s.action? k ≠ some .handover) :
    InTurn k [.completeStep k] s :=
  ⟨h, .inr ⟨hp, [], .completeStep k, [], rfl, nofun, nofun, .inr ⟨.inl rfl, ha⟩⟩⟩

theorem inTurn_choice {c : Prop} [Decidable c] (h : Unhanded k s) (hp : s.phase k ≠ .slotWait)
    (ha : s.action? k ≠ some .handover) : InTurn k (if c then [.completeStep k] else []) s := by
  split
  · exact inTurn_completes h hp ha
  · exact ⟨h, .inl nofun⟩

/-! ### The tasks that name the strand -/

/-- A step that asks for no slot waits for none, and may complete at once; HANDOVER does not (R53). -/
theorem beginAction_alone {r : RestartRecord} {a : Action} (hr : s.record? k = some r) (hp : s.phase k ≠ .slotWait)
    (ha : slotFor? a = none) : (beginAction k a s).1.phase k ≠ .slotWait ∧
      ((beginAction k a s).2 = [] ∨ ((beginAction k a s).2 = [.completeStep k] ∧ a ≠ .handover)) := by
  have choice : ∀ (c : Prop) [Decidable c],
      (if c then [Task.completeStep k] else []) = [] ∨ (if c then [Task.completeStep k] else []) = [.completeStep k] :=
    fun c _ => by split <;> simp
  cases a with
  | check m => exact ⟨by rw [beginAction, beginCheck, (toPhase_own hr .waiting none).1]; nofun, (choice _).imp_right fun h => ⟨h, nofun⟩⟩
  | cool z =>
    refine ⟨?_, .inr ⟨rfl, nofun⟩⟩
    rw [beginAction, beginCool, State.phase, updUnit_record]
    exact hp
  | drive | opening => cases ha
  | level src =>
    unfold beginAction beginLevel
    dsimp only
    split
    · exact ⟨by rw [(failStep_own hr .lockDisabled).1]; nofun, .inl rfl⟩
    · refine ⟨?_, (choice _).imp_right fun h => ⟨h, nofun⟩⟩
      rw [(toPhase_own (r := r) (by rw [updUnit_record, writeSource_record, hr]) .locking none).1]
      nofun
  | wait => exact ⟨by rw [beginAction, (toPhase_own hr .dwell none).1]; nofun, .inl rfl⟩
  | draw a b c =>
    have ramps : ∀ f : UnitState → UnitState, (toPhase k .ramping none (updUnit k f s)).phase k ≠ .slotWait := fun f => by
      rw [(toPhase_own (r := r) (by rw [updUnit_record, hr]) .ramping none).1]
      nofun
    unfold beginAction beginDraw rampTasks
    dsimp only
    repeat' split
    · exact ⟨ramps _, .inr ⟨rfl, nofun⟩⟩
    · exact ⟨ramps _, .inl rfl⟩
    · exact ⟨ramps _, .inr ⟨rfl, nofun⟩⟩
    · exact ⟨ramps _, .inl rfl⟩
    · exact ⟨by rw [(failStep_own hr .interlock).1]; nofun, .inl rfl⟩
  | handover => exact ⟨by rw [beginAction, (toPhase_own hr .referenceWait none).1]; nofun, .inl rfl⟩

theorem requestSlot_avoids_own (p : PoolId) (s : State) : ∀ u ∈ (requestSlot p k s).2, Task.avoids k u := by
  unfold requestSlot
  split
  · exact nofun
  · simp [Task.avoids]

theorem beginAction_inTurn {r : RestartRecord} {a : Action} (hr : s.record? k = some r) (ha : s.action? k = some a)
    (h : Unhanded k s) (hp : s.phase k ≠ .slotWait) : InTurn k (beginAction k a s).2 (beginAction k a s).1 := by
  have same := (beginAction_undone k a s).same k
  have action : (beginAction k a s).1.action? k = some a := same.action.trans ha
  cases slot : slotFor? a with
  | none =>
    obtain ⟨phase, tasks⟩ := beginAction_alone hr hp slot
    have unhanded := h.of_sameStep same fun hw => absurd hw phase
    rcases tasks with tasks | ⟨tasks, ne⟩ <;> rw [tasks]
    · exact ⟨unhanded, .inl nofun⟩
    · exact inTurn_completes unhanded phase (by rw [action]; simpa using ne)
  | some p =>
    have ne : a ≠ .handover := by rintro rfl; cases slot
    refine ⟨h.of_sameStep same fun _ => .inr (by rw [ha]; simpa using ne), .inl ?_⟩
    cases a with
    | drive => exact requestSlot_avoids_own .drive s
    | opening => exact requestSlot_avoids_own .pour s
    | check | cool | level | wait | draw | handover => cases slot

theorem beginStep_inTurn (h : Unhanded k s) (hp : s.phase k ≠ .slotWait) :
    InTurn k (beginStep k s).2 (beginStep k s).1 := by
  unfold beginStep
  split
  · next q hq =>
    obtain ⟨r, hr, -⟩ := Option.bind_eq_some_iff.mp hq
    have same := (loadStep_undone k q s).same k
    have loaded : (loadStep k q s).phase k = s.phase k := by
      rw [loadStep_of_record k q r s hr, phase_withRecord, State.phase, hr]
      rfl
    refine beginAction_inTurn (r := r.begun q) ?_ (same.action.trans (action_of_step hq))
      (h.of_sameStep same fun hw => .inl (loaded ▸ hw)) (by rw [loaded]; exact hp)
    rw [loadStep_of_record k q r s hr, record?_withRecord]
  · exact ⟨h, .inl nofun⟩

theorem advanced_unhanded {r : RestartRecord} (h : Unhanded k s) (hr : s.record? k = some r)
    (more : r.stepIndex < r.snapshot.plan.steps.length) : Unhanded k (pend (.state k) (withRecord k r.next s)) := by
  have record : (pend (.state k) (withRecord k r.next s)).record? k = some r.next := by
    rw [State.record?, pend_strand]
    exact record?_withRecord k r.next s
  refine ⟨fun r' hr' claim => ?_, fun waits => ?_⟩
  · obtain rfl := Option.some.inj (record.symm.trans hr')
    rw [pend_inFlight] at claim
    exact absurd (h.ended r hr claim).2 (Nat.not_le_of_lt more)
  · rw [State.phase, record] at waits
    cases waits

theorem completed_unhanded {r : RestartRecord} {l : List Instr} (hr : s.record? k = some r) (ha : s.action? k ≠ some .handover)
    (last : r.snapshot.plan.steps.length ≤ r.stepIndex) : Unhanded k { withRecord k r.stopped s with inFlight := l } := by
  have record : ({ withRecord k r.stopped s with inFlight := l } : State).record? k = some r.stopped :=
    record?_withRecord k r.stopped s
  have action : ({ withRecord k r.stopped s with inFlight := l } : State).action? k = s.action? k := by
    rw [action_eq, action_eq, record, hr]
    rfl
  refine ⟨fun r' hr' _ => ?_, fun _ => by rw [action]; exact ha⟩
  obtain rfl := Option.some.inj (record.symm.trans hr')
  exact ⟨by rw [action]; exact ha, last⟩

/-- The current step, other than HANDOVER, completes (R54, R75). -/
theorem finishStep_inTurn (h : Unhanded k s) (ha : s.action? k ≠ some .handover) :
    InTurn k (finishStep k s).2 (finishStep k s).1 := by
  cases hr : s.record? k with
  | none =>
    have kept : finishStep k s = (s, []) := by rw [finishStep, hr]
    rw [kept]
    exact ⟨h, .inl nofun⟩
  | some r =>
    by_cases more : r.stepIndex < r.snapshot.plan.steps.length
    · rw [finishStep_next hr more]
      refine ⟨advanced_unhanded h hr more, .inr ⟨?_, [], .enterStep k, [], rfl, nofun, nofun, .inl rfl⟩⟩
      have phase : (pend (.state k) (withRecord k r.next s)).phase k = .noPhase := by
        rw [State.phase, State.record?, pend_strand, strand_withRecord]
        rfl
      rw [phase]
      nofun
    · have ended : finishStep k s =
          ({ withRecord k r.stopped s with inFlight := s.inFlight ++ [.restartCompleteClaim k r.serial] }, []) := by
        simp only [finishStep, hr, if_neg more, stopStep_of_record hr]
        rfl
      rw [ended]
      exact ⟨completed_unhanded hr ha (Nat.le_of_not_lt more), .inl nofun⟩

theorem endInrush_inTurn (h : Unhanded k s) (hp : s.phase k ≠ .slotWait) (ha : s.action? k ≠ some .handover) :
    InTurn k (endInrush k s).2 (endInrush k s).1 := by
  have strand : (endInrush k s).1.strand k = { s.strand k with driveLost := false } := modStrand_strand_same _ _ _
  have same : SameStep k s (endInrush k s).1 := ⟨by rw [State.record?, strand]; rfl, fun n => by
    rw [show (endInrush k s).1.inFlight = s.inFlight from modPool_inFlight ..]⟩
  obtain ⟨phase, -⟩ := endInrush_own (k := k) s
  refine ⟨h.of_sameStep same fun hw => .inl (phase ▸ hw), .inr ⟨by rwa [phase], [.grantChoice .drive], .completeStep k, [],
    rfl, by simp [Task.avoids], nofun, .inr ⟨.inl rfl, by rw [same.action]; exact ha⟩⟩⟩

/-! ### A grant -/

theorem takeDriveGrant_inTurn {r : RestartRecord} (hr : s.record? k = some r) (h : Unhanded k s)
    (ha : s.action? k ≠ some .handover) : InTurn k (takeDriveGrant k s).2 (takeDriveGrant k s).1 := by
  have same := (takeDriveGrant_undone k s).same k
  have unhanded := h.of_sameStep same fun _ => .inr ha
  refine ⟨unhanded, ?_⟩
  by_cases ready : s.driveReady k = true
  · have phase : (takeDriveGrant k s).1.phase k = .inrush := by
      rw [takeDriveGrant_ready hr ready]
      exact phase_withRecord _ _ _
    have tasks : (takeDriveGrant k s).2 = if s.working.drive.inrushHold = 0 then [.inrushEnd k] else [] := by
      rw [takeDriveGrant_ready hr ready]
    rw [tasks]
    split
    · exact .inr ⟨by rw [phase]; nofun, [], .inrushEnd k, [], rfl, nofun, nofun, .inr ⟨.inr rfl, by rw [same.action]; exact ha⟩⟩
    · exact .inl nofun
  · rw [takeDriveGrant_starting hr (Bool.eq_false_iff.mpr ready)]
    exact .inl nofun

theorem grantPass_inTurn (p : PoolId) (h : Unhanded k s) : InTurn k (grantPass p s).2 (grantPass p s).1 := by
  by_cases slot : s.phase k = .slotWait
  · obtain ⟨r, hr⟩ := Option.isSome_iff_exists.mp (record?_of_phase slot nofun)
    have ha := h.waits slot
    unfold grantPass
    split
    · split
      · exact ⟨h, .inl nofun⟩
      · next e rest hw =>
        refine InTurn.behind ?_ (m := [.grantChoice p]) (by simp [Task.avoids])
        have granted : Undone s (makeGrant p e.strand rest s) := undone_of_eq (by simp) (by simp) (by simp)
        by_cases he : e.strand = k
        · rw [he] at granted ⊢
          have phase : (makeGrant p k rest s).phase k = .slotWait := by rw [makeGrant_phase]; exact slot
          have record : (makeGrant p k rest s).record? k = some r := by rw [makeGrant_record]; exact hr
          have unhanded := h.of_sameStep (granted.same k) fun _ => .inr ha
          have action : (makeGrant p k rest s).action? k ≠ some .handover := by rw [(granted.same k).action]; exact ha
          unfold deliverGrant
          rw [if_pos phase]
          cases p with
          | pour =>
            exact ⟨unhanded.of_sameStep ((takePourGrant_undone k _).same k) fun _ => .inr action, .inl nofun⟩
          | drive => exact takeDriveGrant_inTurn record unhanded action
        · have same := ((granted.trans (deliverGrant_undone p e.strand _)).same k)
          exact ⟨h.of_sameStep same fun _ => .inr ha, .inl ((away_own k s).grantOther he hw ⟨rfl, rfl, rfl⟩).2⟩
    · exact ⟨h, .inl nofun⟩
  · have avoids : Task.avoids k (.grantChoice p) := trivial
    obtain ⟨⟨strand, -⟩, tasks⟩ := (away_own k s).runTask (t := .grantChoice p) avoids slot ⟨rfl, rfl, rfl⟩
    have same : SameStep k s (grantPass p s).1 := (grantPass_undone p s).same k
    refine ⟨h.of_sameStep same fun hw => .inl ?_, .inl tasks⟩
    rw [State.phase, State.record?, show (grantPass p s).1.strand k = s.strand k from strand] at hw
    exact hw

/-! ### The whole action -/

theorem runTask_inTurn (t : Task) (l : List Task) (s : State) (h : InTurn k (t :: l) s) :
    InTurn k ((runTask t s).2 ++ l) (runTask t s).1 := by
  obtain ⟨unhanded, free | ⟨phase, a, t', b, shape, ha, hb, ht'⟩⟩ := h
  · have avoids := free t List.mem_cons_self
    refine InTurn.behind ?_ fun u hu => free u (List.mem_cons_of_mem _ hu)
    have other : (runTask t s).1.strand k = s.strand k ∧ (∀ u ∈ (runTask t s).2, Task.avoids k u) →
        InTurn k (runTask t s).2 (runTask t s).1 := fun ⟨strand, tasks⟩ => by
      refine ⟨unhanded.of_sameStep (runTask_sameStep avoids s).1 fun hw => .inl ?_, .inl tasks⟩
      rwa [State.phase, State.record?, strand] at hw
    have own : s.strand k = s.strand k ∧ s.unit k = s.unit k ∧ s.levelSet k = s.levelSet k := ⟨rfl, rfl, rfl⟩
    cases t with
    | grantChoice p => exact grantPass_inTurn p unhanded
    | enterStep j =>
      obtain ⟨⟨⟨strand, -⟩, tasks⟩, -⟩ := (away_own k s).other avoids s own
      exact other ⟨strand, tasks⟩
    | completeStep j =>
      obtain ⟨-, ⟨⟨strand, -⟩, tasks⟩, -⟩ := (away_own k s).other avoids s own
      exact other ⟨strand, tasks⟩
    | inrushEnd j =>
      obtain ⟨-, -, ⟨strand, -⟩, tasks⟩ := (away_own k s).other avoids s own
      exact other ⟨strand, tasks⟩
  · cases a with
    | nil =>
      cases shape
      refine InTurn.behind ?_ hb
      rcases ht' with rfl | ⟨rfl | rfl, action⟩
      · exact beginStep_inTurn unhanded phase
      · exact finishStep_inTurn unhanded action
      · exact endInrush_inTurn unhanded phase action
    | cons u a =>
      cases shape
      have avoids := ha t List.mem_cons_self
      obtain ⟨⟨strand, -⟩, tasks⟩ := (away_own k s).runTask avoids phase ⟨rfl, rfl, rfl⟩
      have same := (runTask_sameStep avoids s).1
      have kept : (runTask t s).1.phase k = s.phase k := by rw [State.phase, State.record?, strand]; rfl
      refine ⟨unhanded.of_sameStep same fun hw => .inl (kept ▸ hw), .inr ⟨by rwa [kept], (runTask t s).2 ++ a, t', b, by simp,
        fun u hu => ?_, hb, by rwa [same.action]⟩⟩
      exact (List.mem_append.mp hu).elim (tasks u) fun hu => ha u (List.mem_cons_of_mem _ hu)

/-- Operations at other strands complete no HANDOVER. -/
theorem Around.unhanded (h : Around k s t) (hs : Unhanded k s) : Unhanded k t := by
  induction h with
  | aside h =>
    obtain ⟨strand, -⟩ := h.elsewhere
    refine hs.of_sameStep ⟨by rw [State.record?, strand]; rfl, h.claims⟩ fun hw => .inl ?_
    rwa [State.phase, State.record?, strand] at hw
  | drain s hl => exact (drain_induct (P := InTurn k) runTask_inTurn _ s ⟨hs, .inl hl⟩).1
  | trans _ _ before after => exact after (before hs)

end

end Sys2Proof.Machine
end
section
/-! PROOFS. A hold claim at one strand (R15, R124), and what every hold claim leaves of the part. -/

namespace Sys2Proof.Machine

section
variable {k j : Strand} {f : HoldFlag} {s t u : State}

/-! ### The Coordinator and the Fault Log -/

/-- The Coordinator has heard of strands that settle, and of nothing else (R134). -/
def Heard (s t : State) : Prop :=
  ∀ P : Coordinator → Prop, (∀ j c, P c → P (c.settled j)) → P s.coordinator → P t.coordinator

theorem Heard.refl (s : State) : Heard s s := fun _ _ h => h

theorem Heard.trans (a : Heard s t) (b : Heard t u) : Heard s u := fun P settles h => b P settles (a P settles h)

theorem Hears.heard (h : Hears j s t) : Heard s t := fun P settles start => by
  rcases h with h | h
  · rw [h]
    exact start
  · rw [h]
    exact settles j _ start

theorem takeOwnCompletion_done (h : handoverDone s k = true) :
    ∃ l, takeOwnCompletion k s = enterCasting k { s with inFlight := l } := by
  unfold takeOwnCompletion
  cases hr : s.record? k with
  | none => rw [handoverDone, hr] at h; cases h
  | some r =>
    dsimp only
    rw [if_pos h]
    exact ⟨_, takeCompletion_own hr rfl⟩

theorem takeOwnCompletion_hears (k : Strand) (s : State) : Hears k s (takeOwnCompletion k s) := by
  cases done : handoverDone s k with
  | false => exact .inl (by rw [takeOwnCompletion_of_not done])
  | true =>
    obtain ⟨l, casting⟩ := takeOwnCompletion_done done
    rw [casting]
    exact .inr (enterCasting_coordinator k _)

theorem enterHeld_coordinator (k : Strand) (f : HoldFlag) (s : State) : (enterHeld k f s).coordinator = s.coordinator := by
  obtain ⟨-, -, -, -, -, coordinator, -⟩ := abandon_carried k s
  simp only [enterHeld, pend_coordinator, modStrand_coordinator, updUnit_coordinator, coordinator]

theorem addHold_rest (k : Strand) (f : HoldFlag) (s : State) :
    (addHold k f s).coordinator = s.coordinator ∧ (addHold k f s).faults = s.faults := by
  cases f with
  | tundish | operator => exact ⟨modReported_coordinator .., modReported_faults ..⟩
  | dip => exact ⟨by simp [addHold], by simp [addHold]⟩

theorem holdClaim_hears (f : HoldFlag) (k : Strand) (s : State) : Hears k s (holdClaim f k s) := by
  unfold holdClaim
  split
  · exact .inl (enterHeld_coordinator k f s)
  · exact .inl (addHold_rest k f s).1
  · split
    · exact .inl (enterHeld_coordinator k f s)
    · exact .inr (enterDry_coordinator k s)
  all_goals exact .inl rfl

theorem holdStrand_heard (f : HoldFlag) (k : Strand) (s : State) : Heard s (holdStrand f k s) :=
  (takeOwnCompletion_hears k s).heard.trans (holdClaim_hears f k _).heard

theorem holdStrand_faults (f : HoldFlag) (k : Strand) (s : State) : (holdStrand f k s).faults = s.faults := by
  have taken : (takeOwnCompletion k s).faults = s.faults := by
    cases done : handoverDone s k with
    | false => rw [takeOwnCompletion_of_not done]
    | true =>
      obtain ⟨l, casting⟩ := takeOwnCompletion_done done
      rw [casting]
      exact enterCasting_faults k _
  rw [holdStrand, ← taken]
  unfold holdClaim
  split
  · exact enterHeld_faults k _ f
  · exact (addHold_rest k f _).2
  · split
    · exact enterHeld_faults k _ f
    · exact enterDry_faults k _
  all_goals rfl

/-! ### A strand that is held -/

/-- What a hold claim makes of a strand that casts, or restarts with steel (R11, R15, R124). -/
structure HeldFrom (f : HoldFlag) (k : Strand) (s t : State) : Prop where
  condition : (t.strand k).condition = .held
  flag : (t.strand k).flag f = true
  steel : (t.strand k).steel = (s.strand k).steel
  driveLost : (t.strand k).driveLost = ((s.strand k).driveLost || f == .dip)
  timer : (t.strand k).holdTimer = if handoverDone s k then ⟨0, true⟩ else (s.strand k).holdTimer.start
  unit : ∃ x : UnitState, t.unit k = x.rest (f != .dip) (s.settingsOf k).holdCooling ∧ x.driveRun = (s.unit k).driveRun
  state : t.noticePending.look (Source.state k).number = true
  settled : handoverDone s k = true → t.coordinator = s.coordinator.settled k

theorem endFill_stopRamp_driveRun (u : UnitState) : u.endFill.stopRamp.driveRun = u.driveRun := by
  unfold UnitState.endFill UnitState.stopRamp
  split <;> rfl

theorem enterHeld_heldFrom (hl : slotLawAt s k = true) (hk : s.isConfigured k = true) (hd : handoverDone s k = false) :
    HeldFrom f k s (enterHeld k f s) := by
  obtain ⟨condition, flag, driveLost, steel, timer, -, -, unit⟩ := enterHeld_own k f s hl hk
  obtain ⟨-, -, abandoned⟩ := abandon_own k s hl
  refine ⟨condition, flag, steel, driveLost, by rw [timer, hd]; rfl, ⟨_, unit, ?_⟩, enterHeld_pends f hk, fun h => ?_⟩
  · rw [abandoned]
    split
    · exact endFill_stopRamp_driveRun _
    · rfl
  · exact nomatch hd.symm.trans h

/-- Whether a hold claim holds the strand (R15). -/
def Holds (c : StrandContext) : Prop := c.condition = .casting ∨ (c.condition.name = .restarting ∧ c.steel = true)

theorem holdClaim_holds (h : Holds (s.strand k)) : holdClaim f k s = enterHeld k f s := by
  unfold holdClaim
  rcases h with h | ⟨h, steel⟩
  · rw [h]
  · obtain ⟨r, hc⟩ := condition_of_restarting h
    rw [hc]
    exact if_pos steel

theorem holdStrand_holds (hl : slotLaw s = true) (hk : s.isConfigured k = true) (h : Holds (s.strand k)) :
    HeldFrom f k s (holdStrand f k s) := by
  cases done : handoverDone s k with
  | false =>
    rw [holdStrand, takeOwnCompletion_of_not done, holdClaim_holds h]
    exact enterHeld_heldFrom (slotLawAt_of_law hl k) hk done
  | true =>
    obtain ⟨law, configured, -, steel, casting⟩ := takeOwnCompletion_finds hl hk
    obtain ⟨strand, unit, -⟩ := takeOwnCompletion_own k s done (slotLawAt_of_law hl k) hk
    obtain ⟨l, taken⟩ := takeOwnCompletion_done done
    have settings := settingsOf_of_outside (takeOwnCompletion_at k s).1 k
    have not_done : handoverDone (takeOwnCompletion k s) k = false := by
      rw [handoverDone, State.record?, casting done]
      rfl
    rw [holdStrand, holdClaim_holds (.inl (casting done))]
    have held := enterHeld_heldFrom (f := f) (slotLawAt_of_law law k) configured not_done
    obtain ⟨x, rest, run⟩ := held.unit
    refine ⟨held.condition, held.flag, held.steel.trans steel, ?_, ?_, ⟨x, by rw [← settings]; exact rest, ?_⟩, held.state,
      fun _ => ?_⟩
    · rw [held.driveLost, strand]
    · rw [held.timer, not_done, done, strand]
      rfl
    · rw [run, unit, endFill_stopRamp_driveRun]
    · rw [enterHeld_coordinator, taken, enterCasting_coordinator]

end

end Sys2Proof.Machine
end
section
/-! PROOFS. The hold claims at every configured strand (R15, R129, R146). -/

namespace Sys2Proof.Machine

section
variable {k j : Strand} {f : HoldFlag} {s t u : State}

/-! ### The other conditions' claims -/

theorem takeOwnCompletion_of_no_record (h : s.record? k = none) : takeOwnCompletion k s = s := by rw [takeOwnCompletion, h]

/-- What a hold claim makes of a strand already HELD (R15). -/
structure HeldMore (f : HoldFlag) (k : Strand) (s t : State) : Prop where
  strand : t.strand k = { (s.strand k).setFlag f true with driveLost := (s.strand k).driveLost || f == .dip }
  run : (t.unit k).driveRun = ((s.unit k).driveRun && f != .dip)
  state : (s.strand k).flag f = false → t.noticePending.look (Source.state k).number = true

theorem setFlag_ne {c : StrandContext} (h : c.flag f = false) : c.setFlag f true ≠ c := fun e => by
  have set := flag_setFlag f true c
  rw [e, h] at set
  cases set

theorem addHold_heldMore (hk : s.isConfigured k = true) : HeldMore f k s (addHold k f s) := by
  have strand : (modReported k (StrandContext.setFlag f true) s).strand k = (s.strand k).setFlag f true :=
    modReported_strand_same _
  have unit : (modReported k (StrandContext.setFlag f true) s).unit k = s.unit k := by simp [State.unit]
  have noticed : (s.strand k).flag f = false →
      (modReported k (StrandContext.setFlag f true) s).noticePending.look (Source.state k).number = true := fun h =>
    modReported_noticed (setFlag_ne h) hk
  cases f with
  | tundish | operator =>
    refine ⟨strand.trans ?_, (congrArg UnitState.driveRun unit).trans (Bool.and_true _).symm, noticed⟩
    rw [show (s.strand k).driveLost = ((s.strand k).driveLost || false) from (Bool.or_false _).symm]
    simp [StrandContext.setFlag]
  | dip =>
    refine ⟨?_, ?_, fun h => updUnit_owed _ _ _ _ (noticed h)⟩
    · rw [addHold, updUnit_strand, modStrand_strand_same, strand]
      simp
    · rw [addHold, updUnit_unit_same]
      simp [UnitState.stopDrive]

theorem holdStrand_held (hc : (s.strand k).condition = .held) : holdStrand f k s = addHold k f s := by
  rw [holdStrand, takeOwnCompletion_of_no_record (by rw [State.record?, hc]; rfl), holdClaim, hc]

theorem holdStrand_dry (hn : (s.strand k).condition.name = .restarting) (hs : (s.strand k).steel = false) :
    holdStrand f k s = enterDry k s := by
  obtain ⟨r, hc⟩ := condition_of_restarting hn
  rw [holdStrand, takeOwnCompletion_of_not (handoverDone_of_no_steel hs), holdClaim, hc]
  exact if_neg (by rw [hs]; nofun)

theorem holdStrand_waitsForHost (h : (s.strand k).condition.waitsForHost = true) : holdStrand f k s = s := by
  obtain ⟨restarting, -⟩ := waitsForHost_name h
  rw [holdStrand, takeOwnCompletion_of_no_record (record?_of_name restarting)]
  unfold holdClaim
  cases hc : (s.strand k).condition with
  | dry | halted | offline => rfl
  | restarting | casting | held => rw [hc] at h; nomatch h

/-! ### Every strand's claim -/

/-- The hold claims for `f` at every configured strand. -/
def holdAll (f : HoldFlag) (s : State) : State := forConfigured (holdStrand f) s

theorem holdAll_split (f : HoldFlag) (hl : slotLaw s = true) (hk : s.isConfigured k = true) :
    ∃ u, Away k s u ∧ Heard s u ∧ slotLaw u = true ∧ u.isConfigured k = true ∧
      Away k (holdStrand f k u) (holdAll f s) ∧ Heard (holdStrand f k u) (holdAll f s) := by
  obtain ⟨u, before, configured, after⟩ := forConfigured_split (k := k) (s := s) (R := fun s t => Away k s t ∧ Heard s t)
    (fun s => ⟨.refl k s, .refl s⟩) (fun _ _ _ ⟨a1, a2⟩ ⟨b1, b2⟩ => ⟨a1.trans b1, a2.trans b2⟩) (fun _ _ h => h.1.count)
    (holdStrand f) (fun j s hj _ => ⟨holdStrand_away hj f s, holdStrand_heard f j s⟩) hk
  exact ⟨u, before.1, before.2, before.1.slots hl, configured, after.1, after.2⟩

theorem holdAll_rest (f : HoldFlag) (s : State) : Outside s (holdAll f s) ∧ (holdAll f s).faults = s.faults ∧
    (holdAll f s).supply = s.supply ∧ (holdAll f s).trip = s.trip ∧ (holdAll f s).pour.isOpen = s.pour.isOpen ∧
    (holdAll f s).drive.isOpen = s.drive.isOpen ∧ Heard s (holdAll f s) := by
  obtain ⟨outside, supply, trip, -, -, pour, drive⟩ := forConfigured_outside (holdStrand f) (holdStrand_at f) s
  have faults := forConfigured_rel (R := fun s t => t.faults = s.faults) (fun _ => rfl) (fun _ _ _ a b => b.trans a)
    (holdStrand f) (holdStrand_faults f) s
  have heard := forConfigured_rel (R := Heard) .refl (fun _ _ _ => .trans) (holdStrand f) (holdStrand_heard f) s
  unfold holdAll
  exact ⟨outside, faults, supply, trip, pour, drive, heard⟩

/-! ### The step at which a strand's claim finds it -/

theorem SameStep.handoverDone (h : SameStep k s t) (hs : (t.strand k).steel = (s.strand k).steel) :
    Machine.handoverDone t k = Machine.handoverDone s k := by
  have step := h.step
  unfold Machine.handoverDone
  cases hr : s.record? k with
  | none =>
    rw [hr, Option.map_none, Option.map_eq_none_iff] at step
    rw [step]
  | some r =>
    rw [hr] at step
    obtain ⟨r', hr', same⟩ := Option.map_eq_some_iff.mp step
    have serial : r'.serial = r.serial := congrArg Prod.fst same
    rw [hr']
    dsimp only
    rw [hs, h.action, serial, h.claims]

/-- Whether the completion of the standing restart is under way (R75). -/
def completionSent (s : State) (k : Strand) : Bool :=
  (s.record? k).any fun r => s.inFlight.contains (.restartCompleteClaim k r.serial)

theorem not_done_of_not_sent (h : completionSent s k = false) : handoverDone s k = false := by
  unfold handoverDone
  split
  · next r hr =>
    rw [completionSent, hr] at h
    rw [show s.inFlight.contains (.restartCompleteClaim k r.serial) = false from h, Bool.and_false]
  · rfl

theorem unhanded_of_driveStep (h : completionSent s k = false) (hd : s.inDriveStep k = true) : Unhanded k s := by
  have action : s.action? k = some .drive := beq_iff_eq.mp hd
  refine ⟨fun r hr claim => ?_, fun _ => by rw [action]; nofun⟩
  rw [completionSent, hr] at h
  exact nomatch claim.symm.trans h

/-- A restart that has not completed is not found completed by its own claim. -/
theorem Around.not_done (h : Around k s u) (steel : (u.strand k).steel = (s.strand k).steel)
    (sent : completionSent s k = false) (hd : s.drive.waiting k = false ∨ s.inDriveStep k = true) :
    handoverDone u k = false := by
  rcases hd with free | drive
  · exact ((h.paused (.inl free)).same.handoverDone steel).trans (not_done_of_not_sent sent)
  · exact (h.unhanded (unhanded_of_driveStep sent drive)).not_done

end

end Sys2Proof.Machine
end
section
/-! PROOFS. What the hold claims make of every strand (R15), and of the pools (R86). -/

namespace Sys2Proof.Machine

section
variable {k j : Strand} {f : HoldFlag} {s t u : State}

/-- What the hold claims make of a strand that casts, or restarts with steel, seen from before them all (R15, R124). -/
structure HoldShown (f : HoldFlag) (k : Strand) (s t : State) : Prop where
  condition : (t.strand k).condition = .held
  flag : (t.strand k).flag f = true
  steel : (t.strand k).steel = (s.strand k).steel
  state : t.noticePending.look (Source.state k).number = true
  unit : ∃ x : UnitState, t.unit k = x.rest (f != .dip) (s.settingsOf k).holdCooling
  kept : completionSent s k = false → s.drive.waiting k = false ∨ s.inDriveStep k = true →
    (t.strand k).holdTimer = (s.strand k).holdTimer.start
  anew : handoverDone s k = true → s.drive.waiting k = false → (t.strand k).holdTimer = ⟨0, true⟩ ∧
    (s.coordinator.state = .releasing → t.coordinator.releaseSet.look k = false)
  driveLost : Still k s ∨ f = .dip → (t.strand k).driveLost = ((s.strand k).driveLost || f == .dip)
  run : s.drive.waiting k = false → (t.unit k).driveRun = ((s.unit k).driveRun && f != .dip)

theorem Holds.of_same (h : SameStrand s t k) (a : Holds (s.strand k)) : Holds (t.strand k) := by
  obtain ⟨name, steel, -⟩ := h
  rcases a with a | ⟨a, b⟩
  · exact .inl (casting_of_name (name.trans (congrArg Condition.name a)))
  · exact .inr ⟨name.trans a, steel.trans b⟩

/-- A strand that has settled is no member, and becomes none (R134). -/
theorem Heard.left (h : Heard s t) (hn : s.coordinator.releaseSet.look k = false) :
    t.coordinator.releaseSet.look k = false := by
  refine h (fun c => c.releaseSet.look k = false) (fun j c none => ?_) hn
  unfold Coordinator.settled
  split
  · exact Bool.eq_false_iff.mpr fun member => nomatch none.symm.trans ((look_erase _ _ _).mp member).2
  · exact none

theorem isEmpty_look {m : StrandSet} (h : m.isEmpty = true) (k : Strand) : m.look k = false := (isEmpty_iff m).mp h k

/-- The Coordinator leaves RELEASING only with its set empty (R135). -/
theorem Heard.releasing (h : Heard s t) (hs : s.coordinator.state = .releasing) :
    t.coordinator.state = .releasing ∨ t.coordinator.releaseSet.look k = false := by
  refine h (fun c => c.state = .releasing ∨ c.releaseSet.look k = false) (fun j c start => ?_) (.inl hs)
  unfold Coordinator.settled
  split
  · by_cases empty : (c.releaseSet.erase j).isEmpty = true ∧ c.entering = false
    · exact .inr (isEmpty_look empty.1 k)
    · exact .inl (if_neg empty)
  · exact start

/-- A strand that settles is no member after it (R134). -/
theorem settled_left {c : Coordinator} (h : c.state = .releasing ∨ c.releaseSet.look k = false) :
    (c.settled k).releaseSet.look k = false := by
  rcases h with releasing | none
  · exact settled_leaves k releasing
  · unfold Coordinator.settled
    rw [if_neg fun ⟨_, member⟩ => (nomatch none.symm.trans member)]
    exact none

section
variable (f) (hl : slotLaw s = true) (hk : s.isConfigured k = true)
include hl hk

theorem holdAll_holds (h : Holds (s.strand k)) : HoldShown f k s (holdAll f s) := by
  obtain ⟨u, before, heard, law, configured, after, heard'⟩ := holdAll_split f hl hk
  have held := holdStrand_holds (f := f) law configured (h.of_same before.same)
  obtain ⟨-, steel, -, -, -, timer, -⟩ := before.same
  obtain ⟨strand, unit⟩ := after.unmoved (by rw [State.record?, held.condition]; rfl)
  obtain ⟨x, rest, run⟩ := held.unit
  rw [settingsOf_of_outside before.outside] at rest
  refine ⟨by rw [strand]; exact held.condition, by rw [strand]; exact held.flag, by rw [strand, held.steel, steel],
    after.owed _ held.state, ⟨x, unit.trans rest⟩, fun sent still => ?_, fun done free => ⟨?_, fun releasing => ?_⟩,
    fun still => ?_, fun free => ?_⟩
  · rw [strand, held.timer, before.around.not_done steel sent still, timer]
    rfl
  · have done' := ((before.around.paused (.inl free)).same.handoverDone steel).trans done
    rw [strand, held.timer, done']
    rfl
  · have done' := ((before.around.paused (.inl free)).same.handoverDone steel).trans done
    refine heard'.left ?_
    rw [held.settled done']
    exact settled_left (heard.releasing releasing)
  · rw [strand, held.driveLost]
    rcases still with still | rfl
    · rw [(before.around.paused still).driveLost]
    · simp
  · obtain ⟨-, sameRun⟩ := (before.around.paused (.inl free)).apart free
    rw [unit, rest, ← sameRun, ← run, Bool.and_comm]
    rfl

theorem holdAll_held (hc : (s.strand k).condition = .held) : HeldMore f k s (holdAll f s) := by
  obtain ⟨u, before, -, -, configured, after, -⟩ := holdAll_split f hl hk
  obtain ⟨strand, unit⟩ := before.unmoved (by rw [State.record?, hc]; rfl)
  have more := addHold_heldMore (f := f) (s := u) configured
  rw [← holdStrand_held (by rw [strand]; exact hc)] at more
  have held : ((holdStrand f k u).strand k).condition = .held := by
    rw [more.strand, strand, (setFlag_fields f true _).1, hc]
  obtain ⟨strand', unit'⟩ := after.unmoved (by rw [State.record?, held]; rfl)
  exact ⟨by rw [strand', more.strand, strand], by rw [unit', more.run, unit],
    fun flag => after.owed _ (more.state (by rw [strand]; exact flag))⟩

theorem holdAll_waitsForHost (h : (s.strand k).condition.waitsForHost = true) :
    (holdAll f s).strand k = s.strand k ∧ (holdAll f s).unit k = s.unit k := by
  obtain ⟨u, before, -, -, -, after, -⟩ := holdAll_split f hl hk
  have none : s.record? k = none := record?_of_name (waitsForHost_name h).1
  obtain ⟨strand, unit⟩ := before.unmoved none
  rw [holdStrand_waitsForHost (by rw [strand]; exact h)] at after
  obtain ⟨strand', unit'⟩ := after.unmoved (by rw [State.record?, strand]; exact none)
  exact ⟨strand'.trans strand, unit'.trans unit⟩

theorem holdAll_dry (hn : (s.strand k).condition.name = .restarting) (hs : (s.strand k).steel = false) :
    ((holdAll f s).strand k).condition = .dry ∧ ((holdAll f s).strand k).anyHold = false ∧
      ((holdAll f s).strand k).holdTimer.running = false ∧ AtRest (holdAll f s) k ⟨0, 0, 0, 0⟩ ∧
      (holdAll f s).noticePending.look (Source.state k).number = true := by
  obtain ⟨u, before, -, law, configured, after, -⟩ := holdAll_split f hl hk
  obtain ⟨name, steel, -⟩ := before.same
  rw [holdStrand_dry (name.trans hn) (steel.trans hs)] at after
  obtain ⟨⟨condition, hold, timer, atRest, -⟩, -⟩ := enterDry_own k u (slotLawAt_of_law law k) configured
  obtain ⟨strand, unit⟩ := after.unmoved (by rw [State.record?, condition]; rfl)
  refine ⟨by rw [strand]; exact condition, by rw [strand]; exact hold, by rw [strand]; exact timer, ?_,
    after.owed _ (enterDry_pends configured)⟩
  rw [AtRest, unit]
  exact atRest

/-- No strand restarts after the hold claims (R15). -/
theorem holdAll_ends : (holdAll f s).record? k = none := by
  cases hc : (s.strand k).condition with
  | casting => rw [State.record?, (holdAll_holds f hl hk (.inl hc)).condition]; rfl
  | held =>
    have more := holdAll_held f hl hk hc
    rw [State.record?, more.strand]
    exact congrArg Condition.record? ((setFlag_fields f true _).1.trans hc)
  | restarting r =>
    have name : (s.strand k).condition.name = .restarting := by rw [hc]; rfl
    cases steel : (s.strand k).steel with
    | true => rw [State.record?, (holdAll_holds f hl hk (.inr ⟨name, steel⟩)).condition]; rfl
    | false => rw [State.record?, (holdAll_dry f hl hk name steel).1]; rfl
  | dry | halted | offline =>
    rw [State.record?, (holdAll_waitsForHost f hl hk (by rw [hc]; rfl)).1, hc]
    rfl

end

/-! ### The pools -/

theorem holdAll_withdrawn (f : HoldFlag) (hl : slotLaw s = true) (hu : unfittedLaw s = true) (j : Strand) :
    Withdrawn (holdAll f s) j := by
  have law : ∀ j, SlotOK (holdAll f s) j :=
    forConfigured_keeps (P := fun t => ∀ j, SlotOK t j) _ (fun k t h => slotLaw_kept.holdStrand f k t h) s ((slotLaw_iff s).mp hl)
  have unfitted : ForStrands UnfittedOK none (holdAll f s) :=
    forConfigured_keeps _ (fun k t h => unfittedLaw_strandLaw.kept.holdStrand f k t h) s ((unfittedLaw_iff s).mp hu)
  have none : (holdAll f s).record? j = .none := by
    cases hj : s.isConfigured j with
    | true => exact holdAll_ends f hl hj
    | false =>
      obtain ⟨context, -⟩ := unfitted j nofun ((isConfigured_of_outside (holdAll_rest f s).1 j).trans hj)
      rw [State.record?, context]
      rfl
  rcases law j with record | gone
  · rw [none] at record
    cases record
  · exact (gone_iff _ j).mp gone

theorem holdAll_pools (f : HoldFlag) (hl : slotLaw s = true) (hu : unfittedLaw s = true) :
    (holdAll f s).pour.holderCount = 0 ∧ (holdAll f s).drive.holderCount = 0 ∧
      (holdAll f s).pour.waits = [] ∧ (holdAll f s).drive.waits = [] := by
  have withdrawn := holdAll_withdrawn f hl hu
  have free : ∀ p : Pool, (∀ j, p.holds j = false) → p.holderCount = 0 := fun p h => by
    rw [Pool.holderCount, List.filter_eq_nil_iff.mpr fun j _ => by rw [h j]; nofun]
    rfl
  have nobody : ∀ p : Pool, (∀ j, p.waiting j = false) → p.waits = [] := fun p h => by
    rw [List.eq_nil_iff_forall_not_mem]
    intro e he
    have waits : p.waiting e.strand = true := List.any_eq_true.mpr ⟨e, he, beq_self_eq_true _⟩
    exact nomatch waits.symm.trans (h e.strand)
  obtain ⟨noPour, withdrawn⟩ := forall_and.mp withdrawn
  obtain ⟨noDrive, withdrawn⟩ := forall_and.mp withdrawn
  obtain ⟨noPourWait, noDriveWait⟩ := forall_and.mp withdrawn
  exact ⟨free _ noPour, free _ noDrive, nobody _ noPourWait, nobody _ noDriveWait⟩

end

end Sys2Proof.Machine
end
section
/-! PROOFS. TUNDISH CHANGE, TC_REQUEST and the end of the ride-through (R128, R129, R146). -/

namespace Sys2Proof.Machine

/-- What the hold claims show at strand `k` and in the part (R15, R86, R124). -/
def HoldEffect (k : Strand) (s t : State) (f : HoldFlag) : Prop :=
  let c := s.strand k
  SameOutside s t ∧ SameSettings s t ∧ t.faults = s.faults ∧ t.trip = s.trip ∧
  t.pour.holderCount = 0 ∧ t.drive.holderCount = 0 ∧ t.pour.waits = [] ∧ t.drive.waits = [] ∧
  (c.condition = .casting ∨ (c.condition.name = .restarting ∧ c.steel = true) →
    (t.strand k).condition = .held ∧ (t.strand k).flag f = true ∧ Noticed t (.state k) ∧
    (t.strand k).steel = c.steel ∧
    t.outputs k = ⟨.opening 0, false, (t.unit k).wide, (t.unit k).driveRun, 0, (s.settingsOf k).holdCooling⟩ ∧
    (t.unit k).draw = false ∧ (t.unit k).lock = false ∧
    (completionSent s k = false → s.drive.waiting k = false ∨ s.inDriveStep k = true →
      (t.strand k).holdTimer = if c.holdTimer.running then c.holdTimer else ⟨0, true⟩) ∧
    (handoverDone s k = true → s.drive.waiting k = false →
      (t.strand k).holdTimer = ⟨0, true⟩ ∧
      (s.coordinator.state = .releasing → t.coordinator.releaseSet.look k = false)) ∧
    (s.drive.waiting k = false ∨ s.working.drive.inrushHold ≠ 0 ∨ f = .dip →
      (t.strand k).driveLost = (c.driveLost || f == .dip)) ∧
    (s.drive.waiting k = false → (t.unit k).driveRun = ((s.unit k).driveRun && f != .dip))) ∧
  (c.condition = .held →
    (t.strand k).condition = .held ∧ (t.strand k).flag f = true ∧ (t.strand k).holdTimer = c.holdTimer ∧
    (t.strand k).driveLost = (c.driveLost || f == .dip) ∧
    (t.unit k).driveRun = ((s.unit k).driveRun && f != .dip) ∧ (c.flag f = false → Noticed t (.state k))) ∧
  (c.condition.name = .restarting → c.steel = false → Stopped t k .dry ⟨0, 0, 0, 0⟩) ∧
  (c.condition.waitsForHost = true → t.strand k = c ∧ t.unit k = s.unit k)

section
variable {k : Strand} {f : HoldFlag} {s t u v : State}

/-! ### The claims' effect -/

/-- What follows the claims leaves the strands, the Fault Log and who is at the pools. -/
structure AfterClaims (v u : State) : Prop where
  strands : u.strands = v.strands
  units : u.units = v.units
  faults : u.faults = v.faults
  trip : u.trip = v.trip
  coordinator : u.coordinator = v.coordinator
  pour : u.pour = { v.pour with isOpen := u.pour.isOpen }
  drive : u.drive = v.drive
  owed : Owed v u

theorem outputs_of_rest {b : Bool} {z : Zones} {x : UnitState} (h : t.unit k = x.rest b z) :
    t.outputs k = ⟨.opening 0, false, (t.unit k).wide, (t.unit k).driveRun, 0, z⟩ ∧
      (t.unit k).draw = false ∧ (t.unit k).lock = false := by
  rw [State.outputs, h]
  exact ⟨rfl, rfl, rfl⟩

theorem holdAll_effect (f : HoldFlag) (hl : slotLaw s = true) (hu : unfittedLaw s = true) (hk : s.isConfigured k = true)
    (outside : Outside s u) (a : AfterClaims (holdAll f s) u) (sent : Sent u t) : HoldEffect k s t f := by
  obtain ⟨-, faults, -, trip, -⟩ := holdAll_rest f s
  obtain ⟨pour, drive, pourWaits, driveWaits⟩ := holdAll_pools f hl hu
  have withdrawn := holdAll_withdrawn f hl hu k
  have holds := holdAll_holds (k := k) f hl hk
  have held := holdAll_held (k := k) f hl hk
  have dry := holdAll_dry (k := k) f hl hk
  have waits := holdAll_waitsForHost (k := k) f hl hk
  generalize holdAll f s = v at *
  obtain ⟨same, notices⟩ := sent
  have strand : t.strand k = v.strand k := (same.strand k).trans (congrArg (Tab.look · k) a.strands)
  have unit : t.unit k = v.unit k := (same.unit k).trans (congrArg (Tab.look · k) a.units)
  have coordinator : t.coordinator = v.coordinator := same.coordinator.trans a.coordinator
  have pours : t.pour = { v.pour with isOpen := u.pour.isOpen } := same.pour.trans a.pour
  have drives : t.drive = v.drive := same.drive.trans a.drive
  obtain ⟨outside, settings, -⟩ := outside
  unfold HoldEffect
  dsimp only
  rw [strand, coordinator, pours, drives]
  refine ⟨same.sameOutside outside, same.sameSettings settings, same.faults.trans (a.faults.trans faults),
    same.trip.trans (a.trip.trans trip), pour, drive, pourWaits, driveWaits, fun h => ?_, fun hc => ?_, fun hn hs => ?_,
    fun h => ?_⟩
  · have shown := holds h
    obtain ⟨x, rest⟩ := shown.unit
    obtain ⟨outputs, draw, lock⟩ := outputs_of_rest (unit.trans rest)
    exact ⟨shown.condition, shown.flag, notices _ (.inl (a.owed _ shown.state)), shown.steel, outputs, draw, lock, shown.kept,
      shown.anew, fun still => shown.driveLost (or_assoc.mpr still), fun free => by rw [unit]; exact shown.run free⟩
  · have more := held hc
    obtain ⟨condition, timer⟩ := setFlag_fields f true (s.strand k)
    rw [more.strand, unit]
    refine ⟨condition.trans hc, ?_, timer, rfl, more.run, fun flag => notices _ (.inl (a.owed _ (more.state flag)))⟩
    cases f <;> rfl
  · obtain ⟨condition, hold, timer, atRest, state⟩ := dry hn hs
    have gone : Withdrawn t k := by
      rw [Withdrawn, pours, drives]
      exact withdrawn
    rw [Stopped, strand]
    refine ⟨condition, hold, timer, ?_, gone, notices _ (.inl (a.owed _ state))⟩
    rw [AtRest, unit]
    exact atRest
  · rw [unit]
    exact waits h

/-- What the claims show does not hang on the Supply Monitor, nor on the Coordinator but for RELEASING. -/
theorem HoldEffect.of_monitors {c : Coordinator} {m : SupplyMonitor}
    (h : HoldEffect k { s with coordinator := c, supply := m } t f)
    (hc : s.coordinator.state = .releasing → c.state = .releasing) : HoldEffect k s t f := by
  obtain ⟨outside, settings, faults, trip, pour, drive, pourWaits, driveWaits, holds, rest⟩ := h
  refine ⟨outside, settings, faults, trip, pour, drive, pourWaits, driveWaits, fun h => ?_, rest⟩
  obtain ⟨condition, flag, state, steel, outputs, draw, lock, kept, anew, driveLost⟩ := holds h
  exact ⟨condition, flag, state, steel, outputs, draw, lock, kept, fun done free =>
    ⟨(anew done free).1, fun releasing => (anew done free).2 (hc releasing)⟩, driveLost⟩

/-! ### The tundish change -/

/-- The state in which HOLDING's claims are made (R129). -/
def beginHolding (s : State) : State := { s with
  coordinator := { s.coordinator with state := .holding, lowWeight := false } }

theorem enterHolding_stages (s : State) :
    enterHolding s = pend .tundish (closePool .pour (holdAll .tundish (beginHolding s))) := rfl

theorem closePour_after (v : State) : AfterClaims v (pend .tundish (closePool .pour v)) := by
  refine ⟨?_, ?_, ?_, ?_, ?_, ?_, ?_, fun n h => pend_owed .tundish _ n h⟩
  · rw [pend_strands]; rfl
  · rw [pend_units]; rfl
  · rw [pend_faults]; rfl
  · rw [pend_trip]; rfl
  · rw [pend_coordinator]; rfl
  · rw [pend_pour]; rfl
  · rw [pend_drive]; rfl

theorem settled_of_not_releasing {c : Coordinator} (j : Strand) (h : c.state ≠ .releasing) : c.settled j = c :=
  if_neg fun ⟨releasing, _⟩ => h releasing

/-- The Coordinator hears nothing outside RELEASING (R134). -/
theorem Heard.same (h : Heard s t) (hs : s.coordinator.state ≠ .releasing) : t.coordinator = s.coordinator :=
  h (fun c => c = s.coordinator) (fun j c e => by rw [e]; exact settled_of_not_releasing j hs) rfl

/-- What TUNDISH CHANGE shows besides its claims (R129). -/
theorem enterHolding_shows (sent : Sent (enterHolding s) t) : t.coordinator.state = .holding ∧
    t.coordinator.lowWeight = false ∧ t.pour.isOpen = false ∧ t.drive.isOpen = s.drive.isOpen ∧ t.supply = s.supply ∧
    Noticed t .tundish := by
  obtain ⟨-, -, supply, -, -, drive, heard⟩ := holdAll_rest .tundish (beginHolding s)
  have coordinator := heard.same (by nofun)
  rw [enterHolding_stages] at sent
  generalize holdAll .tundish (beginHolding s) = v at *
  have after := closePour_after v
  have same := sent.1
  have holding : t.coordinator = (beginHolding s).coordinator := by rw [same.coordinator, after.coordinator, coordinator]
  refine ⟨by rw [holding]; rfl, by rw [holding]; rfl, ?_, ?_, ?_, sent.2 _ (.inl (pend_look .tundish _ rfl))⟩
  · rw [same.pour, pend_pour]
    rfl
  · rw [same.drive, after.drive, drive]
    rfl
  · rw [same.supply, pend_supply]
    exact supply

theorem enterHolding_effect (hl : slotLaw s = true) (hu : unfittedLaw s = true) (hk : s.isConfigured k = true)
    (steady : s.coordinator.state = .steady) (sent : Sent (enterHolding s) t) : HoldEffect k s t .tundish := by
  have outside := enterHolding_outside s
  rw [enterHolding_stages] at sent outside
  have claims : HoldEffect k (beginHolding s) t .tundish :=
    holdAll_effect (s := beginHolding s) .tundish hl hu hk outside (closePour_after _) sent
  exact claims.of_monitors fun releasing => nomatch steady.symm.trans releasing

/-! ### The end of the ride-through -/

/-- The state in which a dip's claims are made (R146). -/
def beginDip (s : State) : State := { s with
  supply := { s.supply with state := .down, rideTimer := none } }

theorem declareDip_stages (s : State) : declareDip s = pend .power (holdAll .dip (beginDip s)) := rfl

theorem pend_after (src : Source) (v : State) : AfterClaims v (pend src v) :=
  ⟨pend_strands .., pend_units .., pend_faults .., pend_trip .., pend_coordinator .., by rw [pend_pour], pend_drive ..,
    pend_owed src v⟩

theorem declareDip_effect (hl : slotLaw s = true) (hu : unfittedLaw s = true) (hk : s.isConfigured k = true)
    (sent : Sent (declareDip s) t) : HoldEffect k s t .dip := by
  have outside := declareDip_outside s
  rw [declareDip_stages] at sent outside
  have claims : HoldEffect k (beginDip s) t .dip :=
    holdAll_effect (s := beginDip s) .dip hl hu hk outside (pend_after .power _) sent
  exact claims.of_monitors id

theorem declareDip_shows (sent : Sent (declareDip s) t) : Noticed t .power ∧
    t.supply = { s.supply with state := .down, rideTimer := none } ∧
    (s.coordinator.state ≠ .releasing → t.coordinator.state = s.coordinator.state) ∧ t.pour.isOpen = s.pour.isOpen ∧
    t.drive.isOpen = s.drive.isOpen := by
  obtain ⟨-, -, supply, -, pour, drive, heard⟩ := holdAll_rest .dip (beginDip s)
  rw [declareDip_stages] at sent
  generalize holdAll .dip (beginDip s) = v at *
  have after := pend_after .power v
  have same := sent.1
  refine ⟨sent.2 _ (.inl (pend_look .power _ rfl)), ?_, fun idle => ?_, ?_, ?_⟩
  · rw [same.supply, pend_supply]
    exact supply
  · rw [same.coordinator, after.coordinator, heard.same idle]
    rfl
  · rw [same.pour, pend_pour]
    exact pour
  · rw [same.drive, after.drive]
    exact drive

end

/-- Settles O32: each strand's claim stands among the others', which leave it where its own claim finds it. -/
theorem holdClaimsReachEveryStrand : Obligations.HoldClaimsReachEveryStrand := by
  intro tag k s hl hu hk
  have changed : s.coordinator.state = .steady → ∀ t, Sent (enterHolding s) t → HoldEffect k s t .tundish ∧
      t.coordinator.state = .holding ∧ t.coordinator.lowWeight = false ∧ t.pour.isOpen = false ∧
      t.drive.isOpen = s.drive.isOpen ∧ t.supply = s.supply ∧ Noticed t .tundish := fun steady t sent =>
    ⟨enterHolding_effect hl hu hk steady sent, enterHolding_shows sent⟩
  refine ⟨fun hq steady => ?_, fun hq busy => ?_, fun steady => ?_, fun busy => ?_, fun riding closed => ?_, fun idle => ?_⟩
  · have passes : (s.coordinator.state != .steady) = false := by rw [steady]; rfl
    obtain ⟨t, reached, answered, -, sent⟩ := request_acts tag 0x1A (.of_command (.tundishChange tag) rfl) enterHolding s hq
      (checked_one_passes passes)
    exact ⟨t, reached, answered, changed steady t sent⟩
  · exact request_refuses tag 0x1A _ .busy s hq (checked_one_fails (bne_iff_ne.mpr busy))
  · obtain ⟨t, reached, sent⟩ := event_acts (i := .tcRequestRise) ⟨rfl, nofun⟩ s
    rw [show effect .tcRequestRise s = enterHolding s from if_pos steady] at sent
    exact ⟨t, reached, changed steady t sent⟩
  · exact event_discarded (i := .tcRequestRise) ⟨rfl, nofun⟩ s (if_neg busy)
  · obtain ⟨t, reached, sent⟩ := event_acts (i := .rideThroughExpiry) ⟨rfl, nofun⟩ s
    have declares : effect .rideThroughExpiry s = declareDip s := by
      show rideExpiry s = _
      rw [rideExpiry, riding]
    rw [declares] at sent
    obtain ⟨power, supply, coordinator, pour, drive⟩ := declareDip_shows sent
    exact ⟨t, reached, declareDip_effect hl hu hk sent, power, supply, coordinator, pour, drive.trans closed⟩
  · refine event_discarded (i := .rideThroughExpiry) ⟨rfl, nofun⟩ s ?_
    show rideExpiry s = s
    unfold rideExpiry
    split
    · next riding => exact absurd riding idle
    all_goals rfl

end Sys2Proof.Machine
end
